-- ==== Sys2Proof/Word.lean ====
section
/-! DEFINITION. The word types of the VX4620 model: bytes of the host map, two-byte and four-byte register values. -/

namespace Sys2Proof

/-- One byte of the host map, of a mailbox, of a ring or of a frame. -/
abbrev Byte := BitVec 8

/-- A 16-bit address of the host-visible map, or a two-byte register value. -/
abbrev Half := BitVec 16

/-- A four-byte register value, and the 32-bit LCLK stamp of R55. -/
abbrev Word := BitVec 32

end Sys2Proof
end

