-- ==== Sys2Proof/Syntax.lean ====
section
/-! DEFINITION. The commands of the VX4620: the ONE inductive `Instr`, one constructor per row of the operations table,
and the small types its operands are made of. The table gives the rows no bits and no fields, so each operand here is
what the rule of the row needs from outside the module: a port, an index, a measured level, a received frame, a byte. -/

namespace Sys2Proof

/-- A host port (R194, R224: the two chip selects and the host two-wire channel), coded 0, 1, 2 as in BIND (R185). -/
inductive Port where
  | csA | csB | tw
  deriving DecidableEq, Repr

/-- A supply of VSYS (R87). -/
inductive Source where
  | adp | aux | bat
  deriving DecidableEq, Repr

/-- A switched power domain of the core die (R158). -/
inductive Domain where
  | cpu | memM | memB | log | gauge | pwr | hif
  deriving DecidableEq, Repr

/-- A low state a domain may enter (R158). -/
inductive Low where
  | off | ret
  deriving DecidableEq, Repr

/-- A path of the Log engine (R316). -/
inductive Path where
  | a | b
  deriving DecidableEq, Repr

/-- The two line-die settings a CFG frame carries (R65, R86). -/
inductive CfgReg where
  | lossFrac | plim
  deriving DecidableEq, Repr

/-- The charger's safety timers (R103). -/
inductive ChgTimer where
  | pre | fast
  deriving DecidableEq, Repr

/-- The two first-switch-over stamps (R150). -/
inductive Fso where
  | bak | bat
  deriving DecidableEq, Repr

/-- A TLM frame of the isolation link (R65). -/
structure TlmFrame where
  seq : BitVec 8
  /-- line voltage, signed, 0.25 V -/
  vline : BitVec 12
  /-- HVIN, 0.5 V -/
  hvin : BitVec 10
  /-- line-die temperature, °C + 40 -/
  temp : BitVec 8
  ssr : Bool
  /-- last switch peak current, 4 mA -/
  peak : BitVec 9
  deriving DecidableEq, Repr

/-- A ZC frame (R65). -/
structure ZcFrame where
  positive : Bool
  range : Bool
  lock : Bool
  seq : BitVec 5
  stamp : Word
  deriving DecidableEq, Repr

/-- An EVT frame (R65, R66). -/
structure EvtFrame where
  code : Byte
  stamp : Word
  deriving DecidableEq, Repr

/-- The kind of a QA frame (R65). -/
inductive QaKind where
  | opened | ended | refused
  deriving DecidableEq, Repr

/-- A QA frame (R65). -/
structure QaFrame where
  kind : QaKind
  tag : BitVec 3
  cause : BitVec 3
  stamp : Word
  deriving DecidableEq, Repr

/-- The mode field of a REG frame (R53); the reserved code is a frame the receiver discards. -/
inductive RegMode where
  | run | override | softStop
  deriving DecidableEq, Repr

/-- A frame of the downlink (R65): REG, QUIET and CFG, the last with its index code, which may be reserved. -/
inductive DownFrame where
  | reg (mode : RegMode) (demand : BitVec 12)
  | quiet (tag : BitVec 3) (len : BitVec 13)
  | cfg (index : BitVec 4) (v : BitVec 12)
  deriving DecidableEq, Repr

/-- A frame of the uplink (R65). -/
inductive UpFrame where
  | tlm (f : TlmFrame)
  | zc (f : ZcFrame)
  | evt (f : EvtFrame)
  | qa (f : QaFrame)
  deriving DecidableEq, Repr

/-- A direction of the isolation link (R65). -/
inductive LinkDir where
  | down | up
  deriving DecidableEq, Repr

/-- A complex number in fixed point, 2⁻⁴⁸ per unit. -/
structure Cx where
  re : Int
  im : Int
  deriving DecidableEq, Repr

/-- How a transfer on the two-wire buses ended: the causes shared by SBS_CAUSE and PB_CAUSE (R244). -/
inductive BusEnd where
  | ok | addrNack | dataNack | pec
  deriving DecidableEq, Repr

/-- One constructor per row of the operations table, in the table's order. -/
inductive Instr where
  /-- REGISTER_WRITE (R1). A host write to a register field that has no row of its own: RW fields are written, W1C bits are cleared, RO fields are unchanged, and the port grants, binding and domain checks apply. -/
  | registerWrite (p : Port) (a : Half) (bytes : List Byte)
  /-- ADDR_STRAP_LATCH (R32). At the end of the 100 µs strap measurement after a Binnacle power-on reset, the host-channel address is latched. -/
  | addrStrapLatch (mv : Nat)
  /-- VDDIO_LOSS (R27). Loss of VDDIO ends any transfer in progress: completed bytes keep their effect, the partial byte is discarded, and no flag is set. -/
  | vddioLoss
  /-- NRST_RESET (R177). NRST held low for 1 µs or more resets the switched domains and aborts host transfers. -/
  | nrstReset
  /-- LINE_DIE_START (R45). VLD rising to 11.5 V starts the line die: the start-up source turns off, the beacon begins, and soft-start begins if HVIN is at brown-in. -/
  | lineDieStart (hvin : Nat) (stamp : Word)
  /-- BROWN_IN (R45). HVIN reaching 100 V while the started line die waits begins the 8 ms soft-start under PSR. -/
  | brownIn
  /-- SOFT_START_END (R491). The 8 ms soft-start ends with the peak-current limit at 1.60 A. -/
  | softStartEnd
  /-- LINE_DIE_STOP (R45). VLD falling below 7.5 V stops the line die and turns the start-up source on again. -/
  | lineDieStop
  /-- GOODBYE_SEND (R46). VLD falling through 8.0 V makes the line die send the EVT frame GOODBYE. -/
  | goodbyeSend (stamp : Word)
  /-- REG_FRAME_DUE (R68). Every 2.0 µs the core die sends a REG frame carrying the compensated demand and the mode. -/
  | regFrameDue (demand : BitVec 12)
  /-- REG_RUN (R53). The line die receives a valid REG frame with mode RUN: it regulates to the demand and ends a STOP or SOFT-STOP hold with a soft-start. -/
  | regRun (demand : BitVec 12)
  /-- REG_OVERRIDE (R53). The line die receives a REG frame with mode OVERRIDE: it acts as for RUN and ends an open quiet window with QA END cause 1. -/
  | regOverride (demand : BitVec 12) (stamp : Word)
  /-- REG_SOFT_STOP (R53). The line die receives a REG frame with mode SOFT-STOP: it ends the present cycle and holds the switch off, sending EVT 0x08 the first time. -/
  | regSoftStop (stamp : Word)
  /-- FRAME_DISCARD (R67). A received frame with a CRC error, a reserved type or a reserved REG mode is discarded and counted in CRC_ERR. -/
  | frameDiscard (dir : LinkDir) (bits : List Bool) (instant : Nat)
  /-- DOWNLINK_TIMEOUT (R48). 20 µs without a valid downlink frame returns the line die to PSR and starts the beacon. -/
  | downlinkTimeout (stamp : Word)
  /-- STOP_RESTART_TIMEOUT (R52). 1 s without a valid downlink frame after a STOP makes the line die restart with soft-start under PSR. -/
  | stopRestartTimeout
  /-- STOP_SYMBOL_RECEIVED (R52). The line die receives a STOP symbol: it turns the switch off within 250 ns, discards any interrupted frame and ends a quiet window with cause 2. -/
  | stopSymbolReceived (stamp : Word)
  /-- HVIN_BROWN_OUT (R50). HVIN falling below 90 V while switching stops the switch and sends EVT 0x0A. -/
  | hvinBrownOut (stamp : Word)
  /-- HVIN_OVERVOLTAGE (R50). HVIN rising above 450 V stops switching within one cycle and sends EVT 0x03. -/
  | hvinOvervoltage (stamp : Word)
  /-- HVIN_OV_RESUME (R50). HVIN falling below 440 V after an overvoltage stop lets switching resume. -/
  | hvinOvResume
  /-- SWITCH_SHORT_CIRCUIT (R50). A switch current of 2.40 A or more after the 200 ns blanking stops the switch and sends EVT 0x04. -/
  | switchShortCircuit (stamp : Word)
  /-- OVERLOAD_STOP (R50). A demand held at the power limit for 20 ms stops the switch and sends EVT 0x06. -/
  | overloadStop (stamp : Word) (mw : Nat)
  /-- FAULT_RESTART (R50). 1 s after a short-circuit or overload stop, the line die restarts with soft-start. -/
  | faultRestart
  /-- OVERTEMP_STOP (R50). A line-die junction at 150 °C or more stops the switch and sends EVT 0x05. -/
  | overtempStop (stamp : Word)
  /-- OVERTEMP_RESUME (R50). A line-die junction falling below 125 °C after an over-temperature stop resumes switching with soft-start. -/
  | overtempResume
  /-- VLD_OV_LATCH (R50). VLD rising above 26 V stops and latches the line die and sends EVT 0x0B. -/
  | vldOvLatch (stamp : Word)
  /-- VAUX_OVERVOLTAGE (R50). The core die sees VAUX above 22.0 V and sends a STOP symbol, then SOFT-STOP frames. -/
  | vauxOvervoltage
  /-- VAUX_RECOVER (R50). VAUX below 19.0 V, at least 1 ms after the STOP, makes the core die send RUN again. -/
  | vauxRecover
  /-- ZERO_CROSSING (R55). Two line samples straddling 0 V form a crossing, which is stamped on LCLK by interpolation and sent as a ZC frame. -/
  | zeroCrossing (t : Word) (v0 : BitVec 18) (v1 : BitVec 18) (peak : Nat)
  /-- LINE_LOSS_DECLARE (R58). The loss timer expires and the line die sends EVT LINE_LOSS stamped with the last qualifying sample. -/
  | lineLossDeclare (stamp : Word) (v : BitVec 18) (now : Word)
  /-- LINE_LOSS_REPEAT (R58). The line die repeats LINE_LOSS 10 µs later, up to three times, until a correct QA or REG frame has followed it. -/
  | lineLossRepeat
  /-- DC_MODE_ENTRY (R59). After 100 ms without a crossing with |v| at or above 100 V, the line die enters DC mode with a 10 ms loss timer. -/
  | dcModeEntry (now : Word) (v : BitVec 18)
  /-- DC_LINE_RETURN (R59). In DC mode, the line returns after |v| has been at or above 100 V for 20 ms. -/
  | dcLineReturn (stamp : Word)
  /-- LINE_RETURN_DECLARE (R60). After two qualifying full cycles, the line die sends LINE_RETURN stamped with the completing crossing. -/
  | lineReturnDeclare
  /-- TLM_PRODUCE (R69). Every 10 µs the line die produces a TLM frame into its queue of eight. -/
  | tlmProduce (vline : BitVec 12) (hvin : BitVec 10) (temp : BitVec 8) (peak : BitVec 9)
  /-- TLM_RECEIVED (R70). The core die receives a TLM frame, updates the telemetry registers, counts sequence gaps and checks the SSR and HVIN fields. -/
  | tlmReceived (f : TlmFrame)
  /-- ZC_RECEIVED (R57). The core die receives a ZC frame, which updates the crossing registers and feeds the trim engine. -/
  | zcReceived (f : ZcFrame)
  /-- LINE_LOSS_RECEIVED (R61). The core die receives LINE_LOSS: it raises EV00, clears LINE_OK and counts the loss. -/
  | lineLossReceived (stamp : Word)
  /-- LINE_RETURN_RECEIVED (R61). The core die receives LINE_RETURN: it raises EV01 and sets LINE_OK. -/
  | lineReturnReceived (stamp : Word)
  /-- LD_FAULT_RECEIVED (R66). The core die receives an EVT frame with a fault or status code and sets the matching LD_FAULT or LD_VLD_OV bit. -/
  | ldFaultReceived (f : EvtFrame)
  /-- BEACON_BURST (R75). Every 20 µs without downlink, the line die sends a 0.5 µs carrier burst. -/
  | beaconBurst
  /-- LINK_UPLINK_TIMEOUT (R73). 25 µs without a valid uplink frame or beacon takes an UP link to FAULT, with EV03, or to DOWN after GOODBYE, and takes a TRAINING link to DOWN. -/
  | linkUplinkTimeout
  /-- LINK_FAULT_RESET (R74). 100 ms in TRAINING or FAULT with the beacon present resets the switched domains with cause link fault. -/
  | linkFaultReset
  /-- BEACON_QUALIFIED (R76). Eight consecutive CK32 periods with a burst latch the beacon detector and raise the line wake source. -/
  | beaconQualified
  /-- BEACON_DETECTOR_CLEAR (R76). A CK32 period without a burst clears the detector latch and its count. -/
  | beaconDetectorClear
  /-- CFG_WRITE (R86). A host write of LOSS_FRAC or PLIM stores the value and sends a CFG frame carrying the limited value. -/
  | cfgWrite (p : Port) (r : CfgReg) (v : Byte)
  /-- CFG_RECEIVED (R86). The line die receives a CFG frame and updates LOSS_FRAC or PLIM. -/
  | cfgReceived (index : BitVec 4) (v : BitVec 12)
  /-- QUIET_RECEIVED (R80). The line die judges a QUIET frame: it refuses it with a cause, or accepts it and holds the request. -/
  | quietReceived (tag : BitVec 3) (len : BitVec 13) (stamp : Word)
  /-- LD_QUIET_OPEN (R78). After the present cycle's demagnetisation ends, the line die opens its window, holds the switch off and sends QA OPEN. -/
  | ldQuietOpen (stamp : Word)
  /-- LD_QUIET_GUARD_END (R79). The guard ends, and an accepted request that waited on it proceeds to open its window. -/
  | ldQuietGuardEnd (now : Word)
  /-- LD_QUIET_END (R83). The line-die window runs its length of L + 2.5 µs and ends with QA END cause 0. -/
  | ldQuietEnd (stamp : Word)
  /-- LD_QUIET_VLD_END (R83). VLD falling below 9.0 V ends the line-die window with cause 3. -/
  | ldQuietVldEnd (stamp : Word)
  /-- QA_OPEN_RECEIVED (R78). Acceptance of QA OPEN opens the core-side window for L. -/
  | qaOpenReceived (tag : BitVec 3) (stamp : Word) (edge : Nat)
  /-- QA_END_RECEIVED (R83). The core die receives QA END and records it in QW_LAST. -/
  | qaEndReceived (tag : BitVec 3) (cause : BitVec 3) (stamp : Word)
  /-- QA_REFUSED_RECEIVED (R333). The core die receives QA REFUSED, records it in QW_LAST and gives the shot cause QUIET_REFUSED. -/
  | qaRefusedReceived (tag : BitVec 3) (cause : BitVec 3) (stamp : Word)
  /-- CORE_QUIET_CLOSE (R78). The core-side window closes after L, and the charger resumes at the next CHGCK edge. -/
  | coreQuietClose (edge : Nat)
  /-- QW_DROOP_OVERRIDE (R81). VAUX sampled below QW_DROOP inside a core-side window sends REG OVERRIDE and raises EV02. -/
  | qwDroopOverride (edge : Nat) (vaux : Nat)
  /-- SOURCE_VALID (R87). A source completes its deglitch time and becomes valid, and the selector may switch to it. -/
  | sourceValid (src : Source) (mv : Nat)
  /-- SOURCE_INVALID (R87). A source falls below its falling threshold, or VADP rises above 21.5 V, and the source becomes invalid. -/
  | sourceInvalid (src : Source) (mv : Nat)
  /-- SOURCE_SWITCH_CLOSE (R89). The switch of the newly selected source closes, or the last switch opens with no valid source left. -/
  | sourceSwitchClose
  /-- SR_TURN_ON (R94). SRD falling to −200 mV drives SRG high. -/
  | srTurnOn (vaux : Nat)
  /-- SR_TURN_OFF (R94). SRD rising to −15 mV after the minimum on-time drives SRG low. -/
  | srTurnOff
  /-- SR_MAX_ON_TIME (R94). SRG is driven low at the 8 µs maximum on-time. -/
  | srMaxOnTime
  /-- CHG_EN_WRITE (R96). A write of CHG_EN starts the charger from OFF into WAIT, or takes it to OFF and releases CHSW. -/
  | chgEnWrite (p : Port) (v : Byte)
  /-- CHG_STATE_TEST (R101). The 1 ms test of the charger transitions applies the transition found at the next CHGCK edge. -/
  | chgStateTest (vbat : Nat) (vsys : Nat) (imeas : Half)
  /-- CHG_TERMINATION (R101). A current below ITERM for 60 s in CV takes the charger to DONE and raises EV09. -/
  | chgTermination
  /-- CHG_SAFETY_TIMER_EXPIRE (R103). Expiry of the precharge timer or the fast timer takes the charger to FAULT. -/
  | chgSafetyTimerExpire (t : ChgTimer)
  /-- CHG_OVERCURRENT (R104). A 3.0 A peak switch current stops the charger cycle by cycle, sets CHG_FAULT and raises EV10. -/
  | chgOvercurrent
  /-- CHG_OVERTEMP (R104). A die temperature of 125 °C stops the charger, sets CHG_FAULT and raises EV10. -/
  | chgOvertemp
  /-- CHG_OVERTEMP_RESUME (R104). The die temperature falling below 110 °C lets the charger resume. -/
  | chgOvertempResume
  /-- VAON_TO_VBAK (R109). VSYS falling below 2.9 V transfers VAON to VBAK. -/
  | vaonToVbak
  /-- VAON_TO_VSYS (R110). VSYS rising to 3.1 V returns VAON to VSYS, sets AON_WAS_BAK and raises EV14. -/
  | vaonToVsys
  /-- BIN_POWER_ON_RESET (R111). VAON below 1.75 V holds the Binnacle in power-on reset, and every field held by BIN returns to its reset value. -/
  | binPowerOnReset
  /-- VBAK_CHECK (R114). At every 64th second, VBAK is compared with 2.20 V, and a low result sets BAK_LOW and raises EV13. -/
  | vbakCheck (mv : Nat)
  /-- SECONDS_TICK (R116). The prescaler overflows and every calendar field and LSEC advance together. -/
  | secondsTick
  /-- CAL_CMD_SETR (R126). A write of SETR to CAL_CMD checks the staged time and, if it is valid, makes a SETR commit pending. -/
  | calCmdSetr (p : Port)
  /-- CAL_CMD_SETT (R126). A write of SETT to CAL_CMD checks the staged time and, if it is valid, makes a SETT commit pending. -/
  | calCmdSett (p : Port)
  /-- CAL_CMD_CANCEL (R126). A write of CANCEL to CAL_CMD discards a pending commit and clears COMMIT_PEND. -/
  | calCmdCancel (p : Port)
  /-- SETR_LOAD (R126). At the next CK32 edge, a pending SETR loads the staged time, resets the prescaler and writes SET_LAST and SET_PREV. -/
  | setrLoad
  /-- SHIFT_WRITE (R130). A write to SHIFT sets SHIFT_PEND, or is dropped with SHIFT_CXL while a shift or commit is pending. -/
  | shiftWrite (p : Port) (v : Half)
  /-- TRIM_CYCLE_START (R133). Every 256 s a new trim cycle starts and takes the current TRIM. -/
  | trimCycleStart
  /-- TRIM_CORRECTION (R133). At the first edge of a scheduled slot, the prescaler gains or loses one count. -/
  | trimCorrection
  /-- XTAL_FAIL (R121). Four LRC periods without a CK32 edge switch the count to LRC, suspend trim, set XTAL_FAIL and ON_LRC and raise EV18. -/
  | xtalFail
  /-- XTAL_RECOVER (R121). 16,384 consecutive good crystal periods return the count to the crystal and clear ON_LRC. -/
  | xtalRecover
  /-- TR_RUN_START (R134). A write of 1 to TR_RUN arms a trim measurement. -/
  | trRunStart (p : Port)
  /-- TR_RUN_ABORT (R137). A write of 0 to TR_RUN aborts the measurement with cause 6 and raises EV26. -/
  | trRunAbort (p : Port)
  /-- TRIM_MEAS_OPEN (R134). The armed measurement opens at the CK32 edge at or after the next reference edge. -/
  | trimMeasOpen
  /-- TRIM_MEAS_DONE (R135). After 2^k reference periods, TR_COUNT and TR_CALC are set, TR_VALID is set and EV25 is raised. -/
  | trimMeasDone
  /-- WAKE_TICK (R139). The time reaches a multiple of the tick period, and EV19 and the tick wake source are raised. -/
  | wakeTick
  /-- EVT_EDGE (R144). A filtered edge on EVTn increments COUNT, stamps FIRST if STAMPED is clear, and raises EV20 to EV23. -/
  | evtEdge (pin : Fin 4) (rising : Bool) (samples : Nat)
  /-- PPS_EDGE (R146). A rising edge on EVT3 in PPS mode feeds the trim engine only. -/
  | ppsEdge
  /-- STAMPED_CLEAR (R144). A write of 1 to STAMPED clears it together with FIRST. -/
  | stampedClear (p : Port) (pin : Fin 4)
  /-- LL_VALID_CLEAR (R147). A write of 1 to LL_VALID clears LL_VALID, LL_STAMP and LL_LCLK. -/
  | llValidClear (p : Port)
  /-- FSO_VALID_CLEAR (R150). A write of 1 to an FSO valid bit clears it and its stamp. -/
  | fsoValidClear (p : Port) (w : Fso)
  /-- SYSON_ON_WRITE (R148). A host write of SYSON_ON asserts or deasserts SYSON. -/
  | sysonOnWrite (p : Port) (v : Bool)
  /-- PWRKEY_SHORT (R149). Release of a press shorter than PK_LONG sets SHORT and raises EV27. -/
  | pwrkeyShort (ms : Nat)
  /-- PWRKEY_LONG (R149). A press reaching PK_LONG sets LONG, raises EV27 and may set SYSON_ON. -/
  | pwrkeyLong (ms : Nat)
  /-- PWRKEY_HARDOFF (R149). A 12 s press with PK_HARDOFF at 1 clears SYSON_ON, sets SYSON_FORCED_OFF and raises EV27. -/
  | pwrkeyHardoff (ms : Nat)
  /-- CMP_TRIP (R153). A filtered comparator crossing in the selected direction sets TRIPPED, raises EV28 to EV31 and the wake source. -/
  | cmpTrip (x : Fin 4) (mv : Nat) (results : Nat)
  /-- AWAKE_HIGH (R172). AWAKE high for 4 CK32 samples raises the AWAKE wake source. -/
  | awakeHigh (samples : Nat)
  /-- IDLE_TIMER_EXPIRE (R161). A domain's idle timer expires and the domain begins entry to its PD_LOW state, unless the entry is deferred. -/
  | idleTimerExpire (d : Domain) (edges : Nat)
  /-- WAIT_INSTRUCTION (R160). Firmware executes the wait instruction, and the named domains begin entry to their target states. -/
  | waitInstruction (targets : List (Domain × Low))
  /-- DEFERRED_ENTRY (R162). A deferred entry proceeds at the CK32 edge after its last blocking condition ends. -/
  | deferredEntry (d : Domain)
  /-- DOMAIN_ENTRY_DONE (R163). The supply reaches retention or opens, and PD_STATE shows the new state. -/
  | domainEntryDone (d : Domain)
  /-- DOMAIN_ON_DONE (R158). A domain completes its RET-to-ON or OFF-to-ON transition, and its pages are served. -/
  | domainOnDone (d : Domain) (vdrv : Nat)
  /-- CPU_RESET_RELEASE (R173). The CPU reset is released on a wake: WAKE_PEND is copied to WAKE_LAST, RST_CAUSE becomes wake-from-off and CPU_UP is set. -/
  | cpuResetRelease
  /-- PAD_HOLD_RELEASE (R167). Firmware releases a domain's pad hold, and PAD_HELD clears at the next PCLK edge. -/
  | padHoldRelease (d : Domain)
  /-- XO16_START_FAIL (R171). XO16 without a stable output 5 ms after its request sets XO16_FAIL and raises EV81. -/
  | xo16StartFail
  /-- BROWN_OUT_RESET (R176). VSYS falling below 2.60 V resets the switched domains. -/
  | brownOutReset
  /-- WATCHDOG_RESET (R177). A firmware watchdog unserviced for 2.0 s resets the switched domains. -/
  | watchdogReset
  /-- LOCKUP_RESET (R177). A processor that cannot take a fault exception resets the switched domains. -/
  | lockupReset
  /-- RESET_RELEASE (R178). With VSYS at or above 2.80 V, a reset that keeps the integrator is released and the CPU restarts, with RST_CAUSE and RST_HIST set. -/
  | resetRelease
  /-- KEEP_WRITE (R180). A write to a port's KEEP register holds the named domains ON and raises the KEEP wake source for those not ON. -/
  | keepWrite (p : Port) (target : Port) (v : BitVec 3)
  /-- RING_WRITE (R181). A write of 1 to RING of berth n sets PEND and raises the doorbell wake source. -/
  | ringWrite (p : Port) (n : Fin 4)
  /-- FWTIMER_EXPIRE (R172). The firmware wake timer expires and raises the FWTIMER wake source. -/
  | fwtimerExpire
  /-- SPI_CS_FALL (R189). A chip select falls: the mode is chosen, and LIVE and EVSUM are snapshotted and driven on MISO. -/
  | spiCsFall (second : Bool) (sck : Bool)
  /-- SPI_LIVE (R188). Opcode 0x00 returns LIVE and EVSUM, followed by fresh repeated triplets. -/
  | spiLive
  /-- SPI_WRITE_BYTE (R191). A completed WRITE data byte is judged by the checks of R198 and written to its address. -/
  | spiWriteByte (a : Half) (b : Byte)
  /-- SPI_READ_BYTE (R192). A READ data byte is judged at the completion of the byte before it and served from its address. -/
  | spiReadByte (a : Half) (complete : Bool)
  /-- SPI_RING (R190). Opcode 0x20 to 0x23 rings berth n's doorbell when the opcode byte completes. -/
  | spiRing (n : Fin 4)
  /-- SPI_BAD_OPCODE (R188). An unknown opcode returns LIVE triplets and sets BADOP for the port. -/
  | spiBadOpcode (op : Byte)
  /-- SPI_CS_RISE (R187). The chip select rises: MISO is released, and a partial byte is discarded with PARTIAL set. -/
  | spiCsRise (second : Bool) (partialBits : Fin 8)
  /-- SPI_CS_CLASH (R202). Both chip selects low end the transfer, set CS_CLASH, count CLASH_CNT and raise EV41. -/
  | spiCsClash (partialBits : Fin 8)
  /-- TW_ADDRESS_MATCH (R223). The matcher matches the strap address and latches the TWM wake source. -/
  | twAddressMatch (addr : BitVec 7) (read : Bool)
  /-- TW_ASYNC_TAKEOVER (R226). In ASYNC mode, HIF comes to run and takes over the stretched transaction. -/
  | twAsyncTakeover
  /-- TW_WAKE_FAIL (R227). HIF not running 1 ms after the acknowledge releases the lines, sets WAKE_FAIL and raises EV37. -/
  | twWakeFail
  /-- TW_RECEIVE_BYTE (R212). A read phase with no command returns fresh LIVE bytes. -/
  | twReceiveByte (n : Nat)
  /-- TW_READ_BYTE (R212). Command 0x01 returns the LIVE byte. -/
  | twReadByte (extra : List Byte) (n : Nat)
  /-- TW_READ_WORD (R212). Command 0x02 returns EVSUM. -/
  | twReadWord (extra : List Byte) (n : Nat)
  /-- TW_FIXED_READ (R211). Commands 0x10 to 0x17 read a fixed Binnacle block as if each byte were read at its address. -/
  | twFixedRead (block : Fin 8) (extra : List Byte) (n : Nat) (complete : Bool)
  /-- TW_RING (R210). Command 0x20 rings berth n at the end of a valid write transaction. -/
  | twRing (bytes : List Byte)
  /-- TW_BLOCK_WRITE (R210). Command 0x40 writes bytes into a berth's request mailbox at the end of a valid transaction. -/
  | twBlockWrite (code : Byte) (bytes : List Byte)
  /-- TW_PROCESS_CALL (R210). Command 0x41 returns L bytes of a berth's response mailbox from an offset. -/
  | twProcessCall (bytes : List Byte) (n : Nat) (complete : Bool)
  /-- TW_POINTER_WRITE (R213). Command 0x60 sets PTR and RLEN at the end of a valid transaction. -/
  | twPointerWrite (bytes : List Byte)
  /-- TW_PTR_BLOCK_WRITE (R213). Command 0x61 as Block Write writes bytes from PTR onward and advances PTR. -/
  | twPtrBlockWrite (bytes : List Byte)
  /-- TW_PTR_BLOCK_READ (R213). Command 0x61 as Block Read returns RLEN bytes from PTR onward and advances PTR. -/
  | twPtrBlockRead (n : Nat) (complete : Bool)
  /-- TW_CLOCK_LOW_TIMEOUT (R233). HSCL low for 25 ms abandons the transaction, sets TLOW, counts TLOW_CNT and raises EV34. -/
  | twClockLowTimeout
  /-- TW_STUCK_TIMEOUT (R234). HSDA low with HSCL high for 35 ms sets STUCK and raises EV35. -/
  | twStuckTimeout
  /-- TW_BUS_RECOVERY (R235). With STUCK set and a controller transaction pending, the device pulses HSCL until HSDA releases, then sends STOP and counts RECOV_CNT. -/
  | twBusRecovery (releasedAt : Option (Fin 9))
  /-- SBS_READ_DUE (R421). Every SBS_INT seconds, firmware requests a smart-battery read set. -/
  | sbsReadDue
  /-- SBS_BUS_FREE (R229). The bus becomes free, and the pending controller transaction starts. -/
  | sbsBusFree
  /-- TW_ARB_LOST (R230). Arbitration is lost during an address or data byte: the device becomes a target, or releases and retries, and ARB_CNT counts the loss. -/
  | twArbLost (addrByte : Option Byte)
  /-- TW_ARB_SR (R231). Arbitration lost while generating a STOP or repeated START aborts the transaction, sets ARB_SR and raises EV36. -/
  | twArbSr
  /-- SBS_READ_COMPLETE (R232). A smart-battery read ends: on success an SBS record and EV45 follow, and on failure SBS_CAUSE is set and EV39 raised. -/
  | sbsReadComplete (how : BusEnd) (words : List Half)
  /-- PROBE_TRANSFER_DONE (R238). A probe random read or page write completes, and EV44 or a failure follows. -/
  | probeTransferDone (how : BusEnd) (bytes : List Byte)
  /-- PROBE_WRITE_POLL (R238). Every 1 ms after a head write, the device polls for acknowledgement. -/
  | probeWritePoll (acked : Bool)
  /-- PROBE_POLL_TIMEOUT (R238). No acknowledge 20 ms after a head write fails it with PB_CAUSE 3. -/
  | probePollTimeout
  /-- PROBE_BUS_CONFLICT (R237). PSDA read low while released aborts the transfer with PB_CAUSE 6 and raises EV40. -/
  | probeBusConflict
  /-- PROBE_TIMEOUT (R241). A clock-low or stuck-data timeout on the probe channel fails the transfer and raises EV40. -/
  | probeTimeout (stuck : Bool) (recovered : Bool)
  /-- FIRMWARE_START (R246). At each start the firmware loads the charter, the bindings, the grants and the configuration store before it takes requests. -/
  | firmwareStart
  /-- FIRMWARE_TAKE_REQUEST (R273). Firmware copies the request, clears PEND, sets ACK and checks the frame in order before executing it. -/
  | firmwareTakeRequest (b : Fin 4)
  /-- MAC_LOCK_EXPIRE (R272). The 60 s lockout window closes and MAC_LOCK clears. -/
  | macLockExpire (b : Fin 4)
  /-- RING_RD_WRITE (R282). A host write of RING_RD frees records, and a write that would exceed 128 unread records is dropped. -/
  | ringRdWrite (p : Port) (b : Fin 4) (v : Byte)
  /-- FIRMWARE_REQUEST_RESET (R289). 50 ms after RESP_RDY of an activate or reset command, or at the next ring, a firmware-request reset is made. -/
  | firmwareRequestReset
  /-- FW_PROBATION_END (R290). After 30 s of probation, the new image confirms itself and logs FW_ACTIVATE. -/
  | fwProbationEnd
  /-- LOGBOOK_ENTRY_DURABLE (R294). A logbook entry becomes durable, and a totals entry raises EV78. -/
  | logbookEntryDurable
  /-- CONFIG_STORE_DURABLE (R297). A new configuration-store image becomes durable, and the command that wrote it is answered. -/
  | configStoreDurable
  /-- LOG_QUOTA_WINDOW (R251). A new 1 s quota window opens at a seconds tick, and Log work that waited for quota resumes. -/
  | logQuotaWindow
  /-- EVENT_DELIVER (R303). At a PCLK edge with HIF ON and ROUTE_OK set, latched raises set PEND of the routed berths and clear the latch. -/
  | eventDeliver
  /-- PEND_CLEAR (R304). A host write of 1 to a PEND bit through the bound port clears it and may release the IRQ pin. -/
  | pendClear (p : Port) (b : Fin 4) (k : Fin 12) (mask : Byte)
  /-- SOUNDING_DUE (R356). A path's sounding due time arrives and its shots start in a free slot. -/
  | soundingDue (p : Path)
  /-- SOUNDING_DELAYED_START (R376). A sounding delayed by an RTD conversion starts at its end, carries DELAYED and raises EV70. -/
  | soundingDelayedStart (p : Path)
  /-- SHOT_QUIET_REQUEST (R331). The engine starts the QUIET frame for a shot QLEAD before the capture. -/
  | shotQuietRequest (edge : Nat) (lclk : Word)
  /-- SHOT_FIRE (R318). At the fire edge, the drive supply is checked, the burst is driven and the TDC measures the launch offset. -/
  | shotFire (edge : Nat) (lclk : Word) (vdrv : Nat) (launch : Option Nat)
  /-- DRIVE_OVERCURRENT (R320). A bridge current of 2.0 A stops the burst, gives cause DRIVE and raises EV79. -/
  | driveOvercurrent (edge ma : Nat)
  /-- CAPTURE_OPEN (R332). The capture opens at t_f + DELAY, or the shot gets QUIET_LATE if the core-side window is not open. -/
  | captureOpen (edge : Nat)
  /-- CAPTURE_CLOSE (R332). The capture closes, possibly truncated, and the shot is timed and judged. -/
  | captureClose (samples : List (BitVec 14))
  /-- FLOW_QUIET_EXPIRE (R358). The FLOWING quiet window reaches QUIET_S, and the path returns to IDLE and raises EV74. -/
  | flowQuietExpire (p : Path)
  /-- HOLD_EXPIRE (R369). The hold window reaches HOLD_MAX, and the path goes INVALID and raises EV72. -/
  | holdExpire (p : Path)
  /-- ARRIVAL_LEARN_DONE (R343). The arrival learn ends and stores the template, origin, pattern and D_env, or is rejected. -/
  | arrivalLearnDone
  /-- LEEWAY_CAL_DONE (R365). The leeway calibration ends, stores LEEWAY or rejects it, produces a LEEWAY record and raises EV77. -/
  | leewayCalDone
  /-- RTD_SET_DUE (R373). An RTD set falls due every RTD_INT seconds, and its conversions wait for free slots. -/
  | rtdSetDue
  /-- RTD_CONVERSION_START (R375). A waiting RTD conversion starts at a free slot. -/
  | rtdConversionStart
  /-- RTD_CONVERSION_DONE (R372). The discharge crosses 0.50 V, and the TDC gives the discharge time. -/
  | rtdConversionDone (t : Nat)
  /-- RTD_DISCHARGE_TIMEOUT (R372). A discharge not ended within 900 µs is stopped with cause OPEN. -/
  | rtdDischargeTimeout
  /-- RTD_SET_STALE (R382). The freshness window of the latest set closes after RTD_STALE seconds. -/
  | rtdSetStale (p : Path)
  /-- TOTALS_PERIODIC_SAVE (R384). At each LSEC multiple of 900, a TOTALS_PERIODIC entry is written for each configured path. -/
  | totalsPeriodicSave
  /-- POWERFAIL_SAVE (R385). When line loss and a low or invalid gauge state coincide, TOTALS_POWERFAIL entries are written and the save is disarmed. -/
  | powerfailSave
  /-- GAUGE_CONVERSION_END (R397). A conversion ends: I_LAST is added to ACC, CONV_CNT increments and SOC is recomputed. -/
  | gaugeConversionEnd (adc : Int)
  /-- REST_WINDOW_COMPLETE (R406). The rest window reaches T_REST on a quiet conversion end and sets REST_MET. -/
  | restWindowComplete
  /-- GAUGE_TELEMETRY (R404). A background BSNS and TS conversion gives VCELL and the pack temperature. -/
  | gaugeTelemetry (bsns : BitVec 14) (rts : Nat)
  /-- FIX_ATTEMPT (R407). With REST_MET set, firmware takes a fix reading, judges it and produces a FIX record. -/
  | fixAttempt (bsns : List (BitVec 14)) (rts : Nat)
  /-- LEARN_AGE_EXPIRE (R411). A learn OPEN for LEARN_MAX is disqualified with cause AGE. -/
  | learnAgeExpire
  /-- NOP (R433). Command 0x0100 answers OK. -/
  | nop (b : Fin 4)
  /-- VERSION (R433). Command 0x0101 returns the firmware release, banks and identity. -/
  | version (b : Fin 4)
  /-- STATUS (R433). Command 0x0102 returns AUDIT_CTR, the charter serials, the sealed berths, the rights and RST_CAUSE. -/
  | status (b : Fin 4)
  /-- RESET (R434). Command 0x0103 with 0xA5 writes totals entries, answers and schedules a firmware-request reset. -/
  | reset (b : Fin 4)
  /-- ROUTE_SET (R435). Command 0x0104 writes the requester's routing bits and IRQ_SEL field. -/
  | routeSet (b : Fin 4)
  /-- ROUTE_GET (R433). Command 0x0105 returns the requester's routing. -/
  | routeGet (b : Fin 4)
  /-- LOG_READ (R436). Command 0x0106 returns up to three readable logbook entries from an ESEQ. -/
  | logRead (b : Fin 4)
  /-- CHARTER_READ (R437). Command 0x0200 returns a berth entry of the active, committed or staged charter, with the key check value. -/
  | charterRead (b : Fin 4)
  /-- CHARTER_STAGE (R438). Command 0x0201 stages one berth entry, or part of its key. -/
  | charterStage (b : Fin 4)
  /-- CHARTER_COMMIT (R252). Command 0x0202 validates the staged charter, writes the non-active copy, logs CHARTER_COMMIT and raises EV89. -/
  | charterCommit (b : Fin 4)
  /-- CHARTER_DISCARD (R437). Command 0x0203 discards the staged charter. -/
  | charterDiscard (b : Fin 4)
  /-- SEAL (R259). Command 0x0204 seals the requesting berth: it logs SEAL, writes the sealed charter copy and raises EV88. -/
  | seal (b : Fin 4)
  /-- UNSEAL (R260). Command 0x0205 unseals a berth: AUDIT_CTR increments, the calibration and totals are erased and the logbook is written. -/
  | unseal (b : Fin 4)
  /-- PD_POLICY (R441). Command 0x0300 sets PD_LOW, the idle times and the requester's HOLD_ON mask. -/
  | pdPolicy (b : Fin 4)
  /-- WAKE_POLICY (R442). Command 0x0301 sets WAKE_EN bits 11:0, EV_WAKE_EN and IRQ_MODE. -/
  | wakePolicy (b : Fin 4)
  /-- CONV_CTL_STOP (R443). Command 0x0302 with action 0 sends STOP and holds the converter with SOFT-STOP frames. -/
  | convCtlStop (b : Fin 4)
  /-- CONV_CTL_RESTART (R443). Command 0x0302 with action 1 sends REG with mode RUN. -/
  | convCtlRestart (b : Fin 4)
  /-- POLICY_GET (R441). Command 0x0303 returns the policy values in force. -/
  | policyGet (b : Fin 4)
  /-- TIME_SET (R445). Command 0x0400 stages the time, commits it and answers after the load. -/
  | timeSet (b : Fin 4)
  /-- TIME_SHIFT (R445). Command 0x0401 writes SHIFT and answers once SHIFT_PEND clears. -/
  | timeShift (b : Fin 4)
  /-- TRIM_POLICY (R446). Command 0x0402 stores and applies the trim source and measurement options. -/
  | trimPolicy (b : Fin 4)
  /-- TRIM_GET (R444). Command 0x0403 returns the trim policy in force. -/
  | trimGet (b : Fin 4)
  /-- GAUGE_CFG_WRITE (R424). Command 0x0500 checks and writes the gauge configuration block. -/
  | gaugeCfgWrite (b : Fin 4)
  /-- GAUGE_CFG_READ (R447). Command 0x0501 returns the gauge configuration block. -/
  | gaugeCfgRead (b : Fin 4)
  /-- GAUGE_PROFILE (R425). Command 0x0502 checks and writes an OCV profile block. -/
  | gaugeProfile (b : Fin 4)
  /-- GAUGE_SAVE (R417). Command 0x0503 increments SAVE_SEQ and returns the gauge state block. -/
  | gaugeSave (b : Fin 4)
  /-- GAUGE_RESTORE (R419). Command 0x0504 checks a state block and restores the anchor and capacity, or refuses it. -/
  | gaugeRestore (b : Fin 4)
  /-- ACQ_WRITE (R355). Command 0x0600 checks and stores a path's acquisition block. -/
  | acqWrite (b : Fin 4)
  /-- ACQ_READ (R448). Command 0x0601 returns a path's acquisition block and ports. -/
  | acqRead (b : Fin 4)
  /-- FLOW_WRITE (R393). Command 0x0602 checks and stores a path's flow block. -/
  | flowWrite (b : Fin 4)
  /-- FLOW_READ (R448). Command 0x0603 returns a path's flow block. -/
  | flowRead (b : Fin 4)
  /-- RTD_WRITE (R449). Command 0x0604 checks the rights and stores the RTD block. -/
  | rtdWrite (b : Fin 4)
  /-- RTD_READ (R448). Command 0x0605 returns the RTD block. -/
  | rtdRead (b : Fin 4)
  /-- CARD_WRITE (R395). Command 0x0606 checks and stores a path's deviation card. -/
  | cardWrite (b : Fin 4)
  /-- CARD_READ (R448). Command 0x0607 returns a path's deviation card. -/
  | cardRead (b : Fin 4)
  /-- FLUID_WRITE (R396). Command 0x0608 checks and stores a path's fluid coefficient block. -/
  | fluidWrite (b : Fin 4)
  /-- FLUID_READ (R448). Command 0x0609 returns a path's fluid coefficient block. -/
  | fluidRead (b : Fin 4)
  /-- PATH_PORTS (R450). Command 0x060A sets a path's port pair and clears its template and LEEWAY. -/
  | pathPorts (b : Fin 4)
  /-- ARRIVAL_LEARN (R451). Command 0x060B starts the arrival learn of a path and answers at acceptance. -/
  | arrivalLearn (b : Fin 4)
  /-- LEEWAY_CAL (R451). Command 0x060C starts the leeway calibration of a path and answers at acceptance. -/
  | leewayCal (b : Fin 4)
  /-- CAL_RESULT (R451). Command 0x060D returns the outcome of the latest calibration of a path. -/
  | calResult (b : Fin 4)
  /-- TOTALS_READ (R448). Command 0x060E returns a path's totals with a stamp. -/
  | totalsRead (b : Fin 4)
  /-- TOTALS_RESET (R452). Command 0x060F zeroes a path's totals and logs a zero totals entry. -/
  | totalsReset (b : Fin 4)
  /-- W2W (R390). Command 0x0700 computes hydraulic power and efficiency over AVG seconds and produces a W2W record. -/
  | w2w (b : Fin 4)
  /-- FLUID_PROPS (R455). Command 0x0701 returns the fluid properties of a path at a temperature. -/
  | fluidProps (b : Fin 4)
  /-- FW_BEGIN (R288). Command 0x0800 erases the inactive bank and starts an update. -/
  | fwBegin (b : Fin 4)
  /-- FW_DATA (R457). Command 0x0801 writes the next contiguous image chunk. -/
  | fwData (b : Fin 4)
  /-- FW_VERIFY (R288). Command 0x0802 checks the image length, signature and security version. -/
  | fwVerify (b : Fin 4)
  /-- FW_ACTIVATE (R289). Command 0x0803 selects the verified bank and schedules a firmware-request reset. -/
  | fwActivate (b : Fin 4)
  /-- FW_INFO (R456). Command 0x0804 returns bank and release information. -/
  | fwInfo (b : Fin 4)
  /-- PROBE_CFG (R459). Command 0x0900 sets the probe speed, filter, address widths and page sizes. -/
  | probeCfg (b : Fin 4)
  /-- PROBE_READ (R459). Command 0x0901 reads bytes from a head memory and returns PB_CAUSE. -/
  | probeRead (b : Fin 4)
  /-- PROBE_WRITE (R459). Command 0x0902 writes a page of a head memory and returns PB_CAUSE. -/
  | probeWrite (b : Fin 4)
  /-- PRESCALER_COUNT (R132). At each CK32 edge that is not a seconds tick, a trim correction or a SETR load, the prescaler counts one and SUBSEC advances. -/
  | prescalerCount (key : Bool)
  /-- BIN_POR_RELEASE (R111). VAON rising above 1.90 V releases the Binnacle from power-on reset: counting starts at edge 0, the ADDR strap measurement begins and PWRKEY timing starts. -/
  | binPorRelease
  /-- VDDIO_RETURN (R493). VDDIO returns: the host pads leave high-impedance, held levels reappear on them, and the port serves the next falling chip-select edge it sees. -/
  | vddioReturn
  /-- PLLC_LOCK (R171). PLLC achieves lock after it is requested, PLLC_LOCK becomes 1, and firmware may switch the CPU to PLLC. -/
  | pllcLock
  /-- DIE_TEMP (R301). The core-die temperature reaches 125 °C, or reaches it again after falling below 115 °C, and EV95 DIE_TEMP is raised. -/
  | dieTemp
  /-- FLASH_ECC (R301). A flash scrub or fetch corrects an ECC error, and EV94 FLASH_ECC is raised. -/
  | flashEcc
  deriving DecidableEq, Repr

end Sys2Proof
end

