-- ==== Sys2Proof/Config.lean ====
section
/-! DEFINITION. What the manual leaves open. Each constant has no body, so nothing in Lean can evaluate it or prove a
value of it: a claim that mentions one holds whatever it is. -/

namespace Sys2Proof.Config

/-- Free values taken one after another, by a counter the state holds (log 3): LAST_SEQ after a reset (R273). -/
opaque freeByte : Nat → Byte

/-- Whether a firmware image's ECDSA P-256 signature is good (R287, R288): the key in boot ROM is not given (log 14). -/
opaque imageSigned : List Byte → Bool

/-- The release an image's header carries, as VERSION bytes 1–4: the header's layout is not given (R287, log 14). -/
opaque imageRelease : List Byte → List Byte

/-- The security version an image's header carries (R287, log 14). -/
opaque imageSecVer : List Byte → Half

/-- The length an image's header carries, checked by verify (R287, R288, log 14). -/
opaque imageLength : List Byte → Nat

/-- The length H of a learned template, by the acquisition block: the rule that forms it gives none (R341, R343, log 49). -/
opaque templateLen : List Byte → Nat

end Sys2Proof.Config
end

