-- ==== Sys2Proof/Machine/Bits.lean ====
section
/-! DEFINITION. Byte order, saturation, the three CRCs and HMAC-SHA-256: the arithmetic of bytes that the rules share. -/

namespace Sys2Proof.Machine

/-- A saturating counter's next value. -/
def satInc {n : Nat} (v : BitVec n) : BitVec n :=
  if v = BitVec.allOnes n then v else v + 1

/-- A saturating counter after `k` more counts. -/
def satAdd {n : Nat} (v : BitVec n) (k : Nat) : BitVec n :=
  BitVec.ofNat n (min (v.toNat + k) (2 ^ n - 1))

/-- `n` bytes of a value, least significant first (R4, R5). -/
def leBytes (n : Nat) (v : Nat) : List Byte :=
  (List.range n).map fun k => BitVec.ofNat 8 (v / 256 ^ k)

/-- The value of bytes given least significant first (R4, R5). -/
def leNat : List Byte → Nat
  | [] => 0
  | b :: bs => b.toNat + 256 * leNat bs

/-- `n` bytes of `bs` from `off`, a byte beyond the end reading 0. -/
def slice (bs : List Byte) (off n : Nat) : List Byte :=
  (List.range n).map fun k => bs.getD (off + k) 0

/-- The little-endian value of `n` bytes of `bs` from `off`. -/
def leAt (bs : List Byte) (off n : Nat) : Nat := leNat (slice bs off n)

/-- The signed little-endian value of `n` bytes of `bs` from `off`. -/
def sleAt (bs : List Byte) (off n : Nat) : Int := (BitVec.ofNat (8 * n) (leAt bs off n)).toInt

/-- `n` bytes of a signed value in two's complement, least significant first. -/
def sleBytes (n : Nat) (v : Int) : List Byte := leBytes n (BitVec.ofInt (8 * n) v).toNat

/-- Bits `hi` down to `lo` of byte `i` of `bs`. -/
def bitsAt (bs : List Byte) (i hi lo : Nat) : Nat :=
  ((bs.getD i 0).toNat / 2 ^ lo) % 2 ^ (hi + 1 - lo)

/-- Bit `k` of byte `i` of `bs`. -/
def bitAt (bs : List Byte) (i k : Nat) : Bool := (bs.getD i 0).getLsbD k

/-- A flag at bit `k` of a byte. -/
def flag8 (b : Bool) (k : Nat) : Byte := if b then 1#8 <<< k else 0

/-- The byte of the given flags, bit 0 first. -/
def byteOf (fs : List Bool) : Byte :=
  BitVec.ofNat 8 (fs.foldr (fun b n => (if b then 1 else 0) + 2 * n) 0)

/-- Byte `k` of a register value (R4). -/
def regByte {n : Nat} (v : BitVec n) (k : Nat) : Byte := BitVec.ofNat 8 (v.toNat / 256 ^ k)

/-- An integer held to a range. -/
def clampInt (lo hi v : Int) : Int := max lo (min hi v)

/-- Division rounded to the nearest integer, ties away from zero (R135, R342, R349, R363); the divisor is positive. -/
def divRound (a : Int) (b : Nat) : Int :=
  if 0 ≤ a then (2 * a + b) / (2 * b) else -((2 * (-a) + b) / (2 * b))

/-! ## CRCs -/

/-- One shift of a left-shifting CRC of width `w`. -/
def crcShift {w : Nat} (poly c : BitVec w) : BitVec w :=
  if c.msb then (c <<< 1) ^^^ poly else c <<< 1

/-- One byte into a left-shifting CRC of width 8 or 16. -/
def crcByte {w : Nat} (poly : BitVec w) (c : BitVec w) (b : Byte) : BitVec w :=
  (List.range 8).foldl (fun c _ => crcShift poly c) (c ^^^ (b.setWidth w <<< (w - 8)))

/-- PEC: CRC-8, polynomial 0x07, initial 0x00 (R220). -/
def pec (bs : List Byte) : Byte := bs.foldl (crcByte 0x07) 0x00

/-- HCRC: CRC-16, polynomial 0x1021, initial 0xFFFF (R265). -/
def crc16 (bs : List Byte) : Half := bs.foldl (crcByte 0x1021) 0xFFFF

/-- One bit into the link's CRC-8, polynomial 0x2F (R63). -/
def linkCrcBit (c : Byte) (b : Bool) : Byte :=
  if c.msb != b then (c <<< 1) ^^^ 0x2F else c <<< 1

/-- The link's CRC-8 over type and payload, most significant bit first, initial 0xFF (R63). -/
def linkCrc (bits : List Bool) : Byte := bits.foldl linkCrcBit 0xFF

/-- One byte into the reflected CRC-32. -/
def crc32Byte (c : Word) (b : Byte) : Word :=
  (List.range 8).foldl (fun c _ => if c.getLsbD 0 then (c >>> 1) ^^^ 0xEDB88320 else c >>> 1) (c ^^^ b.setWidth 32)

/-- CRC-32: polynomial 0x04C11DB7 reflected, initial and final XOR 0xFFFFFFFF (R248). -/
def crc32 (bs : List Byte) : Word := bs.foldl crc32Byte 0xFFFFFFFF ^^^ 0xFFFFFFFF

/-! ## HMAC-SHA-256 (R257, R268). PRESUMED (log 15): the function is that of FIPS 180-4, which the manual names through
FIPS 198-1 and does not print. Its constants are formed here from the primes, as that standard defines them. -/

/-- The first 64 primes. -/
def shaPrimes : List Nat :=
  [2, 3, 5, 7, 11, 13, 17, 19, 23, 29, 31, 37, 41, 43, 47, 53] ++
  [59, 61, 67, 71, 73, 79, 83, 89, 97, 101, 103, 107, 109, 113, 127, 131] ++
  [137, 139, 149, 151, 157, 163, 167, 173, 179, 181, 191, 193, 197, 199, 211, 223] ++
  [227, 229, 233, 239, 241, 251, 257, 263, 269, 271, 277, 281, 283, 293, 307, 311]

/-- The first 32 bits of the fractional part of the `deg`-th root of `p`, found bit by bit. -/
def rootBits (deg p : Nat) : Word :=
  BitVec.ofNat 32 ((List.range 38).foldr (fun b r => if (r + 2 ^ b) ^ deg ≤ p * 2 ^ (32 * deg) then r + 2 ^ b else r) 0)

/-- The constant of each round, and the first chaining value: eight words. -/
def shaKeys : List Word := shaPrimes.map (rootBits 3)
def shaStart : List Word := (shaPrimes.take 8).map (rootBits 2)

/-- The exclusive or of a word's rotations to the right. -/
def spin (ks : List Nat) (w : Word) : Word := ks.foldl (fun x k => x ^^^ w.rotateRight k) 0

/-- A round: the window holds the sixteen words of the schedule from this round on, and moves by one; the eight registers
turn. -/
def shaTurn (x : List Word × List Word) (key : Word) : List Word × List Word :=
  match x with
  | (w :: later, [a, b, c, d, e, f, g, h]) =>
    let at_ (k : Nat) : Word := later.getD (k - 1) 0
    let fresh := w + (spin [7, 18] (at_ 1) ^^^ (at_ 1 >>> 3)) + at_ 9 + (spin [17, 19] (at_ 14) ^^^ (at_ 14 >>> 10))
    let pick := g ^^^ (e &&& (f ^^^ g))
    let most := (a &&& b) ||| (c &&& (a ||| b))
    let t := key + w + pick + spin [6, 11, 25] e + h
    (later ++ [fresh], [t + most + spin [2, 13, 22] a, a, b, c, t + d, e, f, g])
  | _ => x

/-- One block of sixteen words into the chaining value. -/
def shaAbsorb (chain block : List Word) : List Word :=
  List.zipWith (fun old new => old + new) chain (shaKeys.foldl shaTurn (block, chain)).2

/-- Bytes as big-endian words. -/
def wordsOf : List Byte → List Word
  | p :: q :: r :: t :: rest => (p ++ q ++ r ++ t : BitVec 32) :: wordsOf rest
  | _ => []

/-- A message with a one bit, zeros and its length in bits, so that whole blocks result. -/
def shaFill (m : List Byte) : List Byte :=
  m ++ 0x80 :: List.replicate ((119 - m.length % 64) % 64) 0 ++ (leBytes 8 (8 * m.length)).reverse

/-- The blocks of a word list. -/
def blocksOf (n : Nat) (ws : List Word) : List (List Word) := (List.range n).map fun i => (ws.drop (16 * i)).take 16

/-- SHA-256. -/
def sha256 (m : List Byte) : List Byte :=
  let ws := wordsOf (shaFill m)
  ((blocksOf (ws.length / 16) ws).foldl shaAbsorb shaStart).flatMap fun w => [regByte w 3, regByte w 2, regByte w 1, regByte w 0]

/-- HMAC-SHA-256 under a key of at most one block (RFC 2104): the outer hash covers the inner one. -/
def hmac (key m : List Byte) : List Byte :=
  let padded (v : Byte) : List Byte := (key.map fun b => b ^^^ v) ++ List.replicate (64 - key.length) v
  sha256 (padded 0x5c ++ sha256 (padded 0x36 ++ m))

end Sys2Proof.Machine
end

