-- ==== Sys2Proof/Machine/State.lean ====
section
/-! DEFINITION. The state of the VX4620 as the manual gives it, as plain data: the registers of the host map (each under
the field's own name), the state the rules imply (transfers, queues, windows, firmware's tables, flash), the queue of
waiting commands, and the module right after a power-on reset of the Binnacle. A field's default is its reset value.
Calendar fields and DOW are read out of LSEC (R116), so that no state shows a partly advanced time. -/

namespace Sys2Proof.Machine

/-- The reasons a command stops the machine. The manual names none for the module as a whole. -/
inductive Fault where
  /-- Raised by no meaning: every condition the manual describes leaves the module in a next state. SAFE. -/
  | none
  deriving DecidableEq, Repr

/-- Why a command has no meaning. -/
inductive Refusal where
  /-- Raised only by an arm of exec that has no meaning yet. SAFE: no claim holds of a step that is refused. -/
  | notModelled (mnemonic : String)
  deriving DecidableEq, Repr

/-! ## The line die -/

/-- The conditions that stop the switch of the line die (R50). -/
inductive StopCause where
  | brownOut | overVoltage | shortCircuit | overload | overTemp | vldLatch
  deriving DecidableEq, Repr

/-- A QUIET request the line die holds (R80). -/
structure QuietReq where
  tag : BitVec 3
  len : BitVec 13
  deriving DecidableEq, Repr

/-- What a sample is judged by from a crossing on (R57, R58): the crossing's stamp, T_nom in LCLK counts, and the running
peak in 3.90625 mV. -/
structure LossRef where
  at_ : Word
  nom : Rat
  peak : Rat
  deriving DecidableEq, Repr

/-- The line die: start-up, converter, line sense, uplink queues and its quiet window (R44 to R69, R75, R78 to R83). -/
structure LineDie where
  /-- the start-up source charges VLD (R45) -/
  sourceOn : Bool := true
  /-- the line die runs (R45) -/
  running : Bool := false
  /-- waiting for the brown-in level, without switching (R45) -/
  waitBrownIn : Bool := false
  /-- switching has begun since the start: the brown-out level applies (R45) -/
  begun : Bool := false
  /-- the 8 ms soft-start is under way (R45, R491) -/
  softStart : Bool := false
  /-- switching is to resume with a soft-start: a stop or a hold that asks for one has ended or was in force (R50, R53) -/
  softOwed : Bool := false
  /-- the converter may switch (R44) -/
  switching : Bool := false
  /-- the stops of R50 in force, no repeats -/
  stops : List StopCause := []
  /-- the hold of a STOP symbol or a SOFT-STOP is in force (R52, R53) -/
  hold : Bool := false
  /-- the loop is under secondary-side regulation (R48) -/
  ssr : Bool := false
  /-- consecutive valid RUN frames, to eight (R48) -/
  runStreak : Nat := 0
  /-- a valid downlink frame has come within 20 µs (R48) -/
  downlink : Bool := false
  /-- the beacon runs (R75) -/
  beacon : Bool := false
  /-- the link was lost and EVT 0x09 is owed once it is UP again (R66) -/
  owesTimeout : Option Word := none
  /-- peak-current demand in force, LSB 0.4 mA (R65) -/
  demand : BitVec 12 := 0
  /-- LOSS_FRAC and PLIM as the line die holds them (R86) -/
  lossFrac : BitVec 12 := 32
  plim : BitVec 12 := 96
  /-- uplink frames that wait, oldest first (R69, R75) -/
  tlmQ : List TlmFrame := []
  evtQ : List EvtFrame := []
  qaQ : List QaFrame := []
  zcQ : List ZcFrame := []
  /-- the uplink frame being sent (R69) -/
  upFlight : Option UpFrame := none
  /-- next TLM sequence number (R69) -/
  tlmSeq : BitVec 8 := 0
  /-- cycle sequence of ZC frames (R65) -/
  zcSeq : BitVec 5 := 0
  /-- last full periods, newest first, at most eight, in LCLK counts (R57) -/
  periods : List Nat := []
  /-- last half-cycle peaks of |v|, newest first, at most eight, 3.90625 mV (R57) -/
  peaks : List Nat := []
  /-- stamp of the last positive crossing, and of the last crossing of either polarity (R55, R59) -/
  lastPos : Option Word := none
  lastCross : Option Word := none
  /-- T_nom and the running peak from each crossing on, newest first, back to the last half-cycle that held a qualifying
  sample (R57, R58) -/
  lossRefs : List LossRef := []
  /-- a negative crossing has come since the last positive one (R60) -/
  negSeen : Bool := false
  /-- the half-cycle peaks since the last positive crossing were all 100 V or more (R60) -/
  halfOk : Bool := false
  /-- consecutive qualifying cycles since the loss (R60) -/
  retCycles : Nat := 0
  /-- the line is present per the line die (R58, R60) -/
  present : Bool := false
  /-- DC mode (R59) -/
  dc : Bool := false
  /-- repeats left of the last LINE_LOSS, with its stamp (R69 corner: up to three times) -/
  lossRepeat : Option (Word × Nat) := none
  /-- accepted QUIET request (R80) -/
  quiet : Option QuietReq := none
  /-- the line-die window is open (R78) -/
  quietOpen : Bool := false
  /-- the guard of R79 runs: the stamp at which the last window closed, and its length L + 2.5 µs in LCLK counts -/
  guard : Option (Word × Nat) := none
  deriving DecidableEq, Repr

/-! ## The link endpoint of the core die (PWR domain), 0x03C0–0x03FF -/

/-- The states of the core endpoint (R72). -/
inductive LinkState where
  | down | training | up | fault
  deriving DecidableEq, Repr

/-- Why the core die holds the converter with SOFT-STOP frames (R50, R443). -/
inductive CoreStop where
  | vaux | host
  deriving DecidableEq, Repr

/-- A core-side quiet window (R78, R84): the PLLA edge it opened on and the one it closes at. -/
structure CoreWindow where
  openEdge : Nat
  closeEdge : Nat
  deriving DecidableEq, Repr

/-- The link registers of R86 and the endpoint's own state. -/
structure Link where
  state : LinkState := .down
  ssr : Bool := false
  linePresent : Bool := false
  ltpEn : Bool := false
  qwDroop : Byte := 40
  tlmLost : Half := 0
  crcErr : Half := 0
  qwLast : Byte := 0
  lossFrac : Byte := 32
  plim : Byte := 96
  linePeriod : Word := 0
  zcPos : Word := 0
  zcNeg : Word := 0
  hvinV : BitVec 10 := 0
  vlinePk : BitVec 12 := 0
  ldTemp : Byte := 0
  ldFault : Byte := 0
  ldVldOv : Bool := false
  llsLast : Word := 0
  /-- cleared only by a power-on reset of the Binnacle (R86) -/
  lossCount : Half := 0
  /-- LINE_OK of the LIVE byte (R61) -/
  lineOk : Bool := false
  /-- last TLM sequence received (R70) -/
  lastTlm : Option (BitVec 8) := none
  /-- consecutive TLM frames with SSR = 1 (R72) -/
  ssrStreak : Nat := 0
  /-- the last ZC frame carried the range flag (R57) -/
  rangeSeen : Bool := false
  /-- the last TLM frame read HVIN at 440 V or more (R57) -/
  hvinHigh : Bool := false
  /-- GOODBYE has come (R73) -/
  goodbye : Bool := false
  /-- a positive ZC stamp to measure the next period from (R57) -/
  posSeen : Bool := false
  /-- largest |v| field of the half-cycle now received if it began in reception, its sign, and the last eight complete
  ones, 0.25 V (R86) -/
  halfPk : Option Nat := none
  halfSign : Option Bool := none
  pkHist : List Nat := []
  /-- instants of the discards of the last 1 ms, in periods of LNK, 20 ns (R10, R73, R170) -/
  crcTimes : List Nat := []
  /-- stamp of the loss last received: a repeat raises nothing (R61, R147) -/
  lossKey : Option Word := none
  /-- stop conditions for which REG frames carry SOFT-STOP (R50, R53, R443) -/
  stopVaux : Bool := false
  stopHost : Bool := false
  /-- an OVERRIDE frame is to be sent (R81) -/
  overrideDue : Bool := false
  /-- the core-side quiet window, and the override instant inside it (R78, R82) -/
  window : Option CoreWindow := none
  overrideAt : Option Nat := none
  /-- a locally granted window, with the link DOWN (R84) -/
  windowLocal : Bool := false
  /-- a STOP symbol is on its way; QUIET requests not yet answered; CFG frames that wait to be sent (R64, R78, R86) -/
  stopSymbolDue : Bool := false
  quietQ : List QuietReq := []
  cfgQ : List (BitVec 4 × BitVec 12) := []
  /-- QUIET frames that wait to be sent, oldest first (R68) -/
  quietDue : List QuietReq := []
  /-- L of the window last opened, in LCLK counts; the stamp of the last QA END with the guard that counts from it, in LCLK
  counts (R79, R334) -/
  quietLen : Nat := 0
  quietEnd : Option (Word × Nat) := none
  /-- REG mode and demand last due, and whether that frame waits to be sent (R68) -/
  regMode : RegMode := .run
  regDemand : BitVec 12 := 0
  regDue : Bool := false
  /-- the downlink frame being sent (R68) -/
  downFlight : Option DownFrame := none
  deriving DecidableEq, Repr

/-! ## Power path and charger, 0x0380–0x03BF -/

/-- The charger's states, coded 0 to 7 in CHG_STATE (R115). -/
inductive ChgState where
  | off | wait | pre | cc | cv | done | suspend | fault
  deriving DecidableEq, Repr

/-- The charge zones, coded 0 to 4 in TS_ZONE (R106, R115). -/
inductive TsZone where
  | cold | cool | normal | warm | hot
  deriving DecidableEq, Repr

/-- Power-path registers (R115), selector state (R87 to R93), rectifier (R94), charger (R96 to R108), VAON (R109). -/
structure Power where
  /-- SRC: the source whose switch is closed (R89) -/
  src : Option Source := none
  /-- in the gap of R89, the source whose switch has opened -/
  before : Option Source := none
  adpValid : Bool := false
  auxValid : Bool := false
  batValid : Bool := false
  adpOv : Bool := false
  chg : ChgState := .off
  zone : TsZone := .normal
  /-- CK32 edge of the latest TS result, and its temperature in 0.1 °C (R101, R106, R115) -/
  tsAt : Option Nat := none
  tsTemp : Int := 0
  chgEn : Bool := false
  srEn : Bool := true
  cells : BitVec 2 := 0
  chem : Bool := false
  vreg : Byte := 20
  ichg : Byte := 20
  ipre : Byte := 4
  iterm : Byte := 4
  tfast : BitVec 4 := 10
  tpre : BitVec 4 := 6
  batcut : Byte := 6
  bakMode : Bool := false
  ichgMeas : Half := 0
  chgFault : BitVec 5 := 0
  srcCount : Byte := 0
  srcChanged : Bool := false
  aonWasBak : Bool := false
  bakLow : Bool := false
  batCutSeen : Bool := false
  /-- safety-timer counts, in 1 ms tests (R101, R103) -/
  preMs : Nat := 0
  fastMs : Nat := 0
  /-- consecutive 1 ms tests in CV with a measured current below ITERM (R101) -/
  lowMs : Nat := 0
  /-- stopped cycle by cycle by the over-temperature of R104 -/
  hotStop : Bool := false
  /-- paused for a quiet window (R108) -/
  paused : Bool := false
  /-- CHSW released, high-impedance (R96) -/
  chswZ : Bool := true
  /-- SRG high (R94) -/
  srg : Bool := false
  /-- VAON runs from VBAK (R109) -/
  onVbak : Bool := false
  deriving DecidableEq, Repr

/-! ## The Binnacle, 0x0100–0x01FF -/

/-- How a pending commit loads (R126). -/
inductive CommitMode where
  | setr | sett
  deriving DecidableEq, Repr

/-- Calendar, staging and commit state (R116 to R132). -/
structure Cal where
  lsec : BitVec 34 := 0
  subsec : BitVec 15 := 0
  /-- edge 0 of the prescaler has passed (R120) -/
  started : Bool := false
  /-- the time before the update of the latest edge, in counts; that update was a load or a shift; its wake tick has fired
  (R139) -/
  before : Nat := 0
  jumped : Bool := false
  tickDone : Bool := false
  secS : Byte := 0x00
  minS : Byte := 0x00
  hourS : Byte := 0x00
  dayS : Byte := 0x01
  monthS : Byte := 0x01
  yearS : Byte := 0x00
  centS : Byte := 0x00
  commit : Option CommitMode := none
  shift : Option Half := none
  calRej : Bool := false
  centWrap : Bool := false
  shiftCxl : Bool := false
  xtalFail : Bool := false
  onLrc : Bool := false
  setLast : BitVec 64 := 0
  setPrev : BitVec 64 := 0
  deriving DecidableEq, Repr

/-- Trim registers and engine (R133 to R137). -/
structure Trim where
  trim : BitVec 13 := 0
  run : Bool := false
  src : Bool := false
  fnom : Bool := false
  auto : Bool := false
  cont : Bool := false
  k : BitVec 5 := 22
  count : Word := 0
  prog : BitVec 23 := 0
  calcd : BitVec 13 := 0
  clamped : Bool := false
  cause : BitVec 3 := 0
  valid : Bool := false
  /-- a measurement is armed or open; TR_RUN clears at a completion after which TR_CONT opens the next one (R135, R136) -/
  active : Bool := false
  /-- counted CK32 edges since edge 0 (R133, R134) -/
  raw : Nat := 0
  /-- position in the running trim cycle, in crystal periods, the value taken at its start, a correction deferred by a load (R132, R133) -/
  cyclePos : Nat := 0
  cycleTrim : BitVec 13 := 0
  corrOwed : Bool := false
  /-- raw count at the opening of the running measurement (R134) -/
  openRaw : Option Nat := none
  /-- cycle sequence of the last positive ZC frame, and raw count at the last PPS edge (R137) -/
  lastSeq : Option (BitVec 5) := none
  lastPps : Option Nat := none
  deriving DecidableEq, Repr

/-- One comparator (R152, R157). -/
structure Comparator where
  thr : BitVec 6 := 0
  hyst : BitVec 2 := 0
  edge : BitVec 2 := 0
  filt : BitVec 2 := 0
  out : Bool := false
  tripped : Bool := false
  deriving DecidableEq, Repr

/-- One event input (R143, R157). -/
structure EventInput where
  edge : BitVec 2 := 0
  filt : BitVec 2 := 0
  pps : Bool := false
  stamped : Bool := false
  ovr : Bool := false
  level : Bool := false
  count : Half := 0
  first : BitVec 64 := 0
  deriving DecidableEq, Repr

/-- Wake tick, square wave, SYSON, PWRKEY, grants, stamps, comparators, event inputs, scratch (R138 to R155). -/
structure BinIo where
  /-- held in power-on reset (R111) -/
  held : Bool := false
  /-- the strap measurement runs (R32) -/
  strapBusy : Bool := true
  tickSel : BitVec 5 := 8
  tickEn : Bool := false
  sqwSel : BitVec 4 := 0
  sqwEn : Bool := false
  sysonOn : Bool := false
  sysonForcedOff : Bool := false
  sysonAuto : BitVec 6 := 0x01
  pkLong : BitVec 3 := 3
  pkHardoff : Bool := true
  pkStat : BitVec 3 := 0
  pkLevel : Bool := false
  /-- W1C bits (and TRIM) that hardware has set since the latest CK32 edge, by address: a host write of the same cycle does
  not clear them (R8, R136) -/
  setNow : List (Nat × Byte) := []
  /-- edges counted since the latest CK32 edge: bit 2·n falling, bit 2·n + 1 rising of EVTn (R143) -/
  evtNow : BitVec 8 := 0
  /-- stamps that the next CK32 edge writes: a loss received, with its LCLK stamp, and the two switch-overs (R147, R150) -/
  llDue : Option Word := none
  fsoBakDue : Bool := false
  fsoBatDue : Bool := false
  rtcGrant : BitVec 3 := 0b111
  sysonGrant : BitVec 3 := 0b111
  chgGrant : BitVec 3 := 0b111
  fsoBakValid : Bool := false
  fsoBatValid : Bool := false
  llValid : Bool := false
  llStamp : BitVec 64 := 0
  llLclk : Word := 0
  fsoBak : BitVec 64 := 0
  fsoBat : BitVec 64 := 0
  cmps : Vector Comparator 4 := Vector.replicate 4 {}
  evts : Vector EventInput 4 := Vector.replicate 4 {}
  /-- the 64 bytes of 0x01C0–0x01FF, canonical, an unlisted byte reads 0 (R154) -/
  scratch : List Host.Cell := []
  deriving DecidableEq, Repr

/-! ## Power domains, wake and resets, 0x0200–0x02FF -/

/-- A switched domain: resting in a state, or changing (R158, R163). -/
inductive PdState where
  | off | ret | on
  | entering (target : Low)
  | leaving (origin : Low)
  deriving DecidableEq, Repr

/-- One switched domain. -/
structure DomSt where
  st : PdState := .off
  /-- an exit is wanted and starts as soon as it can (R159, R165) -/
  wanted : Bool := false
  /-- an entry deferred by R162, with its target -/
  deferred : Option Low := none
  deriving DecidableEq, Repr

/-- One doorbell (R181, R183). -/
structure Bell where
  pend : Bool := false
  ack : Bool := false
  cnt : Byte := 0
  deriving DecidableEq, Repr

/-- The power-domain page (R185), and the reset and wake machinery. -/
structure Domains where
  cpu : DomSt := {}
  memM : DomSt := {}
  memB : DomSt := {}
  log : DomSt := {}
  gauge : DomSt := {}
  pwr : DomSt := {}
  hif : DomSt := {}
  /-- CPU_UP of the LIVE byte (R194) -/
  cpuUp : Bool := false
  /-- PAD_HELD: 0 PWR, 1 GAUGE, 2 LOG, 3 HIF -/
  padHeld : BitVec 4 := 0
  rstCause : BitVec 4 := 0x1
  rstHist : Byte := 0x01
  pdLow : BitVec 12 := 0x555
  wakeFlags : Word := 0
  wakeLast : Word := 0
  wakePend : Word := 0
  wakeEn : Word := 0x0003F000
  keepA : BitVec 3 := 0
  keepB : BitVec 3 := 0
  keepW : BitVec 3 := 0
  /-- IDLE_MEMM, IDLE_MEMB, IDLE_LOG, IDLE_GAUGE, IDLE_PWR, IDLE_HIF -/
  idle : Vector Byte 6 := Vector.replicate 6 0
  bind : Byte := 0xFF
  /-- firmware has requested PLLC since the CPU started (R170) -/
  pllcReq : Bool := false
  pllcLock : Bool := false
  xo16Fail : Bool := false
  cpuOnPllc : Bool := false
  bells : Vector Bell 4 := Vector.replicate 4 {}
  /-- rings accepted and not yet taken, in their order (R278) -/
  ringOrder : List (Fin 4) := []
  /-- a reset that has occurred and is not yet released, by its code (R178) -/
  resetCode : Option (BitVec 4) := none
  /-- the NRST pad is low (R27) -/
  nrstLow : Bool := false
  /-- VSYS has risen to 2.80 V and not fallen below 2.60 V since (R176) -/
  vsysUp : Bool := true
  /-- a deferred entry of PWR met a link that was UP: it waits until the link is DOWN (R49) -/
  pwrUntilDown : Bool := false
  /-- EV80 is owed once HIF is ON (R179) -/
  sysResetOwed : Bool := true
  /-- a link-fault reset was made and the link has not been UP since (R74) -/
  linkResetDone : Bool := false
  /-- the beacon detector: latched, and consecutive periods with a burst (R76) -/
  beaconLatch : Bool := false
  /-- the firmware wake timer is armed (R172, R442) -/
  fwTimer : Bool := false
  deriving DecidableEq, Repr

/-! ## SPI port and identity page -/

/-- An RS block or RC field captured by a transfer (R1): its base address, its captured bytes, and for an RC field the
bytes completed so far. -/
structure Capture where
  base : Nat
  bytes : List Byte
  rc : Bool
  done : Nat
  deriving DecidableEq, Repr

/-- What a transfer has done so far (R186 to R192, R209). -/
structure Xfer where
  port : Port
  mode3 : Bool := false
  /-- the opcode byte once it is complete (R188) -/
  opcode : Option Byte := none
  /-- next address of a READ or WRITE -/
  cursor : Option Half := none
  /-- bytes driven on MISO, or sent on HSDA, oldest first -/
  sent : List Byte := []
  /-- the bytes of the latest snapshot that are still to be driven (R189) -/
  snap : List Byte := []
  /-- register bytes written in this transfer, newest first (R191) -/
  wrote : List (Nat × Byte) := []
  caps : List Capture := []
  /-- a refusal under check 2 has been recorded (R199) -/
  accOff : Bool := false
  /-- berths against which this transfer has been logged (R285) -/
  av : BitVec 4 := 0
  deriving DecidableEq, Repr

/-- Chip selects, the transfer in progress and the identity-page records (R186 to R206). -/
structure Spi where
  vddio : Bool := true
  csA : Bool := false
  csB : Bool := false
  /-- both chip selects are ignored until both are high (R202) -/
  clash : Bool := false
  /-- the falls made while the port was unusable are ignored for their whole low period (R27) -/
  deafA : Bool := false
  deafB : Bool := false
  xfer : Option Xfer := none
  /-- the bytes of the last transfer that ended, as driven on MISO -/
  miso : List Byte := []
  /-- the byte at 0x0008: ACC_OFF_A/B/W, CS_CLASH, PARTIAL_A/B, BADOP_A/B -/
  flags : Byte := 0
  accAddr : Half := 0
  accPort : BitVec 2 := 0b11
  clashCnt : Byte := 0
  deriving DecidableEq, Repr

/-! ## Two-wire channels, 0x0500–0x053F -/

/-- The host channel's part in the transaction on the bus (R209, R224, R226, R227). -/
inductive TwPhase where
  | idle      -- no transaction addressed to the module
  | ignored   -- ignored until STOP
  | stretched -- acknowledged by the matcher, HSCL held low until HIF takes over
  | active    -- addressed to the module, with HIF running
  deriving DecidableEq, Repr

/-- A probe transfer in progress (R238). -/
structure ProbeOp where
  berth : Fin 4
  write : Bool
  head : Nat
  /-- memory address, sent in two bytes when `wide`; the bytes of a page write, the number read -/
  addr : Nat
  wide : Bool
  data : List Byte := []
  count : Nat
  /-- the page write is done and acknowledge polling runs -/
  polling : Bool := false
  /-- its START falls inside a quiet window and waits for the closing (R240) -/
  held : Bool := false
  deriving DecidableEq, Repr

/-- The two-wire registers (R244), the matcher and the controller logic (R207 to R241). -/
structure Tw where
  addr : BitVec 7 := 0
  /-- TW_CFG: SLEEP_MODE, PEC_REQ, SBS_FAST -/
  sleepAsync : Bool := false
  pecReq : Bool := false
  sbsFast : Bool := false
  stat : Byte := 0
  ptr : Half := 0
  rlen : Byte := 16
  protoCause : BitVec 3 := 0
  pecCnt : Byte := 0
  tlowCnt : Byte := 0
  arbCnt : Byte := 0
  recovCnt : Byte := 0
  sbsCause : BitVec 3 := 0
  pbSpeed : BitVec 2 := 0b01
  pbFilt : BitVec 3 := 0b010
  pbCause : BitVec 3 := 0
  pbFail : Bool := false
  pbRecovCnt : Byte := 0
  /-- head memories with a 2-byte address, and page sizes, as PROBE_CFG sets them (R458) -/
  pbWidth : BitVec 4 := 0
  pbPage : Byte := 0
  /-- the levels of the two lines as the rest of the bus leaves them (R244) -/
  hscl : Bool := true
  hsda : Bool := true
  busy : Bool := false
  phase : TwPhase := .idle
  /-- the transaction's first address byte carried the read bit (R212) -/
  readFirst : Bool := false
  /-- the last byte of the transaction was acknowledged by the module -/
  acked : Bool := false
  /-- bytes the module sent in the last read phase -/
  sent : List Byte := []
  /-- a smart-battery read waits for the bus, runs, and its attempts so far (R229, R230) -/
  sbsPending : Bool := false
  sbsActive : Bool := false
  sbsTries : Nat := 0
  /-- the bus is free for that read, and its START falls inside a quiet window (R240) -/
  startHeld : Bool := false
  probe : Option ProbeOp := none
  /-- PSDA is stuck low after a recovery that failed (R235, R241) -/
  pbStuck : Bool := false
  deriving DecidableEq, Repr

/-! ## Events, 0x0400–0x04FF -/

/-- The event controller and the raise latch (R301 to R314). -/
structure Events where
  /-- ROUTE entries, event e at index e -/
  route : Vector (BitVec 4) 96 := Vector.replicate 96 0
  routeOk : Bool := false
  irqModeA : Bool := false
  irqModeB : Bool := false
  irqSel : Byte := 0
  raised : BitVec 96 := 0
  wakeEn : BitVec 96 := 0
  pend : Vector (BitVec 96) 4 := Vector.replicate 4 0
  ien : Vector (BitVec 96) 4 := Vector.replicate 4 0
  merged : Vector Byte 4 := Vector.replicate 4 0
  /-- events to be raised when HIF next reaches ON (R199, R227) -/
  late : BitVec 96 := 0
  /-- pin levels latched by the hold of HIF (R167): asserted A, asserted B; and the pins then in push-pull mode -/
  heldIrq : BitVec 2 := 0
  heldPush : BitVec 2 := 0
  deriving DecidableEq, Repr

/-! ## Berths and mailboxes -/

/-- A request that passed checks 1 to 8 of R273 and waits to be executed or answered. -/
structure Request where
  cmd : Half
  seq : Byte
  flags : Byte
  payload : List Byte
  /-- its MAC was verified, under this MAC_CTR (R266, R268) -/
  mac : Bool
  ctr : Word
  /-- the whole frame, for R274 -/
  frame : List Byte
  /-- accepted: passed checks 1 to 6 -/
  accepted : Bool := true
  /-- executed, and its answer waits for a later instant (a load, a durable image, a transfer) -/
  waiting : Bool := false
  /-- its place in the order in which firmware took requests (R278) -/
  turn : Nat := 0
  /-- another berth's flash write was in progress while this request was in hand (R429) -/
  held : Bool := false
  deriving DecidableEq, Repr

/-- The berth control block (R300) and what firmware keeps for the berth. -/
structure Berth where
  ringWr : Byte := 0
  ringRd : Byte := 0
  ringThr : Byte := 1
  ringOvfCnt : Byte := 0
  respRdy : Bool := false
  reqLock : Bool := false
  ringOvf : Bool := false
  sealed : Bool := false
  macLock : Bool := false
  pecReq : Bool := false
  charterPend : Bool := false
  lastSeq : Byte := 0
  lastStatus : Byte := 0
  macCtr : Word := 0
  rights : Half := 0
  logUsed : Half := 0
  memUsed : Byte := 0
  /-- LAST_SEQ is defined (R273) -/
  seqKnown : Bool := false
  /-- consecutive MAC_FAIL answers (R272) -/
  macFails : Nat := 0
  /-- no epoch is left under the berth's key (R270) -/
  noEpoch : Bool := false
  /-- records produced since MEM_B entered OFF, low 8 bits (R280) -/
  rseq : Byte := 0
  /-- a record was dropped since the last stored one (R281) -/
  gap : Bool := false
  /-- last accepted request and its stored response (R274) -/
  lastFrame : List Byte := []
  stored : Option (List Byte) := none
  cur : Option Request := none
  /-- HOLD_ON mask of PD_POLICY: 0 MEM_M, 1 GAUGE, 2 PWR (R441) -/
  holdOn : BitVec 3 := 0
  /-- Log time charged in the present window, in TDC LSB of 7.8125 ps (R251, R327) -/
  logTime : Nat := 0
  deriving DecidableEq, Repr

/-- The access-violation log (R285, R299). -/
structure AvLog where
  stat : BitVec 4 := 0
  cnt : Vector Byte 4 := Vector.replicate 4 0
  addr : Half := 0
  port : BitVec 2 := 0b11
  berth : BitVec 2 := 0
  kind : BitVec 2 := 0
  deriving DecidableEq, Repr

/-- The four berths, the memory of MEM_B and the violation log. -/
structure Berths where
  blk : Vector Berth 4 := Vector.replicate 4 {}
  /-- mailboxes at 0x1000 + 0x400·n and rings at 0x2000 + 0x1000·n: canonical, an unlisted byte reads 0 (R158) -/
  mem : List Host.Cell := []
  av : AvLog := {}
  deriving DecidableEq, Repr

/-! ## Flash -/

/-- One entry of a charter (R248). -/
structure Entry where
  port : BitVec 2 := 0b11
  sealed : Bool := false
  pecReq : Bool := false
  rights : Half := 0
  logQuota : Half := 0
  memQuota : Byte := 0
  sealStamp : BitVec 64 := 0
  sealAudit : Word := 0
  key : List Byte := List.replicate 32 0
  deriving DecidableEq, Repr

/-- A charter: its serial and the entries of B0 to B3 (R248). -/
structure Charter where
  serial : Word
  entries : Vector Entry 4
  deriving DecidableEq, Repr

/-- A logbook entry (R292). -/
structure LogEntry where
  eseq : Word
  kind : Byte
  berth : Byte
  used : Half
  stamp : BitVec 64
  data : List Byte
  deriving DecidableEq, Repr

/-- A learned arrival template (R343): h, the index of its origin, the cycle-peak pattern and D_env in 2⁻¹⁶ ns. -/
structure Template where
  h : List Cx
  j0 : Nat
  pattern : List Nat
  dEnv : Int
  deriving DecidableEq, Repr

/-- One item of the configuration store: its bytes and the berth that held its right when it was written (R296). -/
structure Item where
  berth : Fin 4
  bytes : List Byte
  deriving DecidableEq, Repr

/-- The store's items of one path (R296). -/
structure PathItems where
  ports : Option Item := none
  acq : Option Item := none
  flow : Option Item := none
  card : Option Item := none
  fluid : Option Item := none
  template : Option (Fin 4 × Template) := none
  leeway : Option (Fin 4 × Int) := none
  deriving DecidableEq, Repr

/-- An image of the configuration store (R296, R297). -/
structure StoreImage where
  seq : Nat
  a : PathItems := {}
  b : PathItems := {}
  rtd : Option Item := none
  trim : Option Item := none
  deriving DecidableEq, Repr

/-- A firmware bank (R287, R456). -/
structure Bank where
  valid : Bool
  release : List Byte
  secVer : Half
  deriving DecidableEq, Repr

/-- Everything flash holds (R287). A charter copy is its bytes, none where it is erased; a store copy that is not valid is
`none`. -/
structure Flash where
  charterA : List Byte := []
  charterB : List Byte := []
  /-- durable logbook entries, oldest first -/
  logbook : List LogEntry := []
  storeA : Option StoreImage := none
  storeB : Option StoreImage := none
  auditCtr : Word := 0
  /-- for each berth, the highest epoch issued under each key it has had (R270) -/
  epochs : Vector (List (List Byte × Nat)) 4 := Vector.replicate 4 []
  bankA : Bank
  bankB : Bank
  /-- bank B is the active one; the bank chosen for the next start; the highest version ever activated -/
  activeB : Bool := false
  nextB : Bool := false
  topSecVer : Half
  /-- the new image has not yet confirmed itself; the release that ran before it (R290) -/
  trial : Bool := false
  prior : List Byte := []
  deriving DecidableEq, Repr

/-! ## The Log engine -/

/-- The rate and hold states of a path are in R356 and R369. -/
inductive HoldState where
  | normal | hold | invalid
  deriving DecidableEq, Repr

/-- A total with the remainder it carries, in 1/32,768 of its unit (R368). -/
structure Total where
  val : Nat := 0
  rem : Nat := 0
  deriving DecidableEq, Repr

/-- The totals of one path (R368). -/
structure Totals where
  volFwd : Total := {}
  volRev : Total := {}
  eHeat : Total := {}
  eCool : Total := {}
  missFlow : Total := {}
  missHeat : Total := {}
  deriving DecidableEq, Repr

/-- The kinds of calibration (R429). -/
inductive CalKind where
  | learn | leeway
  deriving DecidableEq, Repr

/-- The latest calibration of a path, as CAL_RESULT reports it (R451). -/
structure CalOutcome where
  kind : CalKind
  stored : Bool
  valid : Nat
  value : Int
  deriving DecidableEq, Repr

/-- An instant as a TIME field states it, in 1/32,768 s, and the CK32 edge it stands for (R350, R368, R369). -/
structure Inst where
  units : Nat
  edge : Nat
  deriving DecidableEq, Repr

/-- The input legs of the LNA (R323). -/
inductive Leg where
  | leg0 | leg1
  deriving DecidableEq, Repr

/-- A transducer port: its H-bridge driver, its T/R switch and its termination (R315, R317, R321). `z` is TERM_Z. -/
inductive PortSt where
  /-- driver off, T/R switch open, on the PD resistor -/
  | rest
  /-- the driver makes the burst that began at the last fire edge, inverted or not -/
  | driving (inverted : Bool) (z : BitVec 2)
  /-- both low-side switches on in series with TERM_Z -/
  | held (z : BitVec 2)
  /-- the T/R switch connects the port to a leg of the LNA, at the same impedance -/
  | receiving (leg : Leg) (z : BitVec 2)
  deriving DecidableEq, Repr

/-- A credited or missing interval of flow, in CK32 edges, for the mean of R390. -/
structure Span where
  fromEdge : Nat
  toEdge : Nat
  q : Option Int
  deriving DecidableEq, Repr

/-- One path of the Log engine. -/
structure PathSt where
  portA : Fin 4
  portB : Fin 4
  /-- the blocks of R355, R393, R395 and R396 as their bytes -/
  acq : List Byte
  flow : List Byte
  card : List Byte
  fluid : List Byte
  /-- an acquisition block, a flow block has been accepted or loaded (R297, R451) -/
  acqOk : Bool := false
  flowOk : Bool := false
  template : Option Template := none
  /-- 2⁻¹⁶ ns (R365) -/
  leeway : Int := 0
  flowing : Bool := false
  /-- consecutive valid soundings above V_DET (R357) -/
  detCount : Nat := 0
  /-- the quiet window of R358 is open -/
  quietOpen : Bool := false
  /-- due times, in CK32 edges (R356) -/
  lastDue : Rat := 0
  nextDue : Rat := 0
  /-- a due sounding waits, its due time, and it waits for a conversion (R357, R375, R376) -/
  due : Bool := false
  dueAt : Rat := 0
  delayed : Bool := false
  snum : Word := 0
  /-- PGA setting of the next sounding, 0.5 dB (R324, R325) -/
  gain : Nat := 60
  /-- velocities of valid soundings, newest first, m/s (R364) -/
  history : List Rat := []
  /-- the last sounding instant (R368) -/
  tPrev : Option Inst := none
  hold : HoldState := .normal
  /-- last reported Q, µL/s, and the instant of the last valid sounding (R369) -/
  lastQ : Int := 0
  lastVel : Int := 0
  lastValid : Option Inst := none
  totals : Totals := {}
  /-- stamp of the entry the totals were restored from: the time since then is missing (R387) -/
  missFrom : Option (BitVec 64) := none
  /-- the freshness window of the latest RTD set is open (R382) -/
  rtdFresh : Bool := false
  spans : List Span := []
  /-- tracking estimates: up, swapped, t_a in 2⁻¹⁶ ns, edge (R346) -/
  tracks : List (Bool × Bool × Int × Nat) := []
  /-- DTOF and TOF_MEAN of the last sounding, 2⁻¹⁶ ns (R349) -/
  lastDtof : Option Int := none
  lastTof : Option Int := none
  lastCal : Option CalOutcome := none
  deriving DecidableEq, Repr

/-- A shot judged (R342, R350, R352). A figure that the checks did not reach is `none`: the manual states no value. -/
structure ShotResult where
  idx : Nat
  up : Bool
  swapped : Bool
  cause : Nat
  /-- TOF in 2⁻¹⁶ ns, 0 if invalid -/
  tof : Int := 0
  /-- t_a in 2⁻¹⁶ ns -/
  ta : Int := 0
  a1 : Option Nat := none
  a2 : Nat := 0
  snr : Option Nat := none
  rho : Option Nat := none
  mu : Option Nat := none
  launch : Option Nat := none
  multipath : Bool := false
  noisy : Bool := false
  trunc : Bool := false
  trackReset : Bool := false
  deriving DecidableEq, Repr

/-- The shot in progress (R318 to R335). -/
structure Shot where
  /-- PLLA fire edge -/
  fire : Option Nat := none
  /-- stamp and CK32 edge of the fire edge, for TIME (R350) -/
  stamp : BitVec 64 := 0
  edge : Nat := 0
  /-- PLLA edge at which the shot's QUIET frame was started (R331) -/
  asked : Option Nat := none
  /-- the tag of that frame, and the request was refused (R333) -/
  tag : Option (BitVec 3) := none
  refused : Bool := false
  /-- launch offset d in TDC LSB; none when the conversion overflowed (R329) -/
  launch : Option Nat := none
  /-- PLLA edge at which the capture opened, and the samples it takes (R332) -/
  capture : Option (Nat × Nat) := none
  deriving DecidableEq, Repr

/-- The sounding in progress, or a pair of shots of an arrival learn. -/
structure Sounding where
  path : Path
  cal : Option CalKind := none
  delayed : Bool := false
  snum : Word
  /-- its due time, in CK32 edges (R357) -/
  due : Rat := 0
  /-- the ports of its path (R316) -/
  portA : Fin 4
  portB : Fin 4
  gain : Nat
  /-- the configuration in force: a sounding completes under its old configuration -/
  acq : List Byte
  flow : List Byte
  card : List Byte
  fluid : List Byte
  template : Option Template
  leeway : Int
  shots : List ShotResult := []
  firstStamp : BitVec 64 := 0
  firstEdge : Nat := 0
  shot : Shot := {}
  deriving DecidableEq, Repr

/-- A running calibration (R343, R365, R429). -/
structure Calibration where
  kind : CalKind
  path : Path
  berth : Fin 4
  /-- DTOF of each valid sounding so far, and the soundings made; of a learn, the shots made -/
  dtofs : List Int := []
  made : Nat := 0
  /-- the captures of a learn's valid shots, newest first (R343) -/
  learned : List (List (BitVec 14)) := []
  deriving DecidableEq, Repr

/-- One input's result in an RTD set (R373, R374): T in 0.1 mK, R and offset in 0.1 mΩ, times in TDC LSB. -/
structure RtdResult where
  temp : Option Int
  res : Option Int
  t : Option Nat
  tref : Option Nat
  cause : Nat
  deriving DecidableEq, Repr

/-- An RTD set that is due or running (R373, R375): the conversions left (4 is TREF), the times so far. -/
structure RtdSet where
  /-- the RTD block in force when the set fell due -/
  blk : List Byte
  left : List (Fin 5)
  done : List (Fin 5 × Option Nat) := []
  running : Bool := false
  /-- CK32 edge from which the waiting conversion's age is measured -/
  since : Nat
  deriving DecidableEq, Repr

/-- The Log engine (ch. 10 and 11). -/
structure Log where
  a : PathSt
  b : PathSt
  /-- the RTD block of R394 as its bytes -/
  rtdBlk : List Byte
  rtdOwner : Option (Fin 4) := none
  cur : Option Sounding := none
  cal : Option Calibration := none
  rtd : Option RtdSet := none
  /-- the latest set's results, and its number (R382, R392) -/
  rtdLast : List (Fin 4 × RtdResult) := []
  rtdSetNo : Word := 0
  /-- the drive pump runs (R33) -/
  pump : Bool := false
  /-- PLLA edge of the last fire edge (R334) -/
  lastFire : Option Nat := none
  /-- the four transducer ports (R315) -/
  ports : Vector PortSt 4 := Vector.replicate 4 .rest
  /-- tag of the next QUIET frame -/
  quietTag : BitVec 3 := 0
  deriving DecidableEq, Repr

/-! ## The gauge, 0x0300–0x037F -/

/-- The states of a capacity learn (R409). -/
inductive LearnState where
  | none | pending | opened
  deriving DecidableEq, Repr

/-- The gauge page (R423), its configuration and the windows of R406 to R415. -/
structure Gauge where
  acc : Int := 0
  iLast : Int := 0
  convCnt : Word := 0
  /-- the reckoned SoC before the clamp of R400 -/
  soc : Int := 0
  stateValid : Bool := false
  restored : Bool := false
  restMet : Bool := false
  ovr : Bool := false
  tsOpen : Bool := false
  tsShort : Bool := false
  /-- levels held: bit 0 WARN, 1 LOW, 2 CRIT (R413, R414) -/
  levels : BitVec 3 := 0
  /-- a telemetry result has been taken since the level was entered (R414) -/
  levelTlm : BitVec 3 := 0
  eoc : Bool := false
  learn : LearnState := .none
  lastDisq : BitVec 4 := 0
  accA : Int := 0
  socA : BitVec 16 := 0
  socK : Word := 0
  qFull : BitVec 16 := 2000
  learnCnt : BitVec 16 := 0
  saveSeq : Word := 0
  vcell : BitVec 16 := 0
  tpack : Int := 0
  /-- the configuration block of R424 as its bytes -/
  cfg : List Byte
  /-- the OCV profiles of R425 as their bytes -/
  prof0 : Option (List Byte) := none
  prof1 : Option (List Byte) := none
  /-- the rest window: CONV_CNT at its opening; whether the last conversion was quiet; a fix attempt just came (R406) -/
  restOpen : Option Nat := none
  lastQuiet : Option Bool := none
  afterFix : Bool := false
  restTime : BitVec 16 := 0
  /-- ACC at the conversion end that set REST_MET (R408) -/
  restAcc : Int := 0
  /-- the learn's anchor, its opening, and the sums it is judged by (R409 to R412) -/
  anchorSoc : Int := 0
  anchorAcc : Int := 0
  openConv : Nat := 0
  absSum : Nat := 0
  busyConv : Nat := 0
  chgStart : Bool := false
  /-- discharged charge since new, mAh, with its remainder in LSB; the latest applied fix (R417) -/
  dchgTotal : Word := 0
  dchgRem : Nat := 0
  fixLsec : Word := 0
  fixSoc : BitVec 16 := 0
  fixTemp : Int := 0
  deriving DecidableEq, Repr

/-! ## Firmware -/

/-- A charter being staged, and the berths whose staged key is incomplete (R438, R439). -/
structure Staged where
  entries : Vector Entry 4
  incomplete : BitVec 4 := 0
  /-- bytes 0–8 of the request that staged the first part of a key, per berth -/
  parts : List (Fin 4 × List Byte) := []
  deriving DecidableEq, Repr

/-- A firmware update in progress (R288). -/
structure Update where
  len : Nat
  image : List Byte := []
  verified : Bool := false
  deriving DecidableEq, Repr

/-- A write of the configuration store that is not yet durable (R297). -/
structure StoreWrite where
  image : StoreImage
  /-- the berth whose command or calibration writes -/
  berth : Fin 4
  /-- its command is answered when the image is durable -/
  answer : Bool
  /-- it is the erasure of an unseal of this berth (R260) -/
  erases : Option (Fin 4) := none
  deriving DecidableEq, Repr

/-- A record that firmware has decided and not yet written (R280, R281). -/
structure Rec where
  berth : Fin 4
  stamp : BitVec 64
  type : Byte
  path : Byte
  rflags : Byte
  payload : List Byte
  deriving DecidableEq, Repr

/-- What firmware restores of the event controller after HIF was OFF (R168, R303, R314). -/
structure HifSave where
  route : Vector (BitVec 4) 96
  irqModeA : Bool
  irqModeB : Bool
  irqSel : Byte
  ien : Vector (BitVec 96) 4
  deriving DecidableEq, Repr

/-- DESIGN CHOICE (log 56): the trim policy in force where none is stored: source off, k 22 as TR_K's reset value. -/
def trimReset : List Byte := [0, 0, 22]

/-- Firmware's own state: the active charter, policies, pending flash writes, update, power-fail save. -/
structure Firmware where
  /-- the firmware has started and takes requests (R246) -/
  started : Bool := false
  /-- a reset other than wake-from-off has come since the last start (R270, R273, R387) -/
  coldStart : Bool := true
  /-- that reset was a watchdog or lockup reset (R290) -/
  badReset : Bool := false
  charter : Charter
  /-- the active charter is the default of R256 -/
  isDefault : Bool := true
  /-- the active charter is the copy in charterB -/
  activeCopyB : Bool := false
  /-- serial of a committed charter awaiting activation (R255) -/
  committed : Option Charter := none
  staged : Option Staged := none
  /-- logbook entries decided and not yet durable, oldest first (R294) -/
  logQ : List LogEntry := []
  /-- writes of the configuration store that are not yet durable, oldest first (R297) -/
  storeQ : List StoreWrite := []
  /-- records that wait for MEM_B or for firmware, oldest first (R281) -/
  recQ : List Rec := []
  /-- requests taken since the module was made (R278) -/
  turns : Nat := 0
  /-- a berth's RESET waits for its totals entries (R488) -/
  resetWait : Option (Fin 4) := none
  /-- a firmware-request reset is scheduled (R289, R434) -/
  resetDue : Bool := false
  update : Option Update := none
  /-- probation of R290 runs -/
  probation : Bool := false
  hifSave : Option HifSave := none
  trimPolicy : List Byte := trimReset
  /-- a trim measurement is to be restarted once the aborting condition has ended (R446) -/
  trimRestart : Bool := false
  pfArmed : Bool := false
  pfLoss : Bool := false
  deriving DecidableEq, Repr

/-! ## Reset values of the blocks that have a table of their own -/

/-- The acquisition block's reset values (R355). -/
def acqReset : List Byte :=
  [0xE8, 0x03, 0x48, 0xA0, 60, 32, 0x80, 0x0C, 0x00, 0x00, 0x00, 0x01, 0x00, 0x08, 32, 24,
   24, 5, 40, 243, 90, 10, 100, 0, 3, 4, 0, 0, 0, 0, 0, 0]

/-- The flow block's reset values (R393); LEEWAY is kept apart and reads as 0 here. -/
def flowReset : List Byte :=
  [0xA0, 0x86, 0x01, 0x00, 0, 0, 0, 0, 0, 0, 0, 0, 0, 0, 0, 0, 0x14, 0xEE, 0x01, 5, 10, 0, 40, 0,
   16, 30, 0x10, 30, 0xE8, 0x03, 0x00, 0x01, 0, 0, 0, 0, 20, 0, 0, 0, 0, 0, 0, 0, 0, 0, 0, 0]

/-- The RTD block's reset values (R394). -/
def rtdReset : List Byte :=
  [0, 0xAA, 0x40, 0x42, 0x0F, 0x00, 4, 25, 0, 0, 0, 0, 0, 0, 0, 0]

/-- DESIGN CHOICE (log 12): the manual gives the deviation card no reset table; a card of no points, with its CRC-32. -/
def cardReset : List Byte := List.replicate 68 0 ++ [0xAD, 0x6E, 0xD7, 0x10]

/-- DESIGN CHOICE (log 12): the manual gives the fluid block no reset table; every coefficient 0. -/
def fluidReset : List Byte := List.replicate 52 0

/-- The gauge configuration block's reset values (R424). -/
def gaugeCfgReset : List Byte :=
  [0x09, 0, 0x10, 0x27, 0xD0, 0x07, 50, 0, 0x08, 0x07, 15, 7, 3, 98, 0xAC, 0x0D, 0x16, 0x0D, 0x80, 0x0C,
   0x6B, 0x0D, 0, 0, 10, 96, 10, 3, 0, 0, 0, 0]

/-- A path with its reset values and the given ports (R316, R355, R393). -/
def PathSt.fresh (portA portB : Fin 4) : PathSt :=
  { portA, portB, acq := acqReset, flow := flowReset, card := cardReset, fluid := fluidReset }

/-- The Log engine with no configuration loaded (R297: items absent take their reset values). -/
def Log.fresh : Log := { a := PathSt.fresh 0 1, b := PathSt.fresh 2 3, rtdBlk := rtdReset }

/-- The gauge as GAUGE ON from OFF finds it (R402, R423, R424). -/
def Gauge.fresh : Gauge := { cfg := gaugeCfgReset }

/-- The ROUTE entries after their reset (R286, R308): EV48 to EV63 fixed, every other entry 0. -/
def routeReset : Vector (BitVec 4) 96 :=
  Vector.ofFn fun (e : Fin 96) =>
    if 48 ≤ e.val ∧ e.val < 64 then
      (1#4 <<< (e.val % 4)) ||| (if 52 ≤ e.val ∧ e.val < 56 then 0b0010#4 else 0)
    else 0

/-- The rights of B1 in the default charter: every right, bits 13:0 (R249, R256). -/
def everyRight : Half := 0x3FFF

/-- The default charter (R256). -/
def defaultCharter : Charter where
  serial := 0
  entries := #v[{ port := 0b11 },
    { port := 0b00, rights := everyRight, logQuota := 1000, memQuota := 48 },
    { port := 0b10, rights := 0x1000 },
    { port := 0b01 }]

/-- Flash as the module leaves Eolimi (R482). DESIGN CHOICE (log 13): the release and security version of the shipped
image, which the manual bounds only by "3.2 or later" (R14). -/
def Flash.shipped : Flash where
  bankA := { valid := true, release := [3, 2, 0, 0], secVer := 1 }
  bankB := { valid := false, release := [0, 0, 0, 0], secVer := 0 }
  topSecVer := 1

/-- Firmware before its first start: the default charter stands, since neither copy is valid (R256, R482). -/
def Firmware.fresh : Firmware := { charter := defaultCharter }

/-! ## The whole module -/

/-- The state of the VX4620, with the queue of commands that wait. DESIGN CHOICE (log 4). -/
structure State where
  line : LineDie
  link : Link
  power : Power
  cal : Cal
  trim : Trim
  bin : BinIo
  dom : Domains
  spi : Spi
  tw : Tw
  ev : Events
  berths : Berths
  flash : Flash
  log : Log
  gauge : Gauge
  fw : Firmware
  /-- counter of the free values taken so far: the model's own, not the manual's -/
  free : Nat
  pending : List Instr
  deriving DecidableEq, Repr

/-- The module right after a power-on reset of the Binnacle (R111, R120, R177, R178, R482): every switched domain OFF,
RST_CAUSE 0x1, the strap measurement running, the line die not started, flash as shipped, nothing in the queue. -/
def State.reset : State where
  line := {}
  link := {}
  power := {}
  cal := {}
  trim := {}
  bin := {}
  dom := {}
  spi := {}
  tw := {}
  ev := { route := routeReset }
  berths := {}
  flash := Flash.shipped
  log := Log.fresh
  gauge := Gauge.fresh
  fw := Firmware.fresh
  free := 0
  pending := []

end Sys2Proof.Machine
end

