-- ==== Sys2Proof/Machine/Time.lean ====
section
/-! DEFINITION. The calendar as a view of LSEC (R116 to R119), the staged time and its check (R127), and stamps
(R140, R141). -/

namespace Sys2Proof.Machine

/-- Seconds of the 400-year cycle (R116, R118). -/
def cycleSeconds : Nat := 12622780800

/-- Leap years, counted from 2000 (R117). -/
def isLeap (y : Nat) : Bool := y % 4 == 0 && y != 100 && y != 200 && y != 300

/-- Days from 2000-01-01 to the first of January of year 2000 + y, for y to 400 (R117). -/
def daysBeforeYear (y : Nat) : Nat := 365 * y + (y + 3) / 4 - (y - 1) / 100

/-- The lengths of the months of year 2000 + y (R117). -/
def monthLengths (y : Nat) : List Nat :=
  [31, if isLeap y then 29 else 28, 31, 30, 31, 30, 31, 31, 30, 31, 30, 31]

/-- The length of month `m` (1 to 12) of year 2000 + y; 0 for any other `m`. -/
def monthLength (y m : Nat) : Nat := if m = 0 then 0 else (monthLengths y).getD (m - 1) 0

/-- Days before month `m` in year 2000 + y. -/
def daysBeforeMonth (y m : Nat) : Nat := ((monthLengths y).take (m - 1)).sum

/-- A date and time, the year counted from 2000, the rest in ordinary numbers. -/
structure Date where
  year : Nat
  month : Nat
  day : Nat
  hour : Nat
  min : Nat
  sec : Nat
  deriving DecidableEq, Repr

/-- The year that holds day `d` of the cycle: a first guess, corrected by one year either way. -/
def yearOfDay (d : Nat) : Nat :=
  let y := d * 400 / 146097
  if d < daysBeforeYear y then y - 1 else if daysBeforeYear (y + 1) ≤ d then y + 1 else y

/-- Month and day of month from the day of the year, over the lengths of the months left. -/
def monthOfDay : List Nat → Nat → Nat → Nat × Nat
  | [], m, d => (m, d + 1)
  | l :: ls, m, d => if d < l then (m, d + 1) else monthOfDay ls (m + 1) (d - l)

/-- The date of a second of the cycle (R116). -/
def dateOf (lsec : Nat) : Date :=
  let d := lsec / 86400
  let r := lsec % 86400
  let y := yearOfDay d
  let (m, dd) := monthOfDay (monthLengths y) 1 (d - daysBeforeYear y)
  ⟨y, m, dd, r / 3600, r % 3600 / 60, r % 60⟩

/-- The second of the cycle of a date (R116, R129). -/
def lsecOf (t : Date) : Nat :=
  (daysBeforeYear t.year + daysBeforeMonth t.year t.month + (t.day - 1)) * 86400 + t.hour * 3600 + t.min * 60 + t.sec

/-- DOW, 1 Monday to 7 Sunday; 2000-01-01 is a Saturday (R119). -/
def dowOf (lsec : Nat) : Nat := (lsec / 86400 + 5) % 7 + 1

/-- Two decimal digits as BCD (R116). -/
def bcd (n : Nat) : Byte := BitVec.ofNat 8 (n / 10 % 10 * 16 + n % 10)

/-- The number a BCD byte stands for. -/
def unbcd (b : Byte) : Nat := b.toNat / 16 * 10 + b.toNat % 16

/-- Both nibbles are 0–9 (R127). -/
def isBcd (b : Byte) : Bool := b.toNat / 16 ≤ 9 && b.toNat % 16 ≤ 9

/-- The date in the staging block (R125, R129). -/
def Cal.staged (c : Cal) : Date :=
  ⟨c.centS.toNat % 4 * 100 + unbcd c.yearS, unbcd c.monthS, unbcd c.dayS, unbcd c.hourS, unbcd c.minS, unbcd c.secS⟩

/-- The check of R127 on the staged block as a whole, on the stored bits, reserved ones included. -/
def Cal.stagedOk (c : Cal) : Bool :=
  isBcd c.secS && isBcd c.minS && isBcd c.hourS && isBcd c.dayS && isBcd c.monthS && isBcd c.yearS &&
  c.secS &&& 0x80 == 0 && c.minS &&& 0x80 == 0 && c.hourS &&& 0xC0 == 0 && c.dayS &&& 0xC0 == 0 &&
  c.monthS &&& 0xE0 == 0 && c.centS &&& 0xFC == 0 &&
  let t := c.staged
  t.sec < 60 && t.min < 60 && t.hour < 24 && 1 ≤ t.month && t.month ≤ 12 &&
    1 ≤ t.day && t.day ≤ monthLength t.year t.month

/-- The calendar block of 0x0100–0x010F as its bytes (R116, R157). -/
def calendarBytes (lsec : BitVec 34) (subsec : BitVec 15) : List Byte :=
  let t := dateOf lsec.toNat
  leBytes 2 subsec.toNat ++ [bcd t.sec, bcd t.min, bcd t.hour, BitVec.ofNat 8 (dowOf lsec.toNat), bcd t.day, bcd t.month,
    bcd (t.year % 100), BitVec.ofNat 8 (t.year / 100)] ++ leBytes 6 lsec.toNat

/-- A stamp: SUBSEC, LSEC and a tag (R140). -/
def stampOf (lsec : BitVec 34) (subsec : BitVec 15) (tag : BitVec 2) : BitVec 64 :=
  tag.setWidth 64 <<< 62 ||| lsec.setWidth 64 <<< 16 ||| subsec.setWidth 64

/-- The tag of an ordinary stamp: 0b01 on the crystal, 0b10 on LRC (R142). -/
def Cal.tag (c : Cal) : BitVec 2 := if c.onLrc then 0b10 else 0b01

/-- The stamp of the present CK32 edge (R142). -/
def Cal.stamp (c : Cal) : BitVec 64 := stampOf c.lsec c.subsec c.tag

/-- LSEC of a stamp (R140). -/
def stampLsec (st : BitVec 64) : Nat := (st.toNat / 2 ^ 16) % 2 ^ 34

/-- The 6-byte Binnacle time of a stamp, least significant byte first (R141). -/
def timeBytes (st : BitVec 64) : List Byte :=
  leBytes 6 (st.toNat % 2 ^ 15 / 2 + stampLsec st * 2 ^ 14)

/-- LSEC of the second after `lsec`, and whether the cycle wraps there (R118). -/
def nextLsec (lsec : Nat) : Nat × Bool :=
  if lsec + 1 = cycleSeconds then (0, true) else (lsec + 1, false)

end Sys2Proof.Machine
end

