-- ==== Sys2Proof/Machine/Ops.lean ====
section
/-! DEFINITION. The operations the commands share: updates of one part of the state, the memory of MEM_B and of the
scratch, raising and waking, moving a domain, the pins, stamps, the logbook, and the reset of the switched domains. -/

namespace Sys2Proof.Machine

/-- The outcome of a command. -/
abbrev Out := Host.Outcome State Fault Refusal

/-! ## Updates of one part of the state -/

def State.onLine (f : LineDie → LineDie) (s : State) : State := { s with line := f s.line }
def State.onLink (f : Link → Link) (s : State) : State := { s with link := f s.link }
def State.onPower (f : Power → Power) (s : State) : State := { s with power := f s.power }
def State.onCal (f : Cal → Cal) (s : State) : State := { s with cal := f s.cal }
def State.onTrim (f : Trim → Trim) (s : State) : State := { s with trim := f s.trim }
def State.onBin (f : BinIo → BinIo) (s : State) : State := { s with bin := f s.bin }
def State.onDom (f : Domains → Domains) (s : State) : State := { s with dom := f s.dom }
def State.onSpi (f : Spi → Spi) (s : State) : State := { s with spi := f s.spi }
def State.onTw (f : Tw → Tw) (s : State) : State := { s with tw := f s.tw }
def State.onEv (f : Events → Events) (s : State) : State := { s with ev := f s.ev }
def State.onBerths (f : Berths → Berths) (s : State) : State := { s with berths := f s.berths }
def State.onFlash (f : Flash → Flash) (s : State) : State := { s with flash := f s.flash }
def State.onLog (f : Log → Log) (s : State) : State := { s with log := f s.log }
def State.onGauge (f : Gauge → Gauge) (s : State) : State := { s with gauge := f s.gauge }
def State.onFw (f : Firmware → Firmware) (s : State) : State := { s with fw := f s.fw }

/-- Change one berth's block. -/
def State.onBerth (b : Fin 4) (f : Berth → Berth) (s : State) : State :=
  s.onBerths fun x => { x with blk := x.blk.set b (f x.blk[b]) }

/-- Berth `b`'s block. -/
def State.berth (s : State) (b : Fin 4) : Berth := s.berths.blk[b]

/-- Apply `f` when `c` holds. -/
def State.when (c : Bool) (f : State → State) (s : State) : State := if c then f s else s

/-! ## Memory: a sorted list of cells, an unlisted byte reads 0 (R154, R158) -/

/-- What an unlisted byte reads as. DESIGN CHOICE (log 5). -/
def unlisted : Byte := 0

/-- The byte at an address. -/
def memRead : List Host.Cell → Nat → Byte
  | [], _ => unlisted
  | (k, v) :: m, a => if k = a then v else memRead m a

/-- Write one byte, keeping the canonical form. -/
def memWrite : List Host.Cell → Nat → Byte → List Host.Cell
  | [], a, v => if v = unlisted then [] else [(a, v)]
  | (k, w) :: m, a, v =>
    if a < k then (if v = unlisted then (k, w) :: m else (a, v) :: (k, w) :: m)
    else if a = k then (if v = unlisted then m else (a, v) :: m)
    else (k, w) :: memWrite m a v

/-- The canonical form: addresses strictly rising, no entry equal to what an unlisted address reads as. -/
def Memory.wf (m : List Host.Cell) : Bool :=
  match m with
  | [] => true
  | (k, v) :: m' => v != unlisted && (match m' with | [] => true | (k', _) :: _ => decide (k < k')) && Memory.wf m'

/-- Write bytes at ascending addresses. -/
def memWriteAll (m : List Host.Cell) (a : Nat) : List Byte → List Host.Cell
  | [] => m
  | b :: bs => memWriteAll (memWrite m a b) (a + 1) bs

/-- `n` bytes at ascending addresses. -/
def memReadAll (m : List Host.Cell) (a n : Nat) : List Byte := (List.range n).map fun k => memRead m (a + k)

/-- The window base of berth `b` (R245). -/
def windowBase (b : Nat) : Nat := 0x1000 + 0x400 * b

/-- The result ring of berth `b` (R245). -/
def ringBase (b : Nat) : Nat := 0x2000 + 0x1000 * b

/-! ## Domains, read -/

def Domains.get (d : Domains) : Domain → DomSt
  | .cpu => d.cpu | .memM => d.memM | .memB => d.memB | .log => d.log
  | .gauge => d.gauge | .pwr => d.pwr | .hif => d.hif

def Domains.set (d : Domains) (x : Domain) (v : DomSt) : Domains :=
  match x with
  | .cpu => { d with cpu := v } | .memM => { d with memM := v } | .memB => { d with memB := v }
  | .log => { d with log := v } | .gauge => { d with gauge := v } | .pwr => { d with pwr := v }
  | .hif => { d with hif := v }

/-- The domain reads ON in PD_STATE (R158): its pages are served. -/
def State.isOn (s : State) (d : Domain) : Bool := (s.dom.get d).st == .on

/-- PD_STATE's two bits (R185). -/
def pdCode : PdState → Nat
  | .off => 0 | .ret => 1 | .on => 2 | .entering _ => 3 | .leaving _ => 3

/-- The domain rests OFF or in RET. -/
def PdState.low : PdState → Bool
  | .off => true | .ret => true | _ => false

/-- KEEP bits of a port: 0 CPU, 1 MEM_B, 2 HIF (R185). -/
def State.keepAny (s : State) : BitVec 3 := s.dom.keepA ||| s.dom.keepB ||| s.dom.keepW

/-! ## IRQ pins (R310 to R312) -/

/-- Berth `b`'s line (R310). -/
def State.berthLine (s : State) (b : Fin 4) : Bool := s.ev.pend[b] &&& s.ev.ien[b] != 0

/-- IRQ_SEL field of berth `b`: 1 is IRQ_A, 2 is IRQ_B (R310). -/
def State.irqSelOf (s : State) (b : Fin 4) : Nat := (s.ev.irqSel.toNat / 4 ^ b.val) % 4

/-- Pin IRQ_A (sel 1) or IRQ_B (sel 2) as the controller drives it (R310). -/
def State.pinNow (s : State) (sel : Nat) : Bool :=
  (List.finRange 4).any fun b => s.irqSelOf b == sel && s.berthLine b

/-- Pin levels: the held ones while the hold of HIF is in force, else the controller's (R167, R312). -/
def State.irqPins (s : State) : BitVec 2 :=
  if s.dom.padHeld.getLsbD 3 then s.ev.heldIrq
  else (if s.pinNow 1 then 1 else 0) ||| (if s.pinNow 2 then 2 else 0)

/-- The pins in push-pull mode, with the modes that the hold of HIF has latched (R167, R311). -/
def State.irqPush (s : State) : BitVec 2 :=
  if s.dom.padHeld.getLsbD 3 then s.ev.heldPush
  else (if s.ev.irqModeA then 1 else 0) ||| (if s.ev.irqModeB then 2 else 0)

/-! ## Moving a domain -/

/-- Whether the switched domains are powered and not held in a reset (R176, R178). -/
def State.powered (s : State) : Bool := s.dom.vsysUp && s.dom.resetCode.isNone && !s.bin.held

/-- What must be ON before a domain turns ON (R159), and XO16 for LOG (R171). -/
def State.mayTurnOn (s : State) : Domain → Bool
  | .log => s.isOn .cpu && s.isOn .memM && !s.dom.xo16Fail
  | .memB => s.isOn .hif
  | _ => true

/-- Start the exit of a low state, or note that it is wanted (R158, R159, R165). -/
def State.startOn (d : Domain) (s : State) : State :=
  s.onDom fun x =>
    let v := x.get d
    match v.st with
    | .on => x.set d { v with deferred := none }
    | .leaving _ => x
    | .entering _ => x.set d { v with wanted := true }
    | .off => x.set d (if s.powered && s.mayTurnOn d then { st := .leaving .off } else { v with wanted := true })
    | .ret => x.set d (if s.powered && s.mayTurnOn d then { st := .leaving .ret } else { v with wanted := true })

/-- Bring a domain ON, the domains it requires first (R159). -/
def State.bringOn (d : Domain) (s : State) : State :=
  match d with
  | .log => ((s.startOn .cpu).startOn .memM).startOn .log
  | .memB => (s.startOn .hif).startOn .memB
  | d => s.startOn d

/-- Start each exit that waited for this one (R159). -/
def State.startWanted (s : State) : State :=
  [Domain.cpu, .memM, .hif, .memB, .pwr, .gauge, .log].foldl
    (fun s d => if (s.dom.get d).wanted && (s.dom.get d).st.low then s.startOn d else s) s

/-- Firmware brings a domain ON that it needs (R430). -/
def State.need (d : Domain) (s : State) : State := if s.isOn d then s else s.bringOn d

/-! ## Raising events and waking -/

/-- The wake sources (R172) by bit, with the domains each brings ON; KEEP's domains depend on the register. -/
def wakeDomains (bit : Nat) : List Domain :=
  if bit < 12 then [.cpu] else if bit < 16 then [.cpu, .hif, .memB] else if bit = 16 then [.hif, .memB]
  else if bit = 18 ∨ bit = 19 then [.cpu] else []

/-- Latch a wake source: while its bit is set in WAKE_EN it sets WAKE_FLAGS and WAKE_PEND and starts the exit of its
domains (R165, R172, R173). -/
def State.wake (bit : Nat) (doms : List Domain) (s : State) : State :=
  if s.dom.wakeEn.getLsbD bit then
    doms.foldl (fun s d => s.bringOn d)
      (s.onDom fun x => { x with wakeFlags := x.wakeFlags ||| (1#32 <<< bit), wakePend := x.wakePend ||| (1#32 <<< bit) })
  else s

/-- Raise an event: its bit in the raise latch, and the EVENT wake source while EV_WAKE_EN holds it (R302, R307). -/
def State.raise (e : Nat) (s : State) : State :=
  (s.onEv fun x => { x with raised := x.raised ||| (1#96 <<< e) }).when (s.ev.wakeEn.getLsbD e) (State.wake 18 [.cpu])

/-- Raise an event now when HIF is ON, and when HIF next reaches ON otherwise (R199, R227). -/
def State.raiseWhenHif (e : Nat) (s : State) : State :=
  if s.isOn .hif then s.raise e else s.onEv fun x => { x with late := x.late ||| (1#96 <<< e) }

/-- SYSON_AUTO source `k` sets SYSON_ON when it is enabled (R148). -/
def State.sysonAuto (k : Nat) (s : State) : State :=
  s.onBin fun b => { b with sysonOn := b.sysonOn || b.sysonAuto.getLsbD k }

/-! ## Logbook (R292 to R294) -/

/-- ESEQ of the next entry: one above the latest, pending ones included (R292). -/
def State.nextEseq (s : State) : Word :=
  match s.fw.logQ.getLast? with
  | some e => e.eseq + 1
  | none => match s.flash.logbook.getLast? with
    | some e => e.eseq + 1
    | none => 1

/-- Decide to write an entry; it becomes durable later (R292, R294). -/
def State.logWrite (kind berth : Byte) (stamp : BitVec 64) (data : List Byte) (s : State) : State :=
  s.onFw fun f => { f with logQ := f.logQ ++ [⟨s.nextEseq, kind, berth, BitVec.ofNat 16 data.length, stamp, data⟩] }

/-- An entry's 64 bytes, with its ECRC (R292). -/
def LogEntry.bytes (e : LogEntry) : List Byte :=
  let body := leBytes 4 e.eseq.toNat ++ [e.kind, e.berth] ++ leBytes 2 e.used.toNat ++ leBytes 8 e.stamp.toNat ++
    slice e.data 0 44
  body ++ leBytes 4 (crc32 body).toNat

/-- A totals entry, of kinds 0x01 and 0x02 (R293). -/
def LogEntry.isTotals (e : LogEntry) : Bool := e.kind == 1 || e.kind == 2

/-- Drop the first entry that meets `p`. -/
def dropFirst (p : LogEntry → Bool) : List LogEntry → List LogEntry
  | [] => []
  | e :: es => if p e then es else e :: dropFirst p es

/-- Make an entry durable: when its class is full, its oldest entry is overwritten (R292). -/
def bookAdd (book : List LogEntry) (e : LogEntry) : List LogEntry :=
  let same := fun x : LogEntry => x.isTotals == e.isTotals
  let room := if e.isTotals then 192 else 64
  (if room ≤ (book.filter same).length then dropFirst same book else book) ++ [e]

/-! ## Learn disqualification that other parts cause (R411) -/

/-- Gauge records need the berth that holds GAUGE (R422). -/
def State.holderOf (s : State) (bit : Nat) : Option (Fin 4) :=
  (List.finRange 4).find? fun b => s.berth b |>.rights |>.getLsbD bit

/-- The number of unread records of a ring (R281). -/
def Berth.unread (b : Berth) : Nat := (b.ringWr - b.ringRd).toNat

/-- A payload from its fields in order, each its length and its bytes; a field the manual states no value for takes free
values (log 3). -/
def State.fill (fields : List (Nat × Option (List Byte))) (s : State) : List Byte × State :=
  let p := fields.foldl (fun acc f => acc ++ match f.2 with
    | some bs => slice bs 0 f.1
    | none => (List.range f.1).map fun k => Config.freeByte (s.free + acc.length + k)) ([] : List Byte)
  (p, if fields.all fun f => f.2.isSome then s else { s with free := s.free + p.length })

/-- A field that is stated. -/
def given (bs : List Byte) : Nat × Option (List Byte) := (bs.length, some bs)

/-- Firmware writes rings while it runs and MEM_B is ON (R281). -/
def State.ringsUp (s : State) : Bool := s.isOn .memB && s.isOn .cpu && s.fw.started

/-- Write a record to a berth's ring, or drop it (R280, R281, R283). -/
def State.putRecord (r : Rec) (s : State) : State :=
  let ⟨b, stamp, type, path, rflags, payload⟩ := r
  let k := s.berth b
  if k.unread = 128 then
    (s.onBerth b fun k => { k with ringOvfCnt := satInc k.ringOvfCnt, ringOvf := true, gap := true, rseq := k.rseq + 1 }).when
      (!k.gap) (State.raise (60 + b.val))
  else
    let rec32 := timeBytes stamp ++ [type, path, rflags ||| (if k.gap then 0x80 else 0), k.rseq] ++ slice payload 0 22
    let thr := max 1 (min 128 k.ringThr.toNat)
    let s := s.onBerths fun x => { x with mem := memWriteAll x.mem (ringBase b.val + 32 * (k.ringWr.toNat % 128)) rec32 }
    (s.onBerth b fun k => { k with ringWr := k.ringWr + 1, rseq := k.rseq + 1, gap := false }).when
      (k.unread + 1 == thr) (State.raise (56 + b.val))

/-- Produce a record. DEDUCED (log 78): one that finds MEM_B not ON, or no firmware to write it, waits; firmware brings MEM_B
ON for it. -/
def State.record (b : Fin 4) (stamp : BitVec 64) (type path rflags : Byte) (payload : List Byte) (s : State) : State :=
  if s.ringsUp then s.putRecord ⟨b, stamp, type, path, rflags, payload⟩
  else (s.onFw fun f => { f with recQ := f.recQ ++ [⟨b, stamp, type, path, rflags, payload⟩] }).when
    (s.isOn .cpu && s.fw.started) (State.need .memB)

/-- The records that waited are written, in their order, as soon as they can be. -/
def State.flushRecords (s : State) : State :=
  if s.ringsUp then s.fw.recQ.foldl (fun s r => s.putRecord r) (s.onFw fun f => { f with recQ := [] })
  else s.when (s.isOn .cpu && s.fw.started && !s.fw.recQ.isEmpty) (State.need .memB)

/-- RFLAGS of a gauge record (R422): RESTORED, ON_LRC, OVR, CLAMPED. -/
def State.gaugeFlags (s : State) (clamped : Bool) : Byte :=
  byteOf [s.gauge.restored, s.cal.onLrc, s.gauge.ovr, clamped]

/-- A gauge record, when DELIVER has its bit and a berth holds GAUGE (R422). -/
def State.gaugeRecord (bit : Nat) (type : Byte) (clamped : Bool) (payload : List Byte) (s : State) : State :=
  match s.holderOf 6 with
  | some b => if bitAt s.gauge.cfg 27 bit then s.record b s.cal.stamp type 0 (s.gaugeFlags clamped) payload else s
  | none => s

/-- LSB of ACC in one mAh: 7,200·R_SHUNT[µΩ]; 72,000,000 at 10 mΩ (R400). -/
def Gauge.perMah (g : Gauge) : Nat := 7200 * leAt g.cfg 2 2

/-- The LEARN record's fields, at a close or a disqualification of an OPEN learn (R422); C_meas and the new Q_FULL only
where the close computed them. -/
def Gauge.learnFields (g : Gauge) (result : Nat) (dSoc dAcc : Int) (found : Option (Nat × Nat)) (now : Nat) :
    List (Nat × Option (List Byte)) :=
  [given ([BitVec.ofNat 8 result, if dSoc < 0 then 0 else 1] ++ sleBytes 2 dSoc ++
      sleBytes 4 (divRound (dAcc * 10) (max 1 g.perMah))),
   (2, found.map fun f => leBytes 2 f.1), given (leBytes 2 g.qFull.toNat), (2, found.map fun f => leBytes 2 f.2),
   given (leBytes 2 (g.absSum * 3600 / max 1 (g.perMah * max 1 g.busyConv)) ++ leBytes 2 g.learnCnt.toNat ++
      leBytes 4 (now - g.openConv))]

/-- A cause marked "at once" ends an OPEN learn: NONE, LAST_DISQ, EV84, and a LEARN record except for GAUGE_OFF (R411,
R422). A PENDING learn is dropped without an event by RESET, RESTORE and CONFIG, and left by the others. -/
def State.learnDisq (cause : Nat) (s : State) : State :=
  match s.gauge.learn with
  | .opened =>
    let g := s.gauge
    let dAcc := g.acc - g.anchorAcc
    let s := s.when (cause != 3) fun s =>
      let (p, s) := s.fill (g.learnFields cause (g.soc - g.anchorSoc) dAcc none g.convCnt.toNat)
      s.gaugeRecord 1 0x21 false p
    (s.onGauge fun g => { g with learn := .none, lastDisq := BitVec.ofNat 4 cause }).raise 84
  | .pending => if cause = 4 ∨ cause = 5 ∨ cause = 13 then s.onGauge fun g => { g with learn := .none } else s
  | .none => s

/-! ## Trim aborts (R137, R446) -/

/-- RESTART of the trim policy in force (R446). -/
def Firmware.trimRestarts (f : Firmware) : Bool := bitAt f.trimPolicy 1 3

/-- Abort a running measurement, of either reference: TR_RUN clears, TR_CAUSE is recorded, EV26; with RESTART the firmware
will start a new one after every cause but 6 (R137, R446). DEDUCED (log 58): also one that waits for its opening edge. -/
def State.trimAbort (cause : Nat) (s : State) : State :=
  if s.trim.active then
    let s := s.onTrim fun t => { t with run := false, active := false, openRaw := none, cause := BitVec.ofNat 3 cause }
    let s := if cause != 6 && s.fw.trimRestarts then s.onFw fun f => { f with trimRestart := true } else s
    s.raise 26
  else s

/-- The link leaves UP: LINE_OK falls and a measurement aborts with cause 1 (R61, R137). -/
def State.linkLeavesUp (s : State) : State :=
  if s.link.state = .up then
    (s.onLink fun l => { l with lineOk := false, ssr := false }).trimAbort 1
  else s

/-! ## Quiet windows and the charger (R78, R82, R108) -/

/-- Downlink frames stop: what waited or was in flight is not sent (R72, R73). DESIGN CHOICE (log 60). -/
def Link.silence (l : Link) : Link :=
  { l with downFlight := none, regDue := false, quietDue := [], quietQ := [], cfgQ := [], stopSymbolDue := false }

/-- The charger is stopped from a request until its window closes or the request is refused, whatever state it is in: it is
stopped while a request waits for its answer or a window is open (R78, R82, R108). -/
def State.chargerFollows (s : State) : State :=
  s.onPower fun p => { p with paused := s.link.window.isSome || !s.link.quietQ.isEmpty }

/-- The pending smart-battery read starts (R228, R229). -/
def Tw.sbsStart (t : Tw) : Tw :=
  { t with sbsPending := false, startHeld := false, sbsActive := true, sbsTries := t.sbsTries + 1, busy := true }

/-- The line edges that a quiet window has held are made (R240). -/
def Tw.release (t : Tw) : Tw :=
  let t := { t with probe := t.probe.map fun o => { o with held := false } }
  if t.startHeld && t.sbsPending then t.sbsStart else t

/-- The core-side window closes, and the line edges of the two-wire controllers that fell inside it are made (R78, R240). -/
def State.closeWindow (s : State) : State :=
  ((s.onLink fun l => { l with window := none, windowLocal := false }).onTw Tw.release).chargerFollows

/-! ## Leaving ON (R160 to R166) -/

/-- Pads of these domains are held (R185: PAD_HELD bits 0 PWR, 1 GAUGE, 2 LOG, 3 HIF). -/
def padBit : Domain → Option Nat
  | .pwr => some 0 | .gauge => some 1 | .log => some 2 | .hif => some 3 | _ => none

/-- The configured low state in PD_LOW (R185); CPU knows only OFF. -/
def State.pdLowOf (s : State) (d : Domain) : Low :=
  let f (k : Nat) : Low := if s.dom.pdLow.getLsbD (2 * k) then .ret else .off
  match d with
  | .cpu => .off | .memM => f 0 | .memB => f 1 | .log => f 2 | .gauge => f 3 | .pwr => f 4 | .hif => f 5

/-- The low state an entry takes: MEM_B only to RET while a ring holds unread records (R284), MEM_M only to RET while a
path is configured (the corner of R371). -/
def State.lowFor (s : State) (d : Domain) (want : Low) : Low :=
  match d with
  | .cpu => .off
  | .memB => if (List.finRange 4).any fun b => (s.berth b).unread != 0 then .ret else want
  | .memM => if (s.log.a.acqOk && s.log.a.flowOk) || (s.log.b.acqOk && s.log.b.flowOk) then .ret else want
  | _ => want

/-- A host transfer is in progress (R162). -/
def State.hostTransfer (s : State) : Bool :=
  s.spi.csA || s.spi.csB || s.tw.phase == .active || s.tw.phase == .stretched

/-- HOLD_ON of any berth keeps the domain ON (R441, R442). -/
def State.heldOn (s : State) (k : Nat) : Bool := (List.finRange 4).any fun b => (s.berth b).holdOn.getLsbD k

/-- What keeps a domain ON (R49, R99, R162, R442). -/
def State.blocked (s : State) (d : Domain) : Bool :=
  match d with
  | .cpu => s.keepAny.getLsbD 0
  | .memM => s.heldOn 0 || !s.dom.log.st.low
  | .memB => s.keepAny.getLsbD 1 || s.hostTransfer
  | .log => false
  | .gauge => s.heldOn 1
  | .pwr => s.heldOn 2 || s.link.state == .up || s.power.chg == .pre || s.power.chg == .cc || s.power.chg == .cv
  | .hif => s.keepAny.getLsbD 2 || s.keepAny.getLsbD 1 || s.hostTransfer || !s.dom.memB.st.low

/-- What still defers an entry; PWR waits for the link to be DOWN once a deferral has met it UP (R49, R99, R162). -/
def State.deferring (s : State) (d : Domain) : Bool :=
  s.blocked d || (d == .pwr && s.dom.pwrUntilDown && s.link.state != .down)

/-- HIF or CPU leaves ON: a transfer of the module as controller breaks off, and its lines are released (R30, R228, R236).
DESIGN CHOICE (log 77): it is made again once both are ON. -/
def Tw.breakOff (t : Tw) : Tw :=
  { t with sbsPending := t.sbsPending || t.sbsActive, sbsActive := false, startHeld := false
           sbsTries := if t.sbsActive then t.sbsTries - 1 else t.sbsTries
           probe := t.probe.map fun o => { o with held := false } }

/-- State OFF of the charger: CHSW released, the timers at 0 (R96, R101, R103). DESIGN CHOICE (log 69): ICHG_MEAS reads 0
from here on; the stop of an over-temperature lasts until it ends. -/
def Power.chargerOff (p : Power) : Power :=
  { p with chg := .off, chswZ := true, preMs := 0, fastMs := 0, lowMs := 0, ichgMeas := 0 }

/-- Out of ON, LOG runs nothing: no sounding, no conversion, the pump and the drivers off (R33, R158, R166). -/
def Log.loseLog (l : Log) : Log := { l with cur := none, rtd := none, pump := false, ports := Vector.replicate 4 .rest }

/-- The decision edge of an entry: pages refused, LIVE bits fall, pads to their safe states and latched (R29, R163,
R166). -/
def State.beginEntry (d : Domain) (want : Low) (s : State) : State :=
  let low := s.lowFor d want
  let pins := s.irqPins
  let push := s.irqPush
  let s := s.onDom fun x => x.set d { st := .entering low }
  let s := match padBit d with
    | some k => s.onDom fun x => { x with padHeld := x.padHeld ||| (1#4 <<< k) }
    | none => s
  match d with
  | .cpu => (s.onDom fun x => { x with cpuUp := false }).onTw Tw.breakOff
  | .hif => (s.onEv fun e => { e with heldIrq := pins, heldPush := push }).onTw Tw.breakOff
  | .pwr => (s.closeWindow.linkLeavesUp.onPower fun p => { p.chargerOff with srg := false, paused := false }).onLink fun l =>
      { l.silence with state := .down }
  | .log => s.onLog Log.loseLog
  | _ => s

/-- The entry is deferred (R162). -/
def State.defer (d : Domain) (want : Low) (s : State) : State := s.onDom fun x => x.set d { x.get d with deferred := some want }

/-- A domain leaves ON, or its entry is deferred (R162). CPU entering OFF first takes LOG to its configured low state: both
begin here, and the CPU's entry ends after LOG's; a LOG that is turning ON is waited for (R159, R163, R165). -/
def State.tryEntry (d : Domain) (want : Low) (s : State) : State :=
  if s.deferring d then s.defer d want
  else if d = .cpu then
    match s.dom.log.st with
    | .leaving _ => s.defer .cpu want
    | .on => (s.beginEntry .log (s.pdLowOf .log)).beginEntry .cpu want
    | _ => s.beginEntry .cpu want
  else s.beginEntry d want

/-- An idle-timer expiry or a wait instruction asks a domain to leave ON (R160, R162). -/
def State.requestEntry (d : Domain) (want : Low) (s : State) : State :=
  if (s.dom.get d).st == .on then
    (s.onDom fun x => { x with pwrUntilDown := if d = .pwr then s.link.state == .up else x.pwrUntilDown }).tryEntry d want
  else s

/-! ## What a domain loses (R158, and the tables of each page) -/

/-- BIN-held fields of the power path stay; the others take their reset values (R115). The latest TS result is the gauge's
(R106), and NO_TS is judged from it at all times. -/
def Power.lose (p : Power) : Power :=
  { p.chargerOff with zone := .normal, hotStop := false, chgEn := false, srEn := true, vreg := 20, ichg := 20, ipre := 4,
                      iterm := 4, tfast := 10, tpre := 6, ichgMeas := 0, chgFault := 0, srg := false }

/-- The link registers take their reset values after any reset of PWR, LOSS_COUNT apart (R86). -/
def Link.lose (l : Link) : Link := { lossKey := l.lossKey, lossCount := l.lossCount }

/-- The fields of the berth control block that MEM_B loses in OFF (R279, R280, R284, R300). -/
def Berth.loseMemB (b : Berth) : Berth :=
  { b with ringWr := 0, ringRd := 0, ringThr := 1, ringOvfCnt := 0, respRdy := false, reqLock := false, ringOvf := false,
           logUsed := 0, memUsed := 0, rseq := 0, gap := false }

/-- What MEM_B loses in OFF: all of it reads 0 before it is next ON (R158). -/
def Berths.loseMemB (x : Berths) : Berths := { x with mem := [], blk := x.blk.map Berth.loseMemB }

/-- The totals live in MEM_M (R368). -/
def Log.loseMemM (l : Log) : Log :=
  { l with a := { l.a with totals := {}, spans := [], tPrev := none }, b := { l.b with totals := {}, spans := [], tPrev := none } }

/-- The copy firmware keeps to restore the event controller from (R168, R314). -/
def Events.save (e : Events) : HifSave := ⟨e.route, e.irqModeA, e.irqModeB, e.irqSel, e.ien⟩

/-- Event-controller fields that HIF loses in OFF (R314). -/
def Events.lose (e : Events) : Events :=
  { e with route := routeReset, routeOk := false, irqModeA := false, irqModeB := false, irqSel := 0,
           ien := Vector.replicate 4 0 }

/-- Two-wire fields that HIF loses in OFF (R244). -/
def Tw.lose (t : Tw) : Tw :=
  { t with protoCause := 0, arbCnt := 0, recovCnt := 0, sbsCause := 0, pbSpeed := 0b01, pbFilt := 0b010, pbCause := 0,
           pbFail := false, pbRecovCnt := 0
           phase := if t.phase == .active then .ignored else t.phase }

/-- The contents a domain loses on reaching OFF (R158). DEDUCED (log 47). -/
def State.lose (d : Domain) (s : State) : State :=
  match d with
  | .cpu => (s.onFw fun f => { f with started := false, staged := none }).onDom fun d =>
      { d with pllcReq := false, pllcLock := false, cpuOnPllc := false }
  | .memM => s.onLog Log.loseMemM
  | .memB => s.onBerths Berths.loseMemB
  | .log => s.onLog Log.loseLog
  | .gauge => (s.learnDisq 3).onGauge fun _ => Gauge.fresh
  | .pwr => (s.onPower Power.lose).onLink Link.lose
  | .hif => ((s.onFw fun f => { f with hifSave := if s.ev.routeOk then some s.ev.save else f.hifSave }).onEv Events.lose).onTw
      Tw.lose

/-! ## Resets of the switched domains (R177, R178) -/

/-- The policies' reset values, with the firmware timer disarmed. The registers are BIN's, and R442's return to the reset
values is firmware's: it makes it as it starts after such a reset (DEDUCED, log 80). -/
def Domains.losePolicy (d : Domains) : Domains :=
  { d with pdLow := 0x555, idle := Vector.replicate 6 0, wakeEn := 0x0003F000, fwTimer := false }

/-- The berth fields every reset other than wake-from-off changes: RESP_RDY clears, the stored response is discarded,
LAST_SEQ is undefined (a free value), HOLD_ON ends (R273, R274, R279, R442). -/
def Berth.resetFields (lastSeq : Byte) (b : Berth) : Berth :=
  { b with respRdy := false, stored := none, lastFrame := [], cur := none, lastSeq := lastSeq, seqKnown := false,
           holdOn := 0, macFails := b.macFails }

/-- One free value a berth, and the counter moved on (R273, log 3). -/
def State.freeSeqs (s : State) : State :=
  let s' := (List.finRange 4).foldl (fun s b => s.onBerth b (Berth.resetFields (Config.freeByte (s.free + b.val)))) s
  { s' with free := s.free + 4 }

/-- Every switched domain OFF, but GAUGE in RET when `keepGauge`; holds opened; KEEP cleared; the CPU down (R169, R178,
R185). -/
def Domains.allOff (keepGauge : Bool) (code : BitVec 4) (d : Domains) : Domains :=
  { d with
    rstHist := d.rstHist ||| (1#8 <<< (code.toNat - 1))
    cpu := {}, memM := {}, memB := {}, log := {}, pwr := {}, hif := {}
    gauge := if keepGauge then { st := .ret } else {}
    cpuUp := false, padHeld := 0, keepA := 0, keepB := 0, keepW := 0
    pllcReq := false, pllcLock := false, xo16Fail := false, cpuOnPllc := false, pwrUntilDown := false
    sysResetOwed := true, resetCode := some code }

/-- A reset of the switched domains with the given code, keeping BIN and the gauge integrator (R177, R178).
DEDUCED (log 43). -/
def State.resetSwitched (code : BitVec 4) (s : State) : State :=
  let keepGauge := match s.dom.gauge.st with
    | .on => true | .ret => true | .entering .ret => true | .leaving .ret => true | _ => false
  let s := s.onFw fun f => { f with started := false, recQ := [] }
  let s := (s.learnDisq 4).linkLeavesUp
  let s := if keepGauge then s else s.onGauge fun _ => Gauge.fresh
  let s := ((((s.lose .cpu).lose .memM).lose .memB).lose .log).lose .pwr |>.lose .hif
  let s := s.onDom (Domains.allOff keepGauge code)
  let s := s.onEv fun e => { e with heldIrq := 0, heldPush := 0 }
  let s := s.onTw fun t => { t with sbsPending := false, sbsActive := false, startHeld := false, sbsTries := 0, probe := none }
  let s := s.onFw fun f => { f with coldStart := true, logQ := [], storeQ := [], resetWait := none, resetDue := false,
                                    pfArmed := false, pfLoss := false, probation := false, update := none
                                    hifSave := none }
  let s := s.onLog fun l => { l with cal := none }
  s.freeSeqs

end Sys2Proof.Machine
end

