-- ==== Sys2Proof/Machine/Flags.lean ====
section
/-! DEFINITION. The flag bytes that are computed, not stored: the LIVE byte and EVSUM of a port, and the status bytes of
the pages that gather flags of several parts. -/

namespace Sys2Proof.Machine

/-- A port's code in BIND, ACC_PORT and AV_PORT (R185, R206, R299). -/
def portCode : Port → Nat
  | .csA => 0 | .csB => 1 | .tw => 2

/-- BIND's field for berth `b` (R185). -/
def State.bindOf (s : State) (b : Nat) : Nat := (s.dom.bind.toNat / 4 ^ b) % 4

/-- Berth `b` is bound to port `p` (R195, R247). -/
def State.bound (s : State) (p : Port) (b : Nat) : Bool := s.bindOf b == portCode p

/-- EVSUM 5:0: group g has an event pending for a berth of this port (R195, R309). -/
def State.evsumGroups (s : State) (p : Port) : Nat :=
  let pend := (List.finRange 4).foldl (fun v b => if s.bound p b.val then v ||| s.ev.pend[b] else v) (0 : BitVec 96)
  ((List.range 6).map fun g => if pend.toNat / 2 ^ (16 * g) % 2 ^ 16 = 0 then 0 else 2 ^ g).sum

/-- EVSUM of a port (R195). -/
def State.evsum (s : State) (p : Port) : Half :=
  let f (g : Fin 4 → Bool) : Nat := ((List.finRange 4).map fun b => if s.bound p b.val && g b then 2 ^ b.val else 0).sum
  BitVec.ofNat 16 (s.evsumGroups p + 2 ^ 8 * f (fun b => (s.berth b).respRdy) + 2 ^ 12 * f (fun b => s.dom.bells[b].ack))

/-- The number of 1s in a byte. -/
def ones (b : Byte) : Nat := ((List.range 8).filter fun k => b.getLsbD k).length

/-- Bits 7:1 of a LIVE byte with the parity bit that makes its count of 1s odd (R194). -/
def withParity (b : Byte) : Byte := if ones b % 2 = 0 then b ||| 1 else b

/-- The LIVE byte of a port (R92, R194). -/
def State.live (s : State) (p : Port) : Byte :=
  let e := (s.evsum p).toNat
  withParity (byteOf [false, s.link.state == .fault || s.dom.xo16Fail, e / 2 ^ 8 % 16 != 0, e % 64 != 0,
    s.power.src == some .bat, s.link.lineOk, s.isOn .memB, s.dom.cpuUp])

/-- SRC as R115 codes it. -/
def srcCode : Option Source → Nat
  | none => 0 | some .adp => 1 | some .aux => 2 | some .bat => 3

/-- CHG_STATE (R115). -/
def ChgState.code : ChgState → Nat
  | .off => 0 | .wait => 1 | .pre => 2 | .cc => 3 | .cv => 4 | .done => 5 | .suspend => 6 | .fault => 7

/-- TS_ZONE (R115). -/
def TsZone.code : TsZone → Nat
  | .cold => 0 | .cool => 1 | .normal => 2 | .warm => 3 | .hot => 4

/-- NO_TS: no TS result younger than 2 s, which is 65,536 CK32 edges (R9, R115). -/
def State.noTs (s : State) : Bool :=
  match s.power.tsAt with
  | some e => decide (e + 65536 ≤ s.trim.raw)
  | none => true

/-- The charge zone of a temperature in 0.1 °C, each bound left toward NORMAL only 2 °C beyond it (R106). -/
def zoneOf (z : TsZone) (t : Int) : TsZone :=
  let cold := if z = .cold then t < 20 else t < 0
  let cool := if z = .cold ∨ z = .cool then t < 120 else t < 100
  let warm := if z = .warm ∨ z = .hot then 430 < t else 450 ≤ t
  let hot := if z = .hot then 580 < t else 600 ≤ t
  if cold then .cold else if cool then .cool else if hot then .hot else if warm then .warm else .normal

/-- The zone of the latest TS result, with EV11 on entering one (R106). -/
def State.takeZone (s : State) : State :=
  if s.power.tsAt.isSome then
    let z := zoneOf s.power.zone s.power.tsTemp
    (s.onPower fun p => { p with zone := z }).when (z != s.power.zone) (State.raise 11)
  else s

/-- STATE of the link (R86). -/
def LinkState.code : LinkState → Nat
  | .down => 0 | .training => 1 | .up => 2 | .fault => 3

/-- DSTATE: the deepest level held (R414). -/
def Gauge.dstate (g : Gauge) : Nat :=
  if g.levels.getLsbD 2 then 3 else if g.levels.getLsbD 1 then 2 else if g.levels.getLsbD 0 then 1 else 0

/-- LEARN (R423). -/
def LearnState.code : LearnState → Nat
  | .none => 0 | .pending => 1 | .opened => 2

/-- The register SOC: clamped to 0–10,000, and 0xFFFF while STATE_VALID is 0 (R400). -/
def Gauge.socReg (g : Gauge) : Half :=
  if g.stateValid then BitVec.ofInt 16 (clampInt 0 10000 g.soc) else 0xFFFF

end Sys2Proof.Machine
end

