-- ==== Sys2Proof/Machine/Respond.lean ====
section
/-! DEFINITION. Responses: the status codes, the frame of a response and its MAC, posting it, and the answers that wait for
a time load (R264 to R275, R279, R427, R445). -/

namespace Sys2Proof.Machine

/-- The status codes (R275). -/
inductive Status where
  | ok | busy | unknownCmd | badLen | badParam | denied | sealed | macFail | resourceHeld | notReady | seqError | outOfQuota
  | restoreRejected | calRejected
  deriving DecidableEq, Repr

/-- The code of a status (R275). -/
def Status.code : Status → Byte
  | .ok => 0x00 | .busy => 0x01 | .unknownCmd => 0x02 | .badLen => 0x03 | .badParam => 0x04 | .denied => 0x05
  | .sealed => 0x06 | .macFail => 0x07 | .resourceHeld => 0x08 | .notReady => 0x09 | .seqError => 0x0A
  | .outOfQuota => 0x0B | .restoreRejected => 0x0C | .calRejected => 0x0D

/-- The active charter's entry of a berth (R248). -/
def State.entry (s : State) (b : Fin 4) : Entry := s.fw.charter.entries[b]

/-- No key: all zeros (R248). -/
def noKey (k : List Byte) : Bool := k.all (· == 0)

/-- A header with its HCRC (R264, R265). -/
def header (cmd : Half) (seq flags : Byte) (len : Nat) : List Byte :=
  let h := leBytes 2 cmd.toNat ++ [seq, flags] ++ leBytes 2 len
  h ++ leBytes 2 (crc16 h).toNat

/-- The MAC of a frame: the first 8 bytes of the HMAC (R268). -/
def macOf (key : List Byte) (b : Fin 4) (ctr : Word) (head payload : List Byte) : List Byte :=
  (hmac key (BitVec.ofNat 8 b.val :: leBytes 4 ctr.toNat ++ head ++ payload)).take 8

/-- The frame of a response: the request's CMD and SEQ, FLAGS bit 7, a MAC when the request's was verified (R266, R268). -/
def responseFrame (key : List Byte) (b : Fin 4) (rq : Request) (body : List Byte) : List Byte :=
  let head := header rq.cmd rq.seq (if rq.mac then 0x81 else 0x80) body.length
  head ++ body ++ (if rq.mac then macOf key b (rq.ctr + 1) head body else [])

/-- Write a frame into the response mailbox and set RESP_RDY (R279). PRESUMED (log 45). -/
def State.postFrame (b : Fin 4) (frame : List Byte) (s : State) : State :=
  ((s.onBerths fun x => { x with mem := memWriteAll x.mem (windowBase b.val + 0x100) frame }).onBerth b
    fun k => { k with respRdy := true }).raise (48 + b.val)

/-- A berth's records of an accepted request and its response (R273, R274). -/
def Berth.accept (rq : Request) (st : Status) (frame : List Byte) (b : Berth) : Berth :=
  { b with cur := none, lastStatus := if rq.accepted then st.code else b.lastStatus
           lastFrame := if rq.accepted then rq.frame else b.lastFrame
           stored := if rq.accepted then some frame else b.stored }

/-- Answer the berth's request: posted unless the status is OK and no response is wanted, and stored all the same (R267,
R273, R274, R279). DEDUCED (log 46). -/
def State.answer (b : Fin 4) (st : Status) (rest : List Byte) (s : State) : State :=
  match (s.berth b).cur with
  | none => s
  | some rq =>
    let frame := responseFrame (s.entry b).key b rq (st.code :: rest)
    let s := s.onBerth b (Berth.accept rq st frame)
    if st = .ok ∧ rq.flags.getLsbD 1 = false then s else s.postFrame b frame

/-- The berth's request waits for a later instant. -/
def Berth.wait (b : Berth) : Berth := { b with cur := b.cur.map fun rq => { rq with waiting := true } }

/-- The berth's request waits, and has this command code. -/
def Berth.waitsFor (cmd : Half) (b : Berth) : Bool :=
  match b.cur with
  | some rq => rq.waiting && rq.cmd == cmd
  | none => false

/-- SET_LAST and SET_PREV, as TIME_SET and TIME_SHIFT answer them (R444). -/
def Cal.setBytes (c : Cal) : List Byte := leBytes 8 c.setLast.toNat ++ leBytes 8 c.setPrev.toNat

/-- Post the answers that waited for a load or a shift (R445). -/
def State.answerTime (s : State) : State :=
  (List.finRange 4).foldl (fun s b =>
    let k := s.berth b
    if (k.waitsFor 0x0400 && s.cal.commit.isNone) || (k.waitsFor 0x0401 && s.cal.shift.isNone)
    then s.answer b .ok s.cal.setBytes else s) s

end Sys2Proof.Machine
end

