-- ==== Sys2Proof/Machine/BinOps.lean ====
section
/-! DEFINITION. What a write to the Binnacle's registers does beyond storing a value: commits, shifts, trim runs, clears
of stamps; and the calendar's updates at a CK32 edge. -/

namespace Sys2Proof.Machine

/-! ## One cycle of CK32 (R8). DESIGN CHOICE (log 70): commands between two CK32 edges stand in the cycle of the first. -/

/-- Hardware sets the W1C bits `m` of the byte at `a` in this cycle. -/
def BinIo.mark (a : Nat) (m : Byte) (b : BinIo) : BinIo := { b with setNow := (a, m) :: b.setNow }
def State.binSet (a : Nat) (m : Byte) (s : State) : State := s.onBin (BinIo.mark a m)

/-- The bits of the byte at `a` that hardware has set in this cycle. -/
def BinIo.setMask (a : Nat) (b : BinIo) : Byte := (b.setNow.filter fun x => x.1 == a).foldl (fun m x => m ||| x.2) 0

/-- A written byte without the bits that this cycle has set: those end set (R8). -/
def BinIo.unset (a : Nat) (v : Byte) (b : BinIo) : Byte := v &&& ~~~(b.setMask a)

/-! ## Commits and shifts (R126 to R131) -/

/-- SETR or SETT received: checked as a whole, then pending, or rejected with EV16 (R126, R127, R128). -/
def State.commitCmd (m : CommitMode) (s : State) : State :=
  if s.cal.stagedOk then s.onCal fun c => { c with commit := some m }
  else ((s.onCal fun c => { c with calRej := true }).binSet 0x011B 0x04).raise 16

/-- A write to CAL_CMD (R126): other codes are ignored. -/
def State.calCmd (v : Byte) (s : State) : State :=
  if v = 0x01 then s.commitCmd .setr else if v = 0x02 then s.commitCmd .sett
  else if v = 0x03 then (s.onCal fun c => { c with commit := none }).answerTime else s

/-- A write to SHIFT (R130, R131). -/
def State.shiftCmd (v : Half) (s : State) : State :=
  if s.cal.shift.isSome || s.cal.commit.isSome then (s.onCal fun c => { c with shiftCxl := true }).binSet 0x011B 0x10
  else s.onCal fun c => { c with shift := some v }

/-- A write to a staged byte; dropped while COMMIT_PEND is 1 (R125, R128). -/
def Cal.stage (c : Cal) (a : Nat) (v : Byte) : Cal :=
  if c.commit.isSome then c
  else match a with
    | 0x0112 => { c with secS := v } | 0x0113 => { c with minS := v } | 0x0114 => { c with hourS := v }
    | 0x0116 => { c with dayS := v } | 0x0117 => { c with monthS := v } | 0x0118 => { c with yearS := v }
    | 0x0119 => { c with centS := v } | _ => c

/-- Load the staged time with the given SUBSEC; `prev` is what the calendar would have shown (R129). A shift that is
pending is cancelled (R131). -/
def Cal.load (c : Cal) (tag : BitVec 2) (subsec : BitVec 15) (prevLsec : BitVec 34) (prevSub : BitVec 15) : Cal :=
  let l := BitVec.ofNat 34 (lsecOf c.staged)
  { c with lsec := l, subsec, commit := none, setLast := stampOf l subsec tag, setPrev := stampOf prevLsec prevSub tag
           shift := none, shiftCxl := c.shiftCxl || c.shift.isSome }

/-- The time a tick gives from `lsec` with `r` sub-seconds left over and a shift, and whether the cycle wraps (R118,
R130). -/
def shiftedTime (lsec r : Nat) (shift : Option Half) : Nat × Bool :=
  let t := (lsec + 1) * 32768 + r
  let t := match shift with
    | some v => t + (if v.getLsbD 15 then 32768 else 0) - v.toNat % 32768
    | none => t
  if cycleSeconds * 32768 ≤ t then (t - cycleSeconds * 32768, true) else (t, false)

/-- The update of an edge that ends a second, `r` sub-seconds being left over (R118, R126, R129, R130, R132). SET_PREV of a
load shows the shift that it cancels, SET_PREV of a shift the ticked time. The second value says whether the cycle
wrapped. -/
def Cal.tick (c : Cal) (r : Nat) : Cal × Bool :=
  let at_ (v : Option Half) : BitVec 34 × BitVec 15 :=
    let (p, _) := shiftedTime c.lsec.toNat r v
    (BitVec.ofNat 34 (p / 32768), BitVec.ofNat 15 (p % 32768))
  let (l, u) := at_ c.shift
  if c.commit = some .sett then (c.load 0b10 (BitVec.ofNat 15 r) l u, false)
  else
    let wrap := (shiftedTime c.lsec.toNat r c.shift).2
    let c' := { c with lsec := l, subsec := u, centWrap := c.centWrap || wrap }
    match c.shift with
    | some _ =>
      let prev := at_ none
      ({ c' with shift := none, setLast := stampOf l u 0b11, setPrev := stampOf prev.1 prev.2 0b11 }, wrap)
    | none => (c', wrap)

/-- `n` counts at one edge, with the tick if they end the second (R132, R133). -/
def Cal.counts (n : Nat) (c : Cal) : Cal × Bool :=
  let t := c.subsec.toNat + n
  if 32768 ≤ t then c.tick (t - 32768) else ({ c with subsec := BitVec.ofNat 15 t }, false)

/-! ## Trim corrections (R133) -/

/-- Crystal periods of a trim cycle (R133). -/
def trimCycle : Nat := 8388608

/-- |TRIM| of the running cycle. -/
def Trim.steps (t : Trim) : Nat := t.cycleTrim.toInt.natAbs

/-- Slot `j` of the cycle holds a correction: some k below |TRIM| has ⌊k·8,192/|TRIM|⌋ = j (R133). -/
def slotHit (steps j : Nat) : Bool :=
  let k := (j * steps + 8191) / 8192
  k < steps && k * 8192 / steps == j

/-- A correction is due at the next CK32 edge (R132, R133); corrections are suspended on LRC (R121). -/
def State.corrDue (s : State) : Bool :=
  let p := (s.trim.cyclePos + 1) % trimCycle
  s.cal.started && !s.cal.onLrc && s.trim.steps != 0 &&
    (s.trim.corrOwed || (p % 1024 == 0 && slotHit s.trim.steps (p / 1024)))

/-! ## The update of a CK32 edge (R120, R129, R132, R133, R139) -/

/-- What the update of the next CK32 edge is (R120, R132). -/
inductive EdgeKind where
  /-- a due SETR load -/
  | load
  /-- edge 0, which counts nothing -/
  | start
  /-- a count with a trim correction -/
  | corr
  /-- a count that ends a second -/
  | tick
  /-- any other count -/
  | count
  deriving DecidableEq, Repr

/-- The update that R132 chooses for the next edge. -/
def State.edgeKind (s : State) : EdgeKind :=
  if s.cal.commit == some .setr then .load
  else if !s.cal.started then .start
  else if s.corrDue then .corr
  else if s.cal.subsec == 32767 then .tick
  else .count

/-- The counts that the edge makes, or would make without a load: one, and the correction due (R129, R133). -/
def State.edgeCounts (s : State) : Nat :=
  if !s.cal.started then 0 else if s.corrDue then (if s.trim.cycleTrim.msb then 0 else 2) else 1

/-- The calendar after the edge's update, and whether the cycle wrapped. SET_PREV of a load is the time that the edge would
have given without the commit (R129). -/
def Cal.atEdge (load : Bool) (n : Nat) (c : Cal) : Cal × Bool :=
  let (shown, wrap) := { c with commit := if load then none else c.commit }.counts n
  let before := c.lsec.toNat * 32768 + c.subsec.toNat
  if load then ({ c.load 0b01 0 shown.lsec shown.subsec with started := true, before, jumped := true, tickDone := false }, false)
  else
    let ticks := decide (32768 ≤ c.subsec.toNat + n)
    ({ shown with started := true, before, jumped := ticks && (c.commit == some .sett || c.shift.isSome), tickDone := false }, wrap)

/-- The calendar after the next CK32 edge. -/
def State.calNext (s : State) : Cal × Bool := s.cal.atEdge (s.edgeKind == .load) s.edgeCounts

/-- The stamp of the next CK32 edge, for an instant that lies before it (R11, R142). DESIGN CHOICE (log 71): a command that
changes the calendar between the instant and that edge is not foreseen. -/
def State.nextStamp (s : State) : BitVec 64 := s.calNext.1.stamp

/-- The edge passes for the trim engine: edge 0 takes TRIM for the first cycle; every other edge counts a raw period, and on
the crystal moves the cycle on. A correction due at a load is owed (R132 to R134). -/
def Trim.edge (first load due lrc : Bool) (t : Trim) : Trim :=
  if first then { t with cycleTrim := t.trim }
  else { t with raw := t.raw + 1, cyclePos := if lrc then t.cyclePos else (t.cyclePos + 1) % trimCycle
                corrOwed := due && (load || (lrc && t.corrOwed)) }

/-- Write a switch-over stamp that is due, unless it is frozen (R150). -/
def BinIo.sampleFso (st : BitVec 64) (b : BinIo) : BinIo :=
  let b := if b.fsoBakDue then
      { b with fsoBakDue := false, fsoBakValid := true, fsoBak := if b.fsoBakValid then b.fsoBak else st }.mark 0x0148 0x01
    else b
  if b.fsoBatDue then
    { b with fsoBatDue := false, fsoBatValid := true, fsoBat := if b.fsoBatValid then b.fsoBat else st }.mark 0x0148 0x02
  else b

/-- Write the stamps that this edge samples (R147, R150). -/
def BinIo.sample (st : BitVec 64) (b : BinIo) : BinIo :=
  let b := b.sampleFso st
  match b.llDue with
  | some k => { b with llDue := none, llValid := true, llStamp := st, llLclk := k }.mark 0x0148 0x04
  | none => b

/-- A CK32 edge: the calendar's update with EV17 at a wrap, the trim engine, a new cycle, the stamps due, and the answers
that waited for a load or a shift (R118, R132, R147, R150, R445). -/
def State.ck32 (s : State) : State :=
  let k := s.edgeKind
  let (c, wrap) := s.calNext
  let ends := k == .load || decide (32768 ≤ s.cal.subsec.toNat + s.edgeCounts)
  let s' := ((s.onCal fun _ => c).onTrim (Trim.edge (!s.cal.started) (k == .load) s.corrDue s.cal.onLrc)).onBin fun b =>
    { b with setNow := [], evtNow := 0 }
  let s' := s'.when wrap fun s => (s.binSet 0x011B 0x08).raise 17
  let s' := s'.when (ends && s.cal.commit.isSome && s.cal.shift.isSome) (State.binSet 0x011B 0x10)
  (s'.onBin (BinIo.sample c.stamp)).when ends State.answerTime

/-! ## Reference measurement (R134 to R137) -/

/-- A write of TR_RUN: 1 arms a measurement, 0 aborts a running one with cause 6 (R134, R137).
DESIGN CHOICE (log 11). -/
def State.trRun (v : Bool) (s : State) : State :=
  if v then
    if s.trim.active then s.onTrim fun t => { t with run := true }
    else s.onTrim fun t => { t with run := true, active := true, openRaw := none, prog := 0, lastSeq := none, lastPps := none }
  else s.trimAbort 6

/-- Firmware starts a measurement again once the aborting condition has ended (R446). -/
def State.trimResume (s : State) : State :=
  if s.isOn .cpu && s.fw.started && s.fw.trimRestart && s.fw.trimRestarts && !s.cal.onLrc then
    (s.onFw fun f => { f with trimRestart := false }).trRun true
  else s

/-- k of the measurement, limited to 22 for line and 16 for PPS (R134). -/
def Trim.kEff (t : Trim) : Nat := min t.k.toNat (if t.src then 16 else 22)

/-- f_ref (R135). -/
def Trim.fref (t : Trim) : Nat := if t.src then 1 else if t.fnom then 60 else 50

/-- TR_CALC = (E − TR_COUNT)·2²³/E, rounded to the nearest integer, ties away from zero, before the clamp (R135). -/
def Trim.result (t : Trim) (count : Nat) : Int :=
  divRound (((2 ^ t.kEff * 32768 : Nat) - (count * t.fref : Nat) : Int) * 2 ^ 23) (2 ^ t.kEff * 32768)

/-- Completion of a measurement at the present edge: TR_RUN clears, and with TR_CONT the next measurement is open from this
edge (R135, R136). -/
def Trim.finish (t : Trim) (count : Nat) : Trim :=
  let v := t.result count
  let c := clampInt (-4096) 4095 v
  let w := BitVec.ofInt 13 c
  { t with count := BitVec.ofNat 32 count, calcd := w, clamped := c != v, valid := true
           trim := if t.auto then w else t.trim
           run := false, active := t.cont, openRaw := if t.cont then some t.raw else none, prog := 0 }

/-! ## Stamps (R144, R147, R150) -/

/-- Clear STAMPED with FIRST, and OVR, as the written bits say. A bit that an edge has set in this cycle (`now`) stays, and
FIRST holds that edge's stamp (R8, R144, R157). -/
def EventInput.clear (e : EventInput) (v now : Byte) (st : BitVec 64) : EventInput :=
  let e := if v.getLsbD 0 then (if now.getLsbD 0 then { e with first := st } else { e with stamped := false, first := 0 }) else e
  if v.getLsbD 1 && !now.getLsbD 1 then { e with ovr := false } else e

/-- Clear FSO and LL records as the written bits say. A bit set in this cycle (`now`) stays, with the stamp of this cycle (R8,
R147, R150). -/
def BinIo.clearFso (b : BinIo) (v now : Byte) (st : BitVec 64) : BinIo :=
  let b := if v.getLsbD 0 then (if now.getLsbD 0 then { b with fsoBak := st } else { b with fsoBakValid := false, fsoBak := 0 }) else b
  let b := if v.getLsbD 1 then (if now.getLsbD 1 then { b with fsoBat := st } else { b with fsoBatValid := false, fsoBat := 0 }) else b
  if v.getLsbD 2 && !now.getLsbD 2 then { b with llValid := false, llStamp := 0, llLclk := 0 } else b

/-- A switch-over is to be stamped at the CK32 edge at or after it (R150). -/
def State.stampFso (w : Fso) (s : State) : State :=
  s.onBin fun b => match w with
    | .bak => { b with fsoBakDue := true }
    | .bat => { b with fsoBatDue := true }

end Sys2Proof.Machine
end

