-- ==== Sys2Proof/Machine/LinkFrames.lean ====
section
/-! DEFINITION. The frames of the isolation link as bits: type codes, payload fields and CRC-8, and what a receiver reads
from the bits it is given (R62, R63, R65, R67). A frame is the list of its bits in the order they are sent. -/

namespace Sys2Proof

open Machine

/-- The bits of a value, most significant first (R63). -/
def bitsOf {n : Nat} (v : BitVec n) : List Bool := (List.range n).map v.getMsbD

/-- The value of bits given most significant first (R63). -/
def bitsNat (bits : List Bool) : Nat := bits.foldl (fun n b => 2 * n + b.toNat) 0

/-- The field of `n` bits that begins `off` bits into a payload (R65). -/
def fieldAt (p : List Bool) (off n : Nat) : BitVec n := BitVec.ofNat n (bitsNat ((p.drop off).take n))

/-- The mode codes of a REG frame (R53). -/
def RegMode.code : RegMode → BitVec 2
  | .run => 0b00 | .override => 0b01 | .softStop => 0b10

/-- The mode a code names; 0b11 is reserved (R53). -/
def RegMode.ofCode (c : BitVec 2) : Option RegMode := [RegMode.run, .override, .softStop].find? fun m => m.code == c

/-- The kind codes of a QA frame (R65). -/
def QaKind.code : QaKind → BitVec 2
  | .opened => 0b00 | .ended => 0b01 | .refused => 0b10

/-- The kind a code names; the table gives 0b11 none (R65). -/
def QaKind.ofCode (c : BitVec 2) : Option QaKind := [QaKind.opened, .ended, .refused].find? fun k => k.code == c

/-- The index codes of a CFG frame (R65). -/
def CfgReg.index : CfgReg → BitVec 4
  | .lossFrac => 0x1 | .plim => 0x2

/-- The setting an index names; every other index is reserved (R65). -/
def CfgReg.ofIndex (i : BitVec 4) : Option CfgReg := [CfgReg.lossFrac, .plim].find? fun r => r.index == i

/-- Type and payload of a downlink frame (R65). -/
def DownFrame.body : DownFrame → List Bool
  | .reg m d => bitsOf (0x1 : BitVec 4) ++ bitsOf m.code ++ [false, false] ++ bitsOf d
  | .quiet tag len => bitsOf (0x2 : BitVec 4) ++ bitsOf tag ++ bitsOf len
  | .cfg i v => bitsOf (0x3 : BitVec 4) ++ bitsOf i ++ bitsOf v

/-- Type and payload of an uplink frame (R65). -/
def UpFrame.body : UpFrame → List Bool
  | .tlm f => bitsOf (0x8 : BitVec 4) ++ bitsOf f.seq ++ bitsOf f.vline ++ bitsOf f.hvin ++ bitsOf f.temp ++ [f.ssr] ++ bitsOf f.peak
  | .zc f => bitsOf (0x9 : BitVec 4) ++ [f.positive, f.range, f.lock] ++ bitsOf f.seq ++ bitsOf f.stamp
  | .evt f => bitsOf (0xA : BitVec 4) ++ bitsOf f.code ++ bitsOf f.stamp
  | .qa f => bitsOf (0xB : BitVec 4) ++ bitsOf f.kind.code ++ bitsOf f.tag ++ bitsOf f.cause ++ bitsOf f.stamp

/-- A frame on the wire: the start bit 0, type and payload, and the CRC-8 over both (R63). -/
def frameBits (body : List Bool) : List Bool := false :: body ++ bitsOf (linkCrc body)

def DownFrame.bits (f : DownFrame) : List Bool := frameBits f.body
def UpFrame.bits (f : UpFrame) : List Bool := frameBits f.body

/-- Manchester code as half-bits: a 1 is high and then low, a 0 the opposite (R62). -/
def manchester (bits : List Bool) : List Bool := bits.flatMap fun b => [b, !b]

/-- The half-bits of a STOP symbol: a full bit time high, then one low (R64). -/
def stopSymbol : List Bool := [true, true, false, false]

/-- Type and payload of a received frame: a start bit, at least a type, and a CRC that fits (R63, R67). -/
def unframe (bits : List Bool) : Option (Nat × List Bool) :=
  match bits with
  | false :: rest =>
    let body := rest.take (rest.length - 8)
    if 12 ≤ rest.length ∧ bitsOf (linkCrc body) = rest.drop body.length then some (bitsNat (body.take 4), body.drop 4) else none
  | _ => none

/-- The downlink frame that bits spell; none for a CRC error, a reserved type or a reserved REG mode (R53, R65, R67). -/
def DownFrame.read (bits : List Bool) : Option DownFrame :=
  match unframe bits with
  | some (0x1, p) => if p.length = 16 then (RegMode.ofCode (fieldAt p 0 2)).map fun m => .reg m (fieldAt p 4 12) else none
  | some (0x2, p) => if p.length = 16 then some (.quiet (fieldAt p 0 3) (fieldAt p 3 13)) else none
  | some (0x3, p) => if p.length = 16 then some (.cfg (fieldAt p 0 4) (fieldAt p 4 12)) else none
  | _ => none

/-- The uplink frame that bits spell; none for a CRC error or a reserved type (R65, R67). DESIGN CHOICE (log 60): the
table gives QA kind 0b11 no meaning, and such a frame is read as none. -/
def UpFrame.read (bits : List Bool) : Option UpFrame :=
  match unframe bits with
  | some (0x8, p) =>
    if p.length = 48 then
      some (.tlm ⟨fieldAt p 0 8, fieldAt p 8 12, fieldAt p 20 10, fieldAt p 30 8, p.getD 38 false, fieldAt p 39 9⟩)
    else none
  | some (0x9, p) =>
    if p.length = 40 then
      some (.zc ⟨p.getD 0 false, p.getD 1 false, p.getD 2 false, fieldAt p 3 5, fieldAt p 8 32⟩)
    else none
  | some (0xA, p) => if p.length = 40 then some (.evt ⟨fieldAt p 0 8, fieldAt p 8 32⟩) else none
  | some (0xB, p) =>
    if p.length = 40 then
      (QaKind.ofCode (fieldAt p 0 2)).map fun k => .qa ⟨k, fieldAt p 2 3, fieldAt p 5 3, fieldAt p 8 32⟩
    else none
  | _ => none

/-- A receiver discards these bits (R67). -/
def discards (dir : LinkDir) (bits : List Bool) : Bool :=
  match dir with
  | .down => (DownFrame.read bits).isNone
  | .up => (UpFrame.read bits).isNone

end Sys2Proof
end

