-- ==== Sys2Proof/Machine/PortOps.lean ====
section
/-! DEFINITION. What a host access does beyond a stored value: rings, KEEP, the refusal records, the charger's enable, CFG
frames, and the clearing of counters that a read clears. -/

namespace Sys2Proof.Machine

/-! ## Refusal records (R199, R285) -/

/-- Record an access violation against berth `n`: kind 0 read, 1 write, 2 ring (R285, R299). -/
def State.violation (p : Port) (n : Fin 4) (a kind : Nat) (s : State) : State :=
  (s.onBerths fun x => { x with av :=
    { stat := x.av.stat ||| (1#4 <<< n.val), cnt := x.av.cnt.set n (satInc x.av.cnt[n]), addr := BitVec.ofNat 16 a
      port := BitVec.ofNat 2 (portCode p), berth := BitVec.ofNat 2 n.val, kind := BitVec.ofNat 2 kind } }).raise (52 + n.val)

/-- Record a refusal under check 2: ACC_OFF, ACC_ADDR, ACC_PORT and EV32 (R199, R214). -/
def State.accOff (p : Port) (a : Nat) (s : State) : State :=
  (s.onSpi fun x => { x with flags := x.flags ||| (1#8 <<< portCode p), accAddr := BitVec.ofNat 16 a
                             accPort := BitVec.ofNat 2 (portCode p) }).raiseWhenHif 32

/-! ## Doorbells and KEEP (R180 to R183) -/

/-- An accepted ring: PEND sets, ACK and RESP_RDY clear, the doorbell wakes (R181, R183, R279). -/
def State.ringAccept (n : Fin 4) (s : State) : State :=
  ((s.onDom fun d => { d with bells := d.bells.set n { d.bells[n] with pend := true, ack := false }
                              ringOrder := d.ringOrder ++ [n] }).onBerth n
    fun b => { b with respRdy := false }).wake (12 + n.val) [.cpu, .hif, .memB]

/-- A ring of berth `n` through port `p` (R181, R182). -/
def State.ring (p : Port) (n : Fin 4) (s : State) : State :=
  if s.bound p n.val then
    if s.dom.bells[n].pend then
      s.onDom fun d => { d with bells := d.bells.set n { d.bells[n] with cnt := satInc d.bells[n].cnt } }
    else s.ringAccept n
  else s.violation p n (0x0240 + 4 * n.val) 2

/-- The domains a KEEP value names (R185), with what R159 adds for MEM_B. -/
def keepDomains (v : BitVec 3) : List Domain :=
  (if v.getLsbD 0 then [.cpu] else []) ++ (if v.getLsbD 2 then [.hif] else []) ++
    (if v.getLsbD 1 then [.hif, .memB] else [])

/-- Store a KEEP value in the register of port `p`, and raise the KEEP source for the domains that are not ON (R172,
R180). -/
def State.setKeep (p : Port) (v : BitVec 3) (s : State) : State :=
  let s := s.onDom fun d => match p with
    | .csA => { d with keepA := v } | .csB => { d with keepB := v } | .tw => { d with keepW := v }
  let off := (keepDomains v).filter fun d => !s.isOn d
  if off.isEmpty then s else s.wake 17 off

/-! ## Charger enable (R96, R101) -/

/-- The conditions of R96. -/
def State.chargerMayRun (s : State) : Bool := s.isOn .pwr && s.power.chgEn && s.power.cells != 0

/-- After a change of the conditions of R96: out of OFF into WAIT, or to OFF (R101). A hold of PWR's pads keeps CHSW at its
held level (R29, R167). -/
def State.chargerGate (s : State) : State :=
  if s.chargerMayRun then
    if s.power.chg = .off then s.onPower fun p =>
      { p with chg := .wait, chswZ := s.dom.padHeld.getLsbD 0, preMs := 0, fastMs := 0 }
    else s
  else if s.power.chg = .off then s else s.onPower Power.chargerOff

/-- A write of 0x0382: CHG_EN and SR_EN (R96, R115). -/
def State.chgEnable (v : Byte) (s : State) : State :=
  (s.onPower fun p => { p with chgEn := v.getLsbD 0, srEn := v.getLsbD 1
                               srg := p.srg && v.getLsbD 1 }).chargerGate

/-! ## CFG frames (R86) -/

/-- The value a CFG frame carries, after the limit of its register (R86). -/
def Link.cfgValue (l : Link) : CfgReg → BitVec 12
  | .lossFrac => BitVec.ofNat 12 (max 16 (min 48 l.lossFrac.toNat))
  | .plim => BitVec.ofNat 12 (max 8 (min 96 l.plim.toNat))

/-- Downlink frames run: the core die sends REG frames (R72). -/
def Link.downlinkRuns (l : Link) : Bool := l.state == .training || l.state == .up

/-- Start the next downlink frame once none is in flight: a due REG frame, then QUIET, then CFG. A STOP symbol goes before
them all (R64, R68). -/
def Link.send (l : Link) : Link :=
  if l.downFlight.isSome || l.stopSymbolDue || !l.downlinkRuns then l
  else if l.regDue then { l with regDue := false, downFlight := some (.reg l.regMode l.regDemand) }
  else match l.quietDue, l.cfgQ with
    | q :: rest, _ => { l with quietDue := rest, downFlight := some (.quiet q.tag q.len) }
    | [], c :: rest => { l with cfgQ := rest, downFlight := some (.cfg c.1 c.2) }
    | [], [] => l

/-- Queue a CFG frame while downlink frames run (R86). -/
def Link.sendCfg (r : CfgReg) (l : Link) : Link :=
  if l.downlinkRuns then { l with cfgQ := l.cfgQ ++ [(r.index, l.cfgValue r)] }.send else l

/-- A write of LOSS_FRAC or PLIM (R86). -/
def State.cfgStore (r : CfgReg) (v : Byte) (s : State) : State :=
  s.onLink fun l => (match r with
    | .lossFrac => { l with lossFrac := v }
    | .plim => { l with plim := v }).sendCfg r

/-! ## Result rings (R282) and events (R304) -/

/-- A write of RING_RD; dropped when it would leave more than 128 records unread (R282). -/
def Berth.setRingRd (v : Byte) (b : Berth) : Berth :=
  if 128 < (b.ringWr - v).toNat then b else { b with ringRd := v }

/-- A byte of a 96-bit event field with `b` in place of byte `k`. -/
def setEvByte (v : BitVec 96) (k : Nat) (b : Byte) : BitVec 96 :=
  (v &&& ~~~(0xFF#96 <<< (8 * k))) ||| (b.setWidth 96 <<< (8 * k))

/-- Clear pending events of berth `n` (R304). -/
def State.pendClear (n : Fin 4) (k : Nat) (mask : Byte) (s : State) : State :=
  s.onEv fun e => { e with pend := e.pend.set n (e.pend[n] &&& ~~~(mask.setWidth 96 <<< (8 * k))) }

/-- Write a byte of IEN of berth `n` (R314). -/
def State.ienWrite (n : Fin 4) (k : Nat) (b : Byte) (s : State) : State :=
  s.onEv fun e => { e with ien := e.ien.set n (setEvByte e.ien[n] k b) }

end Sys2Proof.Machine
end

