-- ==== Sys2Proof/Machine/Registers.lean ====
section
/-! DEFINITION. The host map: what each byte reads as, what a write of a byte does, which check of R198 decides it, the
captures of RS and RC fields, and a transfer's bytes one after another. -/

namespace Sys2Proof.Machine

/-! ## What each byte reads as -/

/-- Stretches of bytes at their base addresses. -/
abbrev Segs := List (Nat × List Byte)

/-- The byte at an address; an address in no stretch is reserved and reads 0 (R2). -/
def segAt : Segs → Nat → Byte
  | [], _ => 0
  | (b, bs) :: rest, a => if b ≤ a ∧ a < b + bs.length then bs.getD (a - b) 0 else segAt rest a

/-- A byte of bit fields: (value, shift) pairs. -/
def pack (fs : List (Nat × Nat)) : Byte := BitVec.ofNat 8 (fs.map fun f => f.1 * 2 ^ f.2).sum

/-- A flag as a number. -/
def bit (b : Bool) : Nat := if b then 1 else 0

/-- The identity page (R206). -/
def State.identitySegs (s : State) (p : Port) : Segs :=
  [(0x0000, [0x20, 0x46, 0xB1]), (0x0004, [s.live p]), (0x0006, leBytes 2 (s.evsum p).toNat), (0x0008, [s.spi.flags]),
   (0x000A, leBytes 2 s.spi.accAddr.toNat), (0x000C, [s.spi.accPort.setWidth 8]), (0x000D, [s.spi.clashCnt])]

/-- Staging and calendar status (R157); the reserved bits of the staged fields read 0. -/
def Cal.stageSegs (c : Cal) : Segs :=
  [(0x0112, [c.secS &&& 0x7F, c.minS &&& 0x7F, c.hourS &&& 0x3F, 0, c.dayS &&& 0x3F, c.monthS &&& 0x1F, c.yearS,
      c.centS &&& 0x03, 0,
      byteOf [c.commit.isSome, c.shift.isSome, c.calRej, c.centWrap, c.shiftCxl, c.xtalFail, c.onLrc]]),
   (0x0120, leBytes 8 c.setLast.toNat ++ leBytes 8 c.setPrev.toNat)]

/-- Trim registers (R157). -/
def Trim.segs (t : Trim) : Segs :=
  [(0x0130, leBytes 2 t.trim.toNat ++ [byteOf [t.run, t.src, t.fnom, t.auto, t.cont], t.k.setWidth 8]),
   (0x0134, leBytes 4 t.count.toNat ++ leBytes 4 t.prog.toNat ++
      leBytes 2 (t.calcd.toNat + 32768 * bit t.clamped) ++ [pack [(t.cause.toNat, 0), (bit t.valid, 3)], 0])]

/-- Tick, SQW, SYSON, PWRKEY, grants and stamps (R157). -/
def BinIo.segs (b : BinIo) : Segs :=
  [(0x0140, [pack [(b.tickSel.toNat, 0), (bit b.tickEn, 7)], pack [(b.sqwSel.toNat, 0), (bit b.sqwEn, 7)],
      byteOf [b.sysonOn, b.sysonForcedOff], b.sysonAuto.setWidth 8, pack [(b.pkLong.toNat, 0), (bit b.pkHardoff, 3)],
      pack [(b.pkStat.toNat, 0), (bit b.pkLevel, 3)], pack [(b.rtcGrant.toNat, 0), (b.sysonGrant.toNat, 4)],
      b.chgGrant.setWidth 8, byteOf [b.fsoBakValid, b.fsoBatValid, b.llValid]]),
   (0x0150, leBytes 8 b.llStamp.toNat ++ leBytes 4 b.llLclk.toNat),
   (0x0160, leBytes 8 b.fsoBak.toNat ++ leBytes 8 b.fsoBat.toNat),
   (0x0170, b.cmps.toList.flatMap fun c => [pack [(c.thr.toNat, 0), (c.hyst.toNat, 6)],
      pack [(c.edge.toNat, 0), (c.filt.toNat, 2), (bit c.out, 4), (bit c.tripped, 5)]]),
   (0x0180, b.evts.toList.flatMap fun e => [pack [(e.edge.toNat, 0), (e.filt.toNat, 2), (bit e.pps, 4)],
      byteOf [e.stamped, e.ovr, e.level]] ++ leBytes 2 e.count.toNat ++ [0, 0, 0, 0] ++ leBytes 8 e.first.toNat)]

/-- The Binnacle page but the scratch (R157). -/
def State.binSegs (s : State) : Segs :=
  (0x0100, calendarBytes s.cal.lsec s.cal.subsec) :: s.cal.stageSegs ++ s.trim.segs ++ s.bin.segs

/-- XO16 runs while LOG or PWR is ON or PLLC is requested, unless it failed to start (R170, R171). -/
def Domains.xo16Runs (d : Domains) : Bool := !d.xo16Fail && (d.log.st == .on || d.pwr.st == .on || d.pllcReq)

/-- The power-domain page (R185). PLLA runs while LOG is ON (R170). -/
def Domains.segs (d : Domains) : Segs :=
  [(0x0200, [pack [(pdCode d.memM.st, 0), (pdCode d.memB.st, 2), (pdCode d.log.st, 4), (pdCode d.gauge.st, 6)],
      pack [(pdCode d.pwr.st, 0), (pdCode d.hif.st, 2), (bit (d.cpu.st == .on), 4)], d.padHeld.setWidth 8, 0,
      d.rstCause.setWidth 8, d.rstHist] ++ leBytes 2 d.pdLow.toNat ++ leBytes 4 d.wakeFlags.toNat ++
      leBytes 4 d.wakeLast.toNat ++ [d.keepA.setWidth 8, d.keepB.setWidth 8, d.keepW.setWidth 8, 0] ++
      leBytes 4 d.wakePend.toNat ++ leBytes 4 d.wakeEn.toNat ++ d.idle.toList ++ [0, 0, d.bind]),
   (0x0230, [byteOf [d.xo16Runs, d.pllcLock, d.log.st == .on, d.xo16Fail, d.cpuOnPllc]]),
   (0x0240, d.bells.toList.flatMap fun b => [byteOf [false, b.pend, b.ack], b.cnt, 0, 0])]

/-- The gauge page (R423). GMOD counts LRC while the Binnacle does. -/
def State.gaugeSegs (s : State) : Segs :=
  let g := s.gauge
  [(0x0300, sleBytes 6 g.acc ++ [0, 0] ++ sleBytes 4 g.iLast ++ leBytes 4 g.convCnt.toNat),
   (0x0310, leBytes 2 g.socReg.toNat ++
      [byteOf [g.stateValid, g.restored, g.restMet, s.cal.onLrc, g.ovr, g.tsOpen, g.tsShort],
       pack [(g.dstate, 0), (bit g.eoc, 2), (g.learn.code, 3)]] ++
      leBytes 2 g.restTime.toNat ++ [g.lastDisq.setWidth 8, 0] ++ sleBytes 6 g.accA ++ leBytes 2 g.socA.toNat ++
      leBytes 4 g.socK.toNat ++ leBytes 2 g.qFull.toNat ++ leBytes 2 g.learnCnt.toNat ++ leBytes 4 g.saveSeq.toNat ++
      leBytes 2 g.vcell.toNat ++ sleBytes 2 g.tpack)]

/-- The power-path page (R115). -/
def Power.segs (p : Power) (noTs : Bool) : Segs :=
  [(0x0380, [pack [(srcCode p.src, 0), (bit p.adpValid, 2), (bit p.auxValid, 3), (bit p.batValid, 4), (bit p.adpOv, 5)],
      pack [(p.chg.code, 0), (p.zone.code, 4), (bit noTs, 7)], byteOf [p.chgEn, p.srEn], 0,
      pack [(p.cells.toNat, 0), (bit p.chem, 2)], p.vreg, p.ichg, p.ipre, p.iterm,
      pack [(p.tfast.toNat, 0), (p.tpre.toNat, 4)], p.batcut, byteOf [p.bakMode]] ++ leBytes 2 p.ichgMeas.toNat ++
      [p.chgFault.setWidth 8, p.srcCount, byteOf [p.srcChanged, p.aonWasBak, p.bakLow, p.batCutSeen]])]

/-- The link registers (R86). LCLK is locked while the link is UP (R56). DEDUCED (log 16): DC_MODE and CONV_RUN show the
line die's own state while the link is not DOWN. -/
def Link.segs (l : Link) (d : LineDie) : Segs :=
  let heard := l.state != .down
  [(0x03C0, [pack [(l.state.code, 0), (bit l.ssr, 2), (bit (l.state == .up), 3), (bit l.linePresent, 4),
      (bit (heard && d.dc), 5), (bit (heard && d.switching && !d.quietOpen), 6), (bit l.window.isSome, 7)], byteOf [l.ltpEn], l.qwDroop, 0] ++ leBytes 2 l.tlmLost.toNat ++
      leBytes 2 l.crcErr.toNat ++ [l.qwLast, l.lossFrac, l.plim, 0] ++ leBytes 4 l.linePeriod.toNat ++
      leBytes 4 l.zcPos.toNat ++ leBytes 4 l.zcNeg.toNat ++ leBytes 2 l.hvinV.toNat ++ leBytes 2 l.vlinePk.toNat ++
      [l.ldTemp, l.ldFault, byteOf [l.ldVldOv], 0] ++ leBytes 4 l.llsLast.toNat ++ leBytes 2 l.lossCount.toNat)]

/-- The twelve bytes of an event field (R314). -/
def eventBytes (v : BitVec 96) : List Byte := leBytes 12 v.toNat

/-- The ROUTE bytes (R314). -/
def Events.routeBytes (e : Events) : List Byte :=
  (List.range 48).map fun k => pack [((e.route.toList.getD (2 * k) 0).toNat, 0), ((e.route.toList.getD (2 * k + 1) 0).toNat, 4)]

/-- The event-controller page (R314). -/
def State.eventSegs (s : State) : Segs :=
  [(0x0400, s.ev.routeBytes), (0x0430, [byteOf [s.ev.routeOk], byteOf [s.ev.irqModeA, s.ev.irqModeB], s.ev.irqSel,
      s.irqPins.setWidth 8] ++ eventBytes s.ev.raised), (0x0440, eventBytes s.ev.wakeEn)] ++
  (List.finRange 4).map fun n => (0x0480 + 0x20 * n.val, eventBytes s.ev.pend[n] ++ eventBytes s.ev.ien[n] ++ [s.ev.merged[n]])

/-- Bus recovery is due or runs: STUCK is set, HIF is ON and a controller transaction is pending or in progress (R235). -/
def State.recovering (s : State) : Bool := s.tw.stat.getLsbD 1 && s.isOn .hif && (s.tw.sbsPending || s.tw.sbsActive)

/-- The two-wire registers (R244) and the access-violation log (R299). -/
def State.busSegs (s : State) : Segs :=
  let t := s.tw
  let v := s.berths.av
  [(0x0500, [t.addr.setWidth 8, byteOf [t.sleepAsync, t.pecReq, t.sbsFast], t.stat,
      byteOf [t.hscl && t.phase != .stretched, t.hsda, t.busy, t.sbsActive, s.recovering]] ++ leBytes 2 t.ptr.toNat ++
      [t.rlen, t.protoCause.setWidth 8, t.pecCnt, t.tlowCnt, t.arbCnt, t.recovCnt, t.sbsCause.setWidth 8]),
   (0x0520, [pack [(t.pbSpeed.toNat, 0), (t.pbFilt.toNat, 2)], t.pbCause.setWidth 8, byteOf [t.pbFail, t.probe.isSome],
      t.pbRecovCnt]),
   (0x0540, [v.stat.setWidth 8, 0] ++ v.cnt.toList),
   (0x0548, leBytes 2 v.addr.toNat ++ [pack [(v.port.toNat, 0), (v.berth.toNat, 2), (v.kind.toNat, 4)]])]

/-- The control block of a berth, from its offset +0x200 (R300). -/
def Berth.segs (base : Nat) (b : Berth) : Segs :=
  [(base + 0x200, [b.ringWr, b.ringRd, b.ringThr, b.ringOvfCnt,
      byteOf [b.respRdy, b.reqLock, b.ringOvf, b.sealed, b.macLock, b.pecReq, b.charterPend], b.lastSeq, b.lastStatus, 0] ++
      leBytes 4 b.macCtr.toNat ++ leBytes 2 b.rights.toNat ++ leBytes 2 b.logUsed.toNat ++ [b.memUsed])]

/-- Berth that owns an address of a window or a ring (R245). -/
def owner (a : Nat) : Option (Fin 4) :=
  if 0x1000 ≤ a ∧ a < 0x2000 then some (Fin.ofNat 4 ((a - 0x1000) / 0x400))
  else if 0x2000 ≤ a ∧ a < 0x6000 then some (Fin.ofNat 4 ((a - 0x2000) / 0x1000))
  else none

/-- A byte of memory: a mailbox or a ring (R191, R245). -/
def isMem (a : Nat) : Bool := (0x1000 ≤ a && a < 0x2000 && a % 0x400 < 0x200) || (0x2000 ≤ a && a < 0x6000)

/-- A byte of the scratch (R154). -/
def isScratch (a : Nat) : Bool := 0x01C0 ≤ a && a < 0x0200

/-- The byte an address reads as when it is served, before RS and RC captures. -/
def State.byteAt (s : State) (p : Port) (a : Nat) : Byte :=
  if isScratch a then memRead s.bin.scratch a
  else if isMem a then memRead s.berths.mem a
  else if a < 0x0100 then segAt (s.identitySegs p) a
  else if a < 0x0200 then segAt s.binSegs a
  else if a < 0x0300 then segAt s.dom.segs a
  else if a < 0x0380 then segAt s.gaugeSegs a
  else if a < 0x03C0 then segAt (s.power.segs s.noTs) a
  else if a < 0x0400 then segAt (s.link.segs s.line) a
  else if a < 0x0500 then segAt s.eventSegs a
  else if a < 0x0600 then segAt s.busSegs a
  else match owner a with
    | some n => segAt ((s.berth n).segs (windowBase n.val)) a
    | none => 0

/-! ## Captures (R1, R122, R192) -/

/-- RS blocks by base and length (R86, R157, R423), and EVSUM, which is sampled when its first byte is judged (R206). -/
def rsBlocks : List (Nat × Nat) :=
  [(0x0006, 2), (0x0100, 16), (0x0120, 8), (0x0128, 8), (0x0134, 4), (0x0150, 8), (0x0158, 4), (0x0160, 8), (0x0168, 8),
   (0x0188, 8), (0x0198, 8), (0x01A8, 8), (0x01B8, 8), (0x0300, 16), (0x03CC, 12), (0x03E0, 4)]

/-- RC fields by base and length. -/
def rcFields : List (Nat × Nat) :=
  [(0x000D, 1), (0x0182, 2), (0x0192, 2), (0x01A2, 2), (0x01B2, 2), (0x0241, 1), (0x0245, 1), (0x0249, 1), (0x024D, 1),
   (0x038F, 1), (0x03C4, 2), (0x03C6, 2), (0x0498, 1), (0x04B8, 1), (0x04D8, 1), (0x04F8, 1), (0x0508, 1), (0x0509, 1)] ++
  [(0x050A, 1), (0x050B, 1), (0x0523, 1), (0x0542, 1), (0x0543, 1), (0x0544, 1), (0x0545, 1), (0x1203, 1), (0x1603, 1),
   (0x1A03, 1), (0x1E03, 1)]

/-- The block or field that holds an address. -/
def blockOf (bs : List (Nat × Nat)) (a : Nat) : Option (Nat × Nat) := bs.find? fun b => b.1 ≤ a && a < b.1 + b.2

/-- Subtract a captured count from a count: a count hardware added since stays (R1). -/
def subCount {n : Nat} (v : BitVec n) (k : Nat) : BitVec n := BitVec.ofNat n (v.toNat - k)

/-- Subtract a capture from the field at `base` (R1, R192). -/
def State.rcClear (base v : Nat) (s : State) : State :=
  let n (b : Nat) : Fin 4 := Fin.ofNat 4 b
  match base with
  | 0x000D => s.onSpi fun x => { x with clashCnt := subCount x.clashCnt v }
  | 0x038F => s.onPower fun x => { x with srcCount := subCount x.srcCount v }
  | 0x03C4 => s.onLink fun x => { x with tlmLost := subCount x.tlmLost v }
  | 0x03C6 => s.onLink fun x => { x with crcErr := subCount x.crcErr v }
  | 0x0508 => s.onTw fun x => { x with pecCnt := subCount x.pecCnt v }
  | 0x0509 => s.onTw fun x => { x with tlowCnt := subCount x.tlowCnt v }
  | 0x050A => s.onTw fun x => { x with arbCnt := subCount x.arbCnt v }
  | 0x050B => s.onTw fun x => { x with recovCnt := subCount x.recovCnt v }
  | 0x0523 => s.onTw fun x => { x with pbRecovCnt := subCount x.pbRecovCnt v }
  | _ =>
    if base < 0x0200 then
      let k := n ((base - 0x0182) / 0x10)
      s.onBin fun x => { x with evts := x.evts.set k { x.evts[k] with count := subCount x.evts[k].count v } }
    else if base < 0x0300 then
      let k := n ((base - 0x0241) / 4)
      s.onDom fun x => { x with bells := x.bells.set k { x.bells[k] with cnt := subCount x.bells[k].cnt v } }
    else if base < 0x0500 then
      let k := n ((base - 0x0498) / 0x20)
      s.onEv fun x => { x with merged := x.merged.set k (subCount x.merged[k] v) }
    else if base < 0x0600 then
      let k := n (base - 0x0542)
      s.onBerths fun x => { x with av := { x.av with cnt := x.av.cnt.set k (subCount x.av.cnt[k] v) } }
    else s.onBerth (n ((base - 0x1203) / 0x400)) fun x => { x with ringOvfCnt := subCount x.ringOvfCnt v }

/-! ## The checks of R198 -/

/-- What the checks of R198 decide for a byte. -/
inductive Verdict where
  | violation (n : Fin 4)
  | off
  | hole
  | refused
  | served
  deriving DecidableEq, Repr

/-- The page's domain is ON, and HIF for 0x0400 upward (R197, R198). -/
def State.pageOn (s : State) (a : Nat) : Bool :=
  if a < 0x0300 then true
  else if a < 0x0380 then s.isOn .gauge
  else if a < 0x0400 then s.isOn .pwr
  else s.isOn .hif && (if 0x1000 ≤ a ∧ a < 0x6000 then s.isOn .memB else true)

/-- A port is named by a grant field (R98, R155). -/
def granted (g : BitVec 3) (p : Port) : Bool := g.getLsbD (portCode p)

/-- A write that check 4 refuses (R98, R155, R180, R244). -/
def State.writeRefused (s : State) (p : Port) (a : Nat) : Bool :=
  if (0x0110 ≤ a ∧ a ≤ 0x013F) ∨ a = 0x0148 then !granted s.bin.rtcGrant p
  else if 0x0142 ≤ a ∧ a ≤ 0x0145 then !granted s.bin.sysonGrant p
  else if a = 0x0382 ∨ (0x0384 ≤ a ∧ a ≤ 0x038B) then !granted s.bin.chgGrant p
  else if a = 0x0210 then p != .csA
  else if a = 0x0211 then p != .csB
  else if a = 0x0212 then p != .tw
  else if a = 0x0501 then p != .tw
  else false

/-- An address of a berth's event block that this port may not reach (R313). -/
def State.eventRefused (s : State) (p : Port) (a : Nat) : Bool :=
  0x0480 ≤ a && a < 0x0500 && !s.bound p ((a - 0x0480) / 0x20)

/-- The first check of R198 that applies to a byte. -/
def State.judge (s : State) (p : Port) (a : Nat) (write : Bool) : Verdict :=
  match (owner a).filter fun n => !s.bound p n.val with
  | some n => .violation n
  | none =>
    if !s.pageOn a then .off
    else if (0x0600 ≤ a ∧ a < 0x1000) ∨ 0x6000 ≤ a then .hole
    else if s.eventRefused p a || (write && s.writeRefused p a) then .refused
    else .served

/-! ## What a served write does -/

/-- A write to byte `k` of a comparator's pair (R157). -/
def Comparator.write (k : Nat) (v : Byte) (c : Comparator) : Comparator :=
  if k = 0 then { c with thr := v.setWidth 6, hyst := (v >>> 6).setWidth 2 }
  else { c with edge := v.setWidth 2, filt := (v >>> 2).setWidth 2, tripped := c.tripped && !v.getLsbD 5 }

/-- A write to byte `k` of an event input's block; PPS exists on EVT3 only (R157). -/
def EventInput.write (evt3 : Bool) (k : Nat) (v now : Byte) (st : BitVec 64) (e : EventInput) : EventInput :=
  if k = 0 then { e with edge := v.setWidth 2, filt := (v >>> 2).setWidth 2, pps := evt3 && v.getLsbD 4 }
  else if k = 1 then e.clear v now st else e

/-- A write to the Binnacle page but the two-byte fields and the scratch (R157). `w` leaves out the W1C bits that hardware has
set in this cycle (R8); at the edge of a hard-off, SYSON_ON stays 0 (the corner of R149). -/
def State.writeBin (a : Nat) (v : Byte) (s : State) : State :=
  let w := s.bin.unset a v
  let now := s.bin.setMask a
  if 0x0112 ≤ a ∧ a ≤ 0x0119 then s.onCal fun c => c.stage a v
  else if a = 0x011A then s.calCmd v
  else if a = 0x011B then
    s.onCal fun c => { c with calRej := c.calRej && !w.getLsbD 2, centWrap := c.centWrap && !w.getLsbD 3
                              shiftCxl := c.shiftCxl && !w.getLsbD 4, xtalFail := c.xtalFail && !w.getLsbD 5 }
  else if a = 0x0132 then
    (s.onTrim fun t => { t with src := v.getLsbD 1, fnom := v.getLsbD 2, auto := v.getLsbD 3, cont := v.getLsbD 4 }).trRun
      (v.getLsbD 0)
  else if a = 0x0133 then s.onTrim fun t => { t with k := v.setWidth 5 }
  else if a = 0x0140 then s.onBin fun b => { b with tickSel := v.setWidth 5, tickEn := v.getLsbD 7 }
  else if a = 0x0141 then s.onBin fun b => { b with sqwSel := v.setWidth 4, sqwEn := v.getLsbD 7 }
  else if a = 0x0142 then
    s.onBin fun b => { b with sysonOn := v.getLsbD 0 && !now.getLsbD 1
                              sysonForcedOff := b.sysonForcedOff && !w.getLsbD 1 }
  else if a = 0x0143 then s.onBin fun b => { b with sysonAuto := v.setWidth 6 }
  else if a = 0x0144 then s.onBin fun b => { b with pkLong := v.setWidth 3, pkHardoff := v.getLsbD 3 }
  else if a = 0x0145 then s.onBin fun b => { b with pkStat := b.pkStat &&& ~~~(w.setWidth 3) }
  else if a = 0x0148 then s.onBin fun b => b.clearFso v now s.cal.stamp
  else if 0x0170 ≤ a ∧ a < 0x0178 then
    let x : Fin 4 := Fin.ofNat 4 ((a - 0x0170) / 2)
    s.onBin fun b => { b with cmps := b.cmps.set x (b.cmps[x].write (a % 2) w) }
  else if 0x0180 ≤ a ∧ a < 0x01C0 then
    let n : Fin 4 := Fin.ofNat 4 ((a - 0x0180) / 0x10)
    s.onBin fun b => { b with evts := b.evts.set n (b.evts[n].write (n == 3) (a % 0x10) v now s.cal.stamp) }
  else s

/-- A write to the power-domain page but WAKE_FLAGS (R185). -/
def State.writeDom (p : Port) (a : Nat) (v : Byte) (s : State) : State :=
  if a = 0x0205 then s.onDom fun d => { d with rstHist := d.rstHist &&& ~~~v }
  else if 0x0210 ≤ a ∧ a ≤ 0x0212 then s.setKeep p (v.setWidth 3)
  else if a = 0x0230 then s.onDom fun d => { d with xo16Fail := d.xo16Fail && !v.getLsbD 3 }
  else if 0x0240 ≤ a ∧ a < 0x0250 ∧ a % 4 = 0 ∧ v.getLsbD 0 then s.ring p (Fin.ofNat 4 ((a - 0x0240) / 4))
  else s

/-- A write to the power-path page (R97, R115). -/
def State.writePower (a : Nat) (v : Byte) (s : State) : State :=
  if a = 0x0382 then s.chgEnable v
  else if 0x0384 ≤ a ∧ a ≤ 0x0389 ∧ s.power.chgEn then s
  else if a = 0x038E then s.onPower fun p => { p with chgFault := p.chgFault &&& ~~~(v.setWidth 5) }
  else s.onPower fun p => match a with
    | 0x0384 => { p with cells := v.setWidth 2, chem := v.getLsbD 2 }
    | 0x0385 => { p with vreg := v } | 0x0386 => { p with ichg := v } | 0x0387 => { p with ipre := v }
    | 0x0388 => { p with iterm := v } | 0x0389 => { p with tfast := v.setWidth 4, tpre := (v >>> 4).setWidth 4 }
    | 0x038A => { p with batcut := v } | 0x038B => { p with bakMode := v.getLsbD 0 }
    | 0x0390 => { p with srcChanged := p.srcChanged && !v.getLsbD 0, aonWasBak := p.aonWasBak && !v.getLsbD 1,
                         bakLow := p.bakLow && !v.getLsbD 2, batCutSeen := p.batCutSeen && !v.getLsbD 3 }
    | _ => p

/-- A write to the link registers (R86). -/
def State.writeLink (a : Nat) (v : Byte) (s : State) : State :=
  if a = 0x03C9 then s.cfgStore .lossFrac v
  else if a = 0x03CA then s.cfgStore .plim v
  else s.onLink fun l => match a with
    | 0x03C1 => { l with ltpEn := v.getLsbD 0 } | 0x03C2 => { l with qwDroop := v }
    | 0x03DD => { l with ldFault := l.ldFault &&& ~~~v } | 0x03DE => { l with ldVldOv := l.ldVldOv && !v.getLsbD 0 }
    | _ => l

/-- A write to a berth's event block, or to the two-wire registers and the violation log (R244, R299, R314). -/
def State.writeHif (a : Nat) (v : Byte) (s : State) : State :=
  if 0x0480 ≤ a ∧ a < 0x0500 then
    let n : Fin 4 := Fin.ofNat 4 ((a - 0x0480) / 0x20)
    let k := a % 0x20
    if k < 12 then s.pendClear n k v else if k < 24 then s.ienWrite n (k - 12) v else s
  else if a = 0x0540 then s.onBerths fun x => { x with av := { x.av with stat := x.av.stat &&& ~~~(v.setWidth 4) } }
  else s.onTw fun t => match a with
    | 0x0501 => { t with sleepAsync := v.getLsbD 0, pecReq := v.getLsbD 1, sbsFast := v.getLsbD 2 }
    | 0x0502 => { t with stat := t.stat &&& ~~~v }
    | 0x0522 => { t with pbFail := t.pbFail && !v.getLsbD 0 }
    | _ => t

/-- A write to a berth's control block (R282, R300). -/
def Berth.write (off : Nat) (v : Byte) (b : Berth) : Berth :=
  match off with
  | 0x201 => b.setRingRd v
  | 0x202 => { b with ringThr := v }
  | 0x204 => { b with respRdy := b.respRdy && !v.getLsbD 0, reqLock := b.reqLock && !v.getLsbD 1
                      ringOvf := b.ringOvf && !v.getLsbD 2 }
  | _ => b

/-- A write to a mailbox or a ring; the request mailbox is closed while PEND is 1 (R276). -/
def State.writeMem (n : Fin 4) (a : Nat) (v : Byte) (s : State) : State :=
  if 0x1000 ≤ a && a < 0x2000 && a % 0x400 < 0x100 && s.dom.bells[n].pend then
    (s.onBerth n fun b => { b with reqLock := true }).raise 47
  else s.onBerths fun x => { x with mem := memWrite x.mem a v }

/-- The latest byte a transfer has written at an address. -/
def wroteAt (w : List (Nat × Byte)) (a : Nat) : Option Byte := (w.find? fun x => x.1 == a).map (·.2)

/-- The fields wider than a byte that a host writes: base and length (R191). -/
def wideFields : List (Nat × Nat) := [(0x011C, 2), (0x0130, 2), (0x0208, 4)]

/-- The effect of a wide field written whole (R130, R133, R185, R191). A write to TRIM in the cycle in which a completion loads
it is discarded (R136). -/
def State.writeWide (base v : Nat) (s : State) : State :=
  match base with
  | 0x011C => s.shiftCmd (BitVec.ofNat 16 v)
  | 0x0130 => if s.bin.setMask 0x0130 = 0 then s.onTrim fun t => { t with trim := BitVec.ofNat 13 v } else s
  | _ => s.onDom fun d => { d with wakeFlags := d.wakeFlags &&& ~~~(BitVec.ofNat 32 v) }

/-- A served write of one byte, `w` being what the transfer has written before it (R191). -/
def State.writeByte (p : Port) (w : List (Nat × Byte)) (a : Nat) (v : Byte) (s : State) : State :=
  match blockOf wideFields a with
  | some (base, len) =>
    if a = base + len - 1 then
      let bs := (List.range (len - 1)).map fun k => wroteAt w (base + k)
      if bs.all Option.isSome then s.writeWide base (leNat (bs.map (·.getD 0) ++ [v])) else s
    else s
  | none =>
    if isScratch a then s.onBin fun b => { b with scratch := memWrite b.scratch a v }
    else if a < 0x0100 then (if a = 0x0008 then s.onSpi fun x => { x with flags := x.flags &&& ~~~v } else s)
    else if a < 0x0200 then s.writeBin a v
    else if a < 0x0300 then s.writeDom p a v
    else if a < 0x0380 then
      (if a = 0x0312 ∧ v.getLsbD 4 then s.onGauge fun g => { g with ovr := false } else s)
    else if a < 0x03C0 then s.writePower a v
    else if a < 0x0400 then s.writeLink a v
    else match owner a with
      | some n =>
        if isMem a then s.writeMem n a v else s.onBerth n (Berth.write (a - windowBase n.val) v)
      | none => s.writeHif a v

/-! ## The bytes of a transfer -/

/-- Take the refusal effects of a byte: the violation log once a berth, ACC_OFF once a transfer (R199, R285). -/
def State.refuse (x : Xfer) (a kind : Nat) (v : Verdict) (s : State) : Xfer × State :=
  match v with
  | .violation n =>
    if x.av.getLsbD n.val then (x, s) else ({ x with av := x.av ||| (1#4 <<< n.val) }, s.violation x.port n a kind)
  | .off => if x.accOff then (x, s) else ({ x with accOff := true }, s.accOff x.port a)
  | _ => (x, s)

/-- One completed data byte of a write (R191, R198). -/
def State.xferWrite (x : Xfer) (a : Nat) (v : Byte) (s : State) : Xfer × State :=
  match s.judge x.port a true with
  | .served => ({ x with wrote := (a, v) :: x.wrote }, s.writeByte x.port x.wrote a v)
  | other => s.refuse x a 1 other

/-- The value captured for an address, if its block has been captured by this transfer. -/
def captured (cs : List Capture) (base : Nat) : Option Capture := cs.find? fun c => c.base == base

/-- Capture the block or field at `base` when the transfer first touches it (R1, R123, R124, R192). -/
def State.capture (x : Xfer) (rc : Bool) (base len : Nat) (s : State) : Xfer :=
  match captured x.caps base with
  | some _ => x
  | none =>
    { x with caps := ⟨base, (List.range len).map fun k => s.byteAt x.port (base + k), rc, 0⟩ :: x.caps }

/-- One byte of an RC field has completed: with the last of them, the capture is subtracted (R1, R192). -/
def State.rcDone (x : Xfer) (base len : Nat) (s : State) : Xfer × State :=
  match captured x.caps base with
  | none => (x, s)
  | some c =>
    let x := { x with caps := x.caps.map fun c => if c.base = base then { c with done := c.done + 1 } else c }
    if c.done + 1 = len then (x, s.rcClear base (leNat c.bytes)) else (x, s)

/-- One begun data byte of a read: its value, and whether it completes (R192, R198). -/
def State.xferRead (x : Xfer) (a : Nat) (complete : Bool) (s : State) : Byte × Xfer × State :=
  match s.judge x.port a false with
  | .served =>
    match blockOf rsBlocks a, blockOf rcFields a with
    | some (base, len), _ =>
      let x := s.capture x false base len
      (((captured x.caps base).map (·.bytes.getD (a - base) 0)).getD 0, x, s)
    | none, some (base, len) =>
      let x := s.capture x true base len
      let v := ((captured x.caps base).map (·.bytes.getD (a - base) 0)).getD 0
      let (x, s) := if complete then s.rcDone x base len else (x, s)
      (v, x, s)
    | none, none => (s.byteAt x.port a, x, s)
  | .hole => (0x00, x, s)
  | other =>
    let (x, s) := s.refuse x a 0 other
    (0xFF, x, s)

/-- Completed writes at ascending addresses, with the wrap of R191. -/
def State.xferWrites (x : Xfer) (a : Nat) : List Byte → State → Xfer × State
  | [], s => (x, s)
  | v :: vs, s =>
    let (x, s) := s.xferWrite x a v
    s.xferWrites x ((a + 1) % 0x10000) vs

/-- Completed reads at ascending addresses, with the wrap of R192. -/
def State.xferReads (x : Xfer) (a : Nat) : Nat → State → List Byte × Xfer × State
  | 0, s => ([], x, s)
  | n + 1, s =>
    let (v, x, s) := s.xferRead x a true
    let (vs, x, s) := s.xferReads x ((a + 1) % 0x10000) n
    (v :: vs, x, s)

/-- A whole write transfer of its own: the bytes from `a` onward through port `p` (R191). -/
def State.hostWrite (p : Port) (a : Nat) (bytes : List Byte) (s : State) : State :=
  (s.xferWrites { port := p } a bytes).2

/-- A host transfer through this port can take place: the Binnacle runs, NRST is not low, and the SPI pads have VDDIO (R22,
R27, R493). DESIGN CHOICE (log 20): no command raises NRST, so it stands low until a reset is released. -/
def State.portUp (s : State) (p : Port) : Bool :=
  !s.bin.held && !s.dom.nrstLow && (p == .tw || s.spi.vddio)

/-- A write transfer of its own through a port that works (R1, R191, R198). -/
def State.portWrite (p : Port) (a : Nat) (bytes : List Byte) (s : State) : State :=
  s.when (s.portUp p) (State.hostWrite p a bytes)

end Sys2Proof.Machine
end

