-- ==== Sys2Proof/Machine/Binnacle.lean ====
section
/-! DEFINITION. The Binnacle: the update of each CK32 edge, commits and shifts, trim and its measurement, the wake tick,
event inputs, stamps, SYSON, PWRKEY, comparators, and the power-on reset (R111, R116 to R157). DESIGN CHOICE (log 6): a command
that a clock drives is the event of its edge or of its window's end. -/

namespace Sys2Proof.Machine

/-! ## The update of a CK32 edge (R116 to R120, R126 to R133) -/

/-- The next CK32 edge, where its update is of one of these kinds (R132); none comes while the Binnacle is held in reset
(R111). -/
def State.edgeOf (ks : List EdgeKind) (s : State) : State :=
  if !s.bin.held && ks.contains s.edgeKind then s.ck32 else s

/-- PRESCALER_COUNT (R120, R132, R149): edge 0, or an edge that ends no second, carries no correction and no SETR load. `key`
is the debounced level of PWRKEY that the edge samples. -/
def execPrescalerCount (key : Bool) (s : State) : Out :=
  if !s.bin.held && (s.edgeKind == .start || s.edgeKind == .count) then
    .next (s.ck32.onBin fun b => { b with pkLevel := key })
  else .next s

/-- SECONDS_TICK (R116 to R119, R126, R130): the count of the 32,768th edge, when no correction falls on it. -/
def execSecondsTick (s : State) : Out := .next (s.edgeOf [.tick])

/-- TRIM_CORRECTION (R132, R133): two counts for a positive TRIM, none for a negative one. -/
def execTrimCorrection (s : State) : Out := .next (s.edgeOf [.corr])

/-- SETR_LOAD (R126, R129, R131, R132): a correction due at the edge falls at the next one. -/
def execSetrLoad (s : State) : Out := .next (s.edgeOf [.load])

/-! ## Host commands on the calendar and the trim (R126, R130, R134, R137) -/

/-- CAL_CMD_SETR (R126 to R128). -/
def execCalCmdSetr (p : Port) (s : State) : Out := .next (s.portWrite p 0x011A [0x01])

/-- CAL_CMD_SETT (R126 to R128). -/
def execCalCmdSett (p : Port) (s : State) : Out := .next (s.portWrite p 0x011A [0x02])

/-- CAL_CMD_CANCEL (R126). -/
def execCalCmdCancel (p : Port) (s : State) : Out := .next (s.portWrite p 0x011A [0x03])

/-- SHIFT_WRITE (R130, R131). -/
def execShiftWrite (p : Port) (v : Half) (s : State) : Out := .next (s.portWrite p 0x011C (leBytes 2 v.toNat))

/-- The byte at 0x0132 with TR_RUN at `run` and the other bits as they stand (R157). -/
def Trim.ctrl (run : Bool) (t : Trim) : Byte := byteOf [run, t.src, t.fnom, t.auto, t.cont]

/-- TR_RUN_START (R134). -/
def execTrRunStart (p : Port) (s : State) : Out := .next (s.portWrite p 0x0132 [s.trim.ctrl true])

/-- TR_RUN_ABORT (R137). -/
def execTrRunAbort (p : Port) (s : State) : Out := .next (s.portWrite p 0x0132 [s.trim.ctrl false])

/-! ## Trim (R121, R133 to R137) -/

/-- TRIM_CYCLE_START (R133): the next edge starts a cycle, which takes TRIM as it stands. -/
def execTrimCycleStart (s : State) : Out :=
  if s.trim.cyclePos + 1 = trimCycle then .next (s.onTrim fun t => { t with cycleTrim := t.trim }) else .next s

/-- XTAL_FAIL (R121, R137). -/
def execXtalFail (s : State) : Out :=
  if s.cal.onLrc || s.bin.held then .next s
  else .next ((((s.onCal fun c => { c with xtalFail := true, onLrc := true }).binSet 0x011B 0x20).raise 18).trimAbort 5)

/-- XTAL_RECOVER (R121, R446). -/
def execXtalRecover (s : State) : Out :=
  .next ((s.onCal fun c => { c with onLrc := false }).trimResume)

/-- A reference edge has come since the measurement was armed (R134). -/
def Trim.referenced (t : Trim) : Bool := if t.src then t.lastPps.isSome else t.lastSeq.isSome

/-- TRIM_MEAS_OPEN (R134). -/
def execTrimMeasOpen (s : State) : Out :=
  if s.trim.active && s.trim.openRaw.isNone && s.trim.referenced then
    .next (s.onTrim fun t => { t with openRaw := some t.raw, prog := 0 })
  else .next s

/-- TRIM_MEAS_DONE (R134 to R136): 2^k reference periods have passed since the opening. -/
def execTrimMeasDone (s : State) : Out :=
  match s.trim.openRaw with
  | some r =>
    if s.trim.active && 2 ^ s.trim.kEff ≤ s.trim.prog.toNat then
      .next (((s.onTrim fun t => t.finish (t.raw - r)).when s.trim.auto (State.binSet 0x0130 0xFF)).raise 25)
    else .next s
  | none => .next s

/-- PPS_EDGE (R134, R137, R146): an interval outside 32,768 ± 16 crystal periods aborts; the edges are the reference of a PPS
measurement. -/
def execPpsEdge (s : State) : Out :=
  if s.bin.evts[3].pps && s.trim.active && !s.bin.held then
    match s.trim.lastPps with
    | some r =>
      let n := s.trim.raw - r
      if n < 32752 ∨ 32784 < n then .next (s.trimAbort 4).trimResume
      else .next (s.onTrim fun t => { t with
        lastPps := some t.raw, prog := if t.src && t.openRaw.isSome && t.prog.toNat < 2 ^ t.kEff then t.prog + 1 else t.prog })
    | none => .next (s.onTrim fun t => { t with lastPps := some t.raw })
  else .next s

/-! ## Wake tick (R139) -/

/-- The wake-tick period in counts, 2^(n−8) s (R139). -/
def BinIo.tickCounts (b : BinIo) : Nat := 2 ^ (min 20 b.tickSel.toNat + 7)

/-- The update of the latest edge reached a tick that has not fired: a load or a shift that landed on a multiple of the
period, or a count that reached or passed one (R139). -/
def State.tickReached (s : State) : Bool :=
  let p := s.bin.tickCounts
  let now := s.cal.lsec.toNat * 32768 + s.cal.subsec.toNat
  !s.cal.tickDone && (if s.cal.jumped then now % p == 0 else now != s.cal.before && now / p != s.cal.before / p)

/-- WAKE_TICK (R139, R148, R172): once at an edge. -/
def execWakeTick (s : State) : Out :=
  if s.bin.tickEn && s.tickReached then
    .next ((((s.onCal fun c => { c with tickDone := true }).raise 19).wake 1 [.cpu]).sysonAuto 2)
  else .next s

/-! ## Event inputs and stamps (R142 to R147, R150) -/

/-- The direction is one that EDGE or CMP_EDGE selects: 1 rising, 2 falling, 3 both (R143, R153). -/
def selects (edge : BitVec 2) (up : Bool) : Bool := if up then edge.getLsbD 0 else edge.getLsbD 1

/-- The samples, or results, that a filter setting asks for: 1, 2, 4 or 8 (R143, R152). -/
def filterLength (filt : BitVec 2) : Nat := 2 ^ filt.toNat

/-- The bit of `evtNow` for an edge of a polarity on EVTn (R143). -/
def evtBit (i : Fin 4) (rising : Bool) : BitVec 8 := 1#8 <<< (2 * i.val + rising.toNat)

/-- A counted edge on EVTn: COUNT, FIRST with STAMPED or OVR, its event, the wake source and SYSON (R144, R148, R172). -/
def State.evtCount (i : Fin 4) (rising : Bool) (s : State) : State :=
  let e := s.bin.evts[i]
  let put (f : EventInput → EventInput) := s.onBin fun b =>
    BinIo.mark (0x0181 + 0x10 * i.val) (if e.stamped then 0x03 else 0x01)
      { b with evts := b.evts.set i (f b.evts[i]), evtNow := b.evtNow ||| evtBit i rising }
  if e.stamped then
    (((put fun e => { e with level := rising, count := satInc e.count, ovr := true }).raise (20 + i.val)).raise 24).wake
      (2 + i.val) [.cpu]
  else
    (((put fun e => { e with level := rising, count := satInc e.count, stamped := true, first := s.cal.stamp }).raise
      (20 + i.val)).wake (2 + i.val) [.cpu]).sysonAuto 4

/-- EVT_EDGE (R142 to R146, R148, R172): a latched edge whose new level has held for `samples` CK32 samples. The filter asks
for 1, 2, 4 or 8; a further edge of the polarity in one CK32 period counts with the first. -/
def execEvtEdge (i : Fin 4) (rising : Bool) (samples : Nat) (s : State) : Out :=
  let e := s.bin.evts[i]
  if s.bin.held || samples < filterLength e.filt then .next s
  else if e.pps || !selects e.edge rising || s.bin.evtNow &&& evtBit i rising != 0 then
    .next (s.onBin fun b => { b with evts := b.evts.set i { b.evts[i] with level := rising } })
  else .next (s.evtCount i rising)

/-- STAMPED_CLEAR (R144). -/
def execStampedClear (p : Port) (i : Fin 4) (s : State) : Out := .next (s.portWrite p (0x0181 + 0x10 * i.val) [0x01])

/-- LL_VALID_CLEAR (R147). -/
def execLlValidClear (p : Port) (s : State) : Out := .next (s.portWrite p 0x0148 [0x04])

/-- FSO_VALID_CLEAR (R150). -/
def execFsoValidClear (p : Port) (w : Fso) (s : State) : Out :=
  .next (s.portWrite p 0x0148 [match w with | .bak => 0x01 | .bat => 0x02])

/-! ## SYSON, PWRKEY, AWAKE and comparators (R148, R149, R152, R153, R172) -/

/-- SYSON_ON_WRITE (R148, R155). -/
def execSysonOnWrite (p : Port) (v : Bool) (s : State) : Out := .next (s.portWrite p 0x0142 [byteOf [v]])

/-- A press is classed: its bit in PK_STAT, EV27 and the wake source (R149, R172). DEDUCED (log 42): PK_LEVEL is what the class
shows of the key, released after a short press, pressed at a threshold; between them the CK32 edges sample it. -/
def State.pressed (k : Nat) (level : Bool) (s : State) : State :=
  (((s.onBin fun b => { b with pkStat := b.pkStat ||| (1#3 <<< k), pkLevel := level }).binSet 0x0145 (1#8 <<< k)).raise 27).wake
    10 [.cpu]

/-- PK_LONG in ms: 0.5 s·(n + 1) (R149). -/
def BinIo.longMs (b : BinIo) : Nat := 500 * (b.pkLong.toNat + 1)

/-- PWRKEY_SHORT (R149): a press of 32 ms to below PK_LONG ends, `ms` after it began. -/
def execPwrkeyShort (ms : Nat) (s : State) : Out :=
  .next (s.when (!s.bin.held && decide (32 ≤ ms) && decide (ms < s.bin.longMs)) (State.pressed 0 false))

/-- PWRKEY_LONG (R148, R149): the key has been pressed for PK_LONG. -/
def execPwrkeyLong (ms : Nat) (s : State) : Out :=
  .next (s.when (!s.bin.held && decide (s.bin.longMs ≤ ms)) fun s => (s.pressed 1 true).sysonAuto 0)

/-- PWRKEY_HARDOFF (R149): the key has been pressed for 12 s. -/
def execPwrkeyHardoff (ms : Nat) (s : State) : Out :=
  if s.bin.pkHardoff && !s.bin.held && decide (12000 ≤ ms) then
    .next (((s.pressed 2 true).onBin fun b => { b with sysonOn := false, sysonForcedOff := true }).binSet 0x0142 0x02)
  else .next s

/-- The threshold of a comparator: 0.20 V + 0.05 V·n, in mV (R152). -/
def Comparator.threshold (c : Comparator) : Nat := 200 + 50 * c.thr.toNat

/-- Its hysteresis: 0, 25 or 50 mV, 0b11 acting as 50 mV (R152, R157). -/
def Comparator.hysteresis (c : Comparator) : Nat := 25 * min 2 c.hyst.toNat

/-- The result for a pad voltage. DESIGN CHOICE (log 72): high from the threshold upward, and low again below the threshold
less the hysteresis. -/
def Comparator.result (mv : Nat) (c : Comparator) : Bool :=
  if c.out then decide (c.threshold ≤ mv + c.hysteresis) else decide (c.threshold ≤ mv)

/-- CMP_TRIP (R148, R152, R153, R172): the pad at `mv` has given `results` equal results. A filtered change of the output is a
crossing; in a selected direction it trips. -/
def execCmpTrip (x : Fin 4) (mv results : Nat) (s : State) : Out :=
  let c := s.bin.cmps[x]
  let high := c.result mv
  if s.bin.held || c.edge = 0 || high = c.out || results < filterLength c.filt then .next s
  else
    let hit := selects c.edge high
    let s := s.onBin fun b => { b with cmps := b.cmps.set x { b.cmps[x] with out := high, tripped := b.cmps[x].tripped || hit } }
    .next (s.when hit fun s =>
      (((s.binSet (0x0171 + 2 * x.val) 0x20).raise (28 + x.val)).wake (6 + x.val) [.cpu]).sysonAuto 5)

/-- AWAKE_HIGH (R148, R172): AWAKE has been high for four CK32 samples. -/
def execAwakeHigh (samples : Nat) (s : State) : Out :=
  .next (s.when (!s.bin.held && decide (4 ≤ samples)) fun s => (s.wake 11 [.cpu]).sysonAuto 1)

/-! ## The power-on reset of the Binnacle (R111, R120, R177, R178) -/

/-- BIN_POWER_ON_RESET (R111, R177): everything on the core die returns to its reset value; flash and the line die stay, and
so do the levels that come from outside: chip selects, the two-wire bus, VDDIO, VSYS and the supply of VAON. -/
def execBinPowerOnReset (s : State) : Out :=
  .next { State.reset with
    line := s.line, flash := s.flash, free := s.free, pending := s.pending
    power := { onVbak := s.power.onVbak }
    dom := { vsysUp := s.dom.vsysUp && !s.power.onVbak }
    bin := { held := true }
    spi := { vddio := s.spi.vddio, csA := s.spi.csA, csB := s.spi.csB, deafA := s.spi.csA, deafB := s.spi.csB }
    tw := { hscl := s.tw.hscl, hsda := s.tw.hsda } }

/-- BIN_POR_RELEASE (R26, R32, R111, R120, R176): the strap measurement begins, and edge 0 is awaited. -/
def execBinPorRelease (s : State) : Out :=
  if s.bin.held then
    .next ((s.onBin fun b => { b with held := false, strapBusy := true }).onDom fun d =>
      { d with vsysUp := d.vsysUp || !s.power.onVbak })
  else .next s

end Sys2Proof.Machine
end

