-- ==== Sys2Proof/Machine/Math.lean ====
section
/-! DEFINITION. The arithmetic of the Log engine and of firmware: binary64 rounding on exact rationals, elementary
functions, trigonometry of the quadrature, and the properties of water (R337 to R341, R360, R361, R379, R380).
DESIGN CHOICE (log 22): every operation rounds to binary64, to nearest with ties to even, in the order the rule writes it;
an elementary function is rounded once. PRESUMED (log 23): the coefficients of IAPWS-IF97 and of the IAPWS viscosity. -/

namespace Sys2Proof.Machine

/-! ## binary64 -/

/-- The nearest number of `p` significant bits, ties to even. -/
def roundBits (p : Nat) (x : Rat) : Rat :=
  let n := x.num.natAbs
  if n = 0 then 0
  else
    let e0 : Int := (n.log2 : Int) - (x.den.log2 : Int) - (p : Int)
    let frac (e : Int) : Nat × Nat := if 0 ≤ e then (n, x.den * 2 ^ e.toNat) else (n * 2 ^ (-e).toNat, x.den)
    let big (e : Int) : Bool := let f := frac e; 2 ^ p * f.2 ≤ f.1
    let e := if big e0 then (if big (e0 + 1) then e0 + 2 else e0 + 1) else e0
    let f := frac e
    let q := f.1 / f.2
    let r := f.1 % f.2
    let q := if f.2 < 2 * r || (2 * r == f.2 && q % 2 == 1) then q + 1 else q
    let v : Rat := if 0 ≤ e then ((q * 2 ^ e.toNat : Nat) : Rat) else mkRat q (2 ^ (-e).toNat)
    if x.num < 0 then -v else v

/-- binary64 rounding. -/
def rnd (x : Rat) : Rat := roundBits 53 x

/-- The operations of binary64. -/
def fadd (a b : Rat) : Rat := rnd (a + b)
def fsub (a b : Rat) : Rat := rnd (a - b)
def fmul (a b : Rat) : Rat := rnd (a * b)
def fdiv (a b : Rat) : Rat := rnd (a / b)

/-- The nearest integer, ties away from zero. -/
def roundRat (x : Rat) : Int := divRound x.num x.den

/-- Toward zero. -/
def truncRat (x : Rat) : Int := x.num.tdiv x.den

/-- A power by repeated multiplication; a negative exponent takes the reciprocal at the end. -/
def fpow (x : Rat) (k : Int) : Rat :=
  let p := (List.range k.natAbs).foldl (fun a _ => fmul a x) 1
  if 0 ≤ k then p else fdiv 1 p

/-! ## Elementary functions, in fixed point of 96 fractional bits -/

/-- One in fixed point. -/
def fxOne : Nat := 2 ^ 96

/-- π, ln 2 and ln 10 in fixed point. -/
def fxPi : Nat := 248902613312231085230521944622
def fxLn2 : Nat := 54916777467707473351141471128
def fxLn10 : Nat := 182429585950654714090129938606

/-- A rational in fixed point, and back. -/
def toFx (x : Rat) : Int := x.num * fxOne / x.den
def ofFx (v : Int) : Rat := mkRat v fxOne

/-- The integer square root, bit by bit. -/
def isqrt (n : Nat) : Nat :=
  (List.range (n.log2 / 2 + 1)).foldr (fun b r => if (r + 2 ^ b) * (r + 2 ^ b) ≤ n then r + 2 ^ b else r) 0

/-- The square root of a number that is not negative. -/
def sqrtRat (x : Rat) : Rat := rnd (ofFx (isqrt ((toFx x).toNat * fxOne)))

/-- ln of a fixed-point number in [1, 2], as twice the series of artanh. -/
def lnSeries (m : Int) : Int :=
  let y := (m - fxOne) * fxOne / (m + fxOne)
  let y2 := y * y / fxOne
  let r := (List.range 36).foldl (fun (a : Int × Int) i => (a.1 + a.2 / (2 * i + 1 : Nat), a.2 * y2 / fxOne)) ((0 : Int), y)
  2 * r.1

/-- ln of a positive number, in fixed point. -/
def lnFx (x : Rat) : Int :=
  let k : Int := (x.num.natAbs.log2 : Int) - (x.den.log2 : Int)
  let m := if 0 ≤ k then x / ((2 ^ k.toNat : Nat) : Rat) else x * ((2 ^ (-k).toNat : Nat) : Rat)
  let (m, k) := if m < 1 then (2 * m, k - 1) else (m, k)
  lnSeries (toFx m) + k * fxLn2

/-- ln and log₁₀ of a positive number. -/
def lnRat (x : Rat) : Rat := rnd (ofFx (lnFx x))
def log10Rat (x : Rat) : Rat := rnd (ofFx (lnFx x * fxOne / fxLn10))

/-- e to a number. -/
def expRat (x : Rat) : Rat :=
  let v := toFx x
  let k := v.fdiv fxLn2
  let r := v - k * fxLn2
  let t := (List.range 30).foldl (fun (a : Int × Int) i => (a.1 + a.2, a.2 * r / (fxOne * (i + 1) : Nat))) ((0 : Int), (fxOne : Int))
  let m := ofFx t.1
  rnd (if 0 ≤ k then m * ((2 ^ k.toNat : Nat) : Rat) else m / ((2 ^ (-k).toNat : Nat) : Rat))

/-- 20·log₁₀ of a ratio of positive numbers, in dB. -/
def dB (a b : Nat) : Rat := ofFx (20 * (lnFx (mkRat a b) * fxOne / fxLn10))

/-- 10 to n/40: n half decibels as a ratio of amplitudes. -/
def halfDb (n : Nat) : Rat := if n = 0 then 1 else expRat (ofFx ((n : Int) * fxLn10 / 40))

/-- Sine and cosine series of a fixed-point angle of at most π/4. -/
def sinSeries (x : Int) : Int :=
  let x2 := x * x / fxOne
  ((List.range 14).foldl (fun (a : Int × Int) i => (a.1 + a.2, -(a.2 * x2 / (fxOne * ((2 * i + 2) * (2 * i + 3)) : Nat))))
    ((0 : Int), x)).1
def cosSeries (x : Int) : Int :=
  let x2 := x * x / fxOne
  ((List.range 14).foldl (fun (a : Int × Int) i => (a.1 + a.2, -(a.2 * x2 / (fxOne * ((2 * i + 1) * (2 * i + 2)) : Nat))))
    ((0 : Int), (fxOne : Int))).1

/-- Cosine and sine of a/b of a turn, in fixed point, from the nearest quarter turn. -/
def cosSinTurn (a b : Nat) : Int × Int :=
  let r : Nat := a % b
  let q : Nat := (8 * r / b + 1) / 2
  let x : Int := (4 * (r : Int) - (q : Int) * b) * fxPi / (2 * (b : Int))
  let c := cosSeries x
  let s := sinSeries x
  match q % 4 with
  | 0 => (c, s) | 1 => (-s, c) | 2 => (-c, -s) | _ => (s, -c)

/-- arctan of a fixed-point number in [0, 1], in fixed point: two half-angle steps, then the series. -/
def atanFx (t : Int) : Int :=
  let half (t : Int) : Int := t * fxOne / (fxOne + (isqrt ((fxOne * fxOne : Nat) + t * t).toNat : Nat))
  let u := half (half t)
  let u2 := u * u / fxOne
  4 * ((List.range 40).foldl (fun (a : Int × Int) i => (a.1 + a.2 / (2 * i + 1 : Nat), -(a.2 * u2 / fxOne))) ((0 : Int), u)).1

/-- The argument of x + jy as a fraction of a turn in [0, 1); 0 for 0. -/
def argTurn (x y : Int) : Rat :=
  if x = 0 ∧ y = 0 then 0
  else
    let ax : Int := x.natAbs
    let ay : Int := y.natAbs
    let t := if ay ≤ ax then atanFx (ay * fxOne / ax) else fxPi / 2 - atanFx (ax * fxOne / ay)
    let q := if 0 ≤ x then t else fxPi - t
    let v := mkRat q (2 * fxPi)
    if 0 ≤ y then v else if v = 0 then 0 else 1 - v

/-! ## Binary32 (R396) -/

/-- A finite binary32 number; none for an infinity or a NaN. -/
def ofBinary32 (w : Nat) : Option Rat :=
  let e : Nat := w / 2 ^ 23 % 256
  let f : Nat := w % 2 ^ 23
  if e = 255 then none
  else
    let m : Nat := if e = 0 then f else f + 2 ^ 23
    let k : Int := if e = 0 then -149 else (e : Int) - 150
    let v : Rat := if 0 ≤ k then ((m * 2 ^ k.toNat : Nat) : Rat) else mkRat m (2 ^ (-k).toNat)
    some (if 2 ^ 31 ≤ w then -v else v)

/-! ## Water: IAPWS-IF97 region 1 (R379) -/

/-- A decimal with 14 digits after the point, and a power of ten. -/
def dec14 (m : Int) (e : Int) : Rat :=
  if 0 ≤ e then rnd (mkRat (m * (10 ^ e.toNat : Nat)) (10 ^ 14)) else rnd (mkRat m (10 ^ 14 * 10 ^ (-e).toNat))

/-- Exponents and coefficients of region 1: (I, J, digits, power of ten). -/
def if97Rows : List (Int × Int × Int × Int) :=
  [(0, -2, 14632971213167, 0), (0, -1, -84548187169114, 0), (0, 0, -37563603672040, 1), (0, 1, 33855169168385, 1),
   (0, 2, -95791963387872, 0), (0, 3, 15772038513228, 0), (0, 4, -16616417199501, -1), (0, 5, 81214629983568, -3),
   (1, -9, 28319080123804, -3), (1, -7, -60706301565874, -3), (1, -1, -18990068218419, -1), (1, 0, -32529748770505, -1)] ++
  [(1, 1, -21841717175414, -1), (1, 3, -52838357969930, -4), (2, -3, -47184321073267, -3), (2, 0, -30001780793026, -3),
   (2, 1, 47661393906987, -4), (2, 3, -44141845330846, -5), (2, 17, -72694996297594, -15), (3, -4, -31679644845054, -4),
   (3, 0, -28270797985312, -5), (3, 6, -85205128120103, -9), (4, -5, -22425281908000, -5)] ++
  [(4, -2, -65171222895601, -6), (4, 10, -14341729937924, -12), (5, -8, -40516996860117, -6), (8, -11, -12734301741641, -8),
   (8, -6, -17424871230634, -9), (21, -29, -68762131295531, -18), (23, -31, 14478307828521, -19),
   (29, -38, 26335781662795, -22), (30, -39, -11947622640071, -22), (31, -40, 18228094581404, -23),
   (32, -41, -93537087292458, -25)]

/-- A sum of rounded terms. -/
def fsum (xs : List Rat) : Rat := xs.foldl fadd 0

/-- The kind of derivative of the Gibbs function: by pressure, by temperature, twice by temperature. -/
inductive Gibbs where
  | gp | gt | gtt
  deriving DecidableEq, Repr

/-- A derivative of the Gibbs function of region 1. -/
def if97 (g : Gibbs) (p t : Rat) : Rat :=
  let a := fsub (71/10) p
  let b := fsub t (1222/1000)
  fsum <| if97Rows.map fun (i, j, m, e) =>
    let n := dec14 m e
    match g with
    | .gp => if i = 0 then 0 else fmul (fmul (fmul (-n) i) (fpow a (i - 1))) (fpow b j)
    | .gt => fmul (fmul (fmul n (fpow a i)) j) (fpow b (j - 1))
    | .gtt => fmul (fmul (fmul n (fpow a i)) ((j * (j - 1) : Int) : Rat)) (fpow b (j - 2))

/-- The gas constant of water, J/(kg·K), and the reducing pressure and temperature. -/
def waterR : Rat := 461526 / 1000
def waterP : Rat := 16530000
def waterT : Rat := 1386

/-- ρ in kg/m³ of water at `pa` Pa and `k` kelvin. -/
def waterRho (pa k : Rat) : Rat :=
  fdiv pa (fmul (fmul waterR k) (fmul (fdiv pa waterP) (if97 .gp (fdiv pa waterP) (fdiv waterT k))))

/-- h in J/kg. -/
def waterH (pa k : Rat) : Rat :=
  fmul (fmul waterR k) (fmul (fdiv waterT k) (if97 .gt (fdiv pa waterP) (fdiv waterT k)))

/-- c_p in J/(kg·K). -/
def waterCp (pa k : Rat) : Rat :=
  let t := fdiv waterT k
  fmul (-waterR) (fmul (fmul t t) (if97 .gtt (fdiv pa waterP) t))

/-- The saturation pressure in Pa (region 4). -/
def waterPsat (k : Rat) : Rat :=
  let th := fadd k (fdiv (dec14 (-23855557567849) 0) (fsub k (dec14 65017534844798 3)))
  let quad (a b c : Rat) : Rat := fadd (fadd (fmul a (fmul th th)) (fmul b th)) c
  let a := quad 1 (dec14 11670521452767 4) (dec14 (-72421316703206) 6)
  let b := quad (dec14 (-17073846940092) 2) (dec14 12020824702470 5) (dec14 (-32325550322333) 7)
  let c := quad (dec14 14915108613530 2) (dec14 (-48232657361591) 4) (dec14 40511340542057 6)
  let d := sqrtRat (fsub (fmul b b) (fmul 4 (fmul a c)))
  fmul 1000000 (fpow (fdiv (fmul 2 c) (fadd (-b) d)) 4)

/-! ## Viscosity of water (IAPWS 2008, without the critical enhancement) -/

/-- (i, j, coefficient·10⁷) of the second factor. -/
def viscRows : List (Int × Int × Int) :=
  [(0, 0, 5200940), (1, 0, 850895), (2, 0, -10837400), (3, 0, -2895550), (0, 1, 2225310), (1, 1, 9991150), (2, 1, 18879700),
   (3, 1, 12661300), (5, 1, 1205730), (0, 2, -2813780), (1, 2, -9068510)] ++
  [(2, 2, -7724790), (3, 2, -4898370), (4, 2, -2570400), (0, 3, 1619130), (1, 3, 2573990), (0, 4, -325372), (3, 4, 698452)]

/-- The last three coefficients, ·10¹⁰. -/
def viscRows2 : List (Int × Int × Int) := [(4, 5, 87210200), (3, 6, -43567300), (5, 6, -5932640)]

/-- μ in Pa·s of water at `k` kelvin and density `rho`. -/
def waterMu (k rho : Rat) : Rat :=
  let t := fdiv k (647096 / 1000)
  let r := fdiv rho 322
  let h : List (Nat × Rat) := [(0, 167752 / 100000), (1, 220462 / 100000), (2, 6366564 / 10000000), (3, -241605 / 1000000)]
  let m0 := fdiv (fmul 100 (sqrtRat t)) (fsum (h.map fun x => fdiv x.2 (fpow t x.1)))
  let u := fsub (fdiv 1 t) 1
  let w := fsub r 1
  let term (c : Rat) (i j : Int) : Rat := fmul c (fmul (fpow u i) (fpow w j))
  let s := fsum ((viscRows.map fun x => term (mkRat x.2.2 10000000) x.1 x.2.1) ++
    viscRows2.map fun x => term (mkRat x.2.2 10000000000) x.1 x.2.1)
  fdiv (fmul m0 (expRat (fmul r s))) 1000000

end Sys2Proof.Machine
end

