-- ==== Sys2Proof/Machine/Operands.lean ====
section
/-! DEFINITION. The configuration blocks: their fields, and the checks of a write (R336, R355, R393 to R396, R424, R425,
R427, R428); the fluid of a path (R379, R380, R396). DEDUCED (log 24): a bit that a block's table gives to no field is
reserved; a field outside its range names its first byte, a rule over several fields names 0xFF. -/

namespace Sys2Proof.Machine

/-! ## Checking a block -/

/-- A field that a check judges: offset, bytes, lowest bit, width, least and greatest value. -/
structure FieldSpec where
  off : Nat
  len : Nat
  lo : Nat
  width : Nat
  least : Nat
  most : Nat
  deriving DecidableEq, Repr

/-- A field's value. -/
def FieldSpec.get (f : FieldSpec) (bs : List Byte) : Nat := leAt bs f.off f.len / 2 ^ f.lo % 2 ^ f.width

/-- The field lies in its range. -/
def FieldSpec.ok (f : FieldSpec) (bs : List Byte) : Bool := f.least ≤ f.get bs && f.get bs ≤ f.most

/-- Bytes with a bit set outside the mask of bits that fields use. -/
def stray (used : List Byte) (bs : List Byte) : List Nat :=
  (List.range bs.length).filter fun k => bs.getD k 0 &&& ~~~(used.getD k 0) != 0

/-- The first offending byte of a block, if any. -/
def firstBad (used : List Byte) (fields : List FieldSpec) (bs : List Byte) : Option Nat :=
  (stray used bs ++ (fields.filter fun f => !f.ok bs).map (·.off)).min?

/-! ## The acquisition block (R355) -/

/-- f_d in kHz. -/
def acqFd (a : List Byte) : Nat := leAt a 0 2
/-- Cycles of the burst, and of the braking. -/
def acqBurst (a : List Byte) : Nat := bitsAt a 2 4 0
def acqBrake (a : List Byte) : Nat := bitsAt a 2 6 5
/-- POL at 1 inverts the burst; DRIVE_MODE at 1 is half; TERM_Z (R319, R321). -/
def acqPol (a : List Byte) : Bool := bitAt a 2 7
def acqHalf (a : List Byte) : Bool := bitAt a 3 0
def acqTermZ (a : List Byte) : BitVec 2 := BitVec.ofNat 2 (bitsAt a 3 2 1)
/-- REF_CYC (R343). -/
def acqRefCyc (a : List Byte) : Nat := bitsAt a 24 3 0
/-- Four-shot soundings (R348). -/
def acqMatched (a : List Byte) : Bool := bitAt a 3 3
/-- RESOLVE (R346): 0 FIRST, 1 STRONGEST, 2 TRACK. -/
def acqResolve (a : List Byte) : Nat := bitsAt a 3 5 4
/-- NOISY_KEEP and AGC. -/
def acqNoisyKeep (a : List Byte) : Bool := bitAt a 3 6
def acqAgc (a : List Byte) : Bool := bitAt a 3 7
/-- PGA, 0.5 dB. -/
def acqPga (a : List Byte) : Nat := bitsAt a 4 7 0
/-- Samples of a full capture: 64·CAP_BLK (R330). -/
def acqSamples (a : List Byte) : Nat := 64 * bitsAt a 5 6 0
/-- DELAY in PLLA periods. -/
def acqDelay (a : List Byte) : Nat := leAt a 6 4
/-- The gate's samples. -/
def acqGateOpen (a : List Byte) : Nat := leAt a 10 2
def acqGateClose (a : List Byte) : Nat := leAt a 12 2
/-- QLEAD in µs. -/
def acqQlead (a : List Byte) : Nat := bitsAt a 14 6 0
/-- OVR_DB, 0.5 dB. -/
def acqOvrDb (a : List Byte) : Nat := bitsAt a 15 6 0
/-- Q_NOISE (0.25), Q_ABS (32 codes), SNR_MIN (0.5 dB), PAT_MIN and CYC_MAX (1/256). -/
def acqQNoise (a : List Byte) : Nat := bitsAt a 16 7 0
def acqQAbs (a : List Byte) : Nat := bitsAt a 17 7 0
def acqSnrMin (a : List Byte) : Nat := bitsAt a 18 7 0
def acqPatMin (a : List Byte) : Nat := bitsAt a 19 7 0
def acqCycMax (a : List Byte) : Nat := bitsAt a 20 7 0
/-- TRACK_AGE in seconds. -/
def acqTrackAge (a : List Byte) : Nat := bitsAt a 21 5 0
/-- SHOT_GAP in PLLA periods: 10 µs units of 640 periods (R334). -/
def acqShotGap (a : List Byte) : Nat := leAt a 22 2 * 640
/-- Shots per direction of a learn (R343). -/
def acqLearnShots (a : List Byte) : Nat := 16 * bitsAt a 25 4 0
/-- DELIVER: 0 SHOT, 1 TOF, 2 FLOW records. -/
def acqDeliver (a : List Byte) (k : Nat) : Bool := bitAt a 26 k
/-- Shots of one sounding (R348). -/
def acqShots (a : List Byte) : Nat := if acqMatched a then 4 else 2

/-- Bits that fields of the block use. -/
def acqUsed : List Byte :=
  [0xFF, 0xFF, 0xFF, 0xFF, 0xFF, 0x7F, 0xFF, 0xFF, 0xFF, 0xFF, 0xFF, 0xFF, 0xFF, 0xFF, 0x7F, 0x7F,
   0xFF, 0xFF, 0xFF, 0xFF, 0xFF, 0x3F, 0xFF, 0xFF, 0x0F, 0x1F, 0x07, 0, 0, 0, 0, 0]

/-- Ranges of R355 and R336 on one field. -/
def acqFields : List FieldSpec :=
  [⟨0, 2, 0, 16, 250, 5000⟩, ⟨2, 1, 0, 5, 1, 31⟩, ⟨3, 1, 1, 2, 0, 2⟩, ⟨3, 1, 4, 2, 0, 2⟩, ⟨4, 1, 0, 8, 0, 132⟩,
   ⟨5, 1, 0, 7, 1, 64⟩, ⟨6, 4, 0, 32, 0, 512000⟩, ⟨10, 2, 0, 16, 64, 65535⟩, ⟨14, 1, 0, 7, 8, 64⟩, ⟨15, 1, 0, 7, 0, 60⟩,
   ⟨20, 1, 0, 8, 1, 127⟩, ⟨21, 1, 0, 6, 1, 60⟩, ⟨22, 2, 0, 16, 10, 1000⟩, ⟨24, 1, 0, 4, 1, 8⟩, ⟨25, 1, 0, 5, 1, 16⟩]

/-- The check of an acquisition block (R336, R355). -/
def acqBad (a : List Byte) : Option Nat :=
  match firstBad acqUsed acqFields a with
  | some k => some k
  | none =>
    if acqDelay a * acqFd a < 64000 * (acqBurst a + acqBrake a) + 64 * acqFd a ∨ acqGateClose a ≤ acqGateOpen a ∨
        acqSamples a < acqGateClose a then some 0xFF
    else none

/-- The fields whose change clears the template and LEEWAY: BURST_F, BURST_CYC, BRAKE_CYC, DRIVE_MODE, TERM_Z (the corner
of R344; R450). -/
def acqFiring (a : List Byte) : Nat × Nat × Nat := (acqFd a, bitsAt a 2 6 0, bitsAt a 3 2 0)

/-! ## The flow block (R393) -/

/-- ID, L_P, X in µm; TAU0 in 2⁻¹⁶ ns; K_FIX. -/
def flowId (f : List Byte) : Nat := leAt f 0 4
def flowLp (f : List Byte) : Nat := leAt f 4 4
def flowX (f : List Byte) : Nat := leAt f 8 4
def flowTau0 (f : List Byte) : Nat := leAt f 12 4
def flowKFix (f : List Byte) : Nat := leAt f 16 2
/-- PROFILE at 1: Reynolds. -/
def flowReynolds (f : List Byte) : Bool := bitAt f 18 0
/-- FLUID at 1: the coefficient block. -/
def flowCoeff (f : List Byte) : Bool := bitAt f 18 1
/-- MED_N: 3, 5, 7, 9. -/
def flowMedN (f : List Byte) : Nat := 3 + 2 * bitsAt f 18 3 2
/-- HOLD_MAX in CK32 edges. -/
def flowHoldMax (f : List Byte) : Nat := bitsAt f 19 7 0 * 32768
/-- V_DET in µm/s. -/
def flowVDet (f : List Byte) : Nat := leAt f 20 2 * 1000
/-- The interval of the IDLE state, and of the FLOWING state, in CK32 edges (R356). -/
def flowIdleInt (f : List Byte) : Rat := mkRat (leAt f 22 2 * 32768) 10
def flowRateInt (f : List Byte) : Rat := mkRat 32768 (bitsAt f 24 7 0)
/-- T_MTR, T_SUP, T_RET. -/
def flowMtr (f : List Byte) : Fin 4 := Fin.ofNat 4 (bitsAt f 26 1 0)
def flowSup (f : List Byte) : Fin 4 := Fin.ofNat 4 (bitsAt f 26 3 2)
def flowRet (f : List Byte) : Fin 4 := Fin.ofNat 4 (bitsAt f 26 5 4)
/-- HEAT_EN. -/
def flowHeat (f : List Byte) : Bool := bitAt f 26 6
/-- PRESS in Pa. -/
def flowPress (f : List Byte) : Nat := leAt f 28 2 * 1000
/-- LEEWAY_N. -/
def flowLeewayN (f : List Byte) : Nat := leAt f 30 2
/-- T_FALL in °C. -/
def flowTFall (f : List Byte) : Int := sleAt f 36 1

/-- The flow block as it is read: LEEWAY in its place (R393). -/
def flowBytes (f : List Byte) (leeway : Int) : List Byte := slice f 0 32 ++ sleBytes 4 leeway ++ slice f 36 12

/-- Bits that fields of the block use; LEEWAY is ignored on write (R428). -/
def flowUsed : List Byte :=
  List.replicate 18 0xFF ++ [0x0F] ++ List.replicate 7 0xFF ++ [0x7F] ++ List.replicate 10 0xFF ++ List.replicate 11 0

/-- Ranges of R393. -/
def flowFields : List FieldSpec :=
  [⟨0, 4, 0, 32, 10000, 4000000⟩, ⟨4, 4, 0, 32, 1, 4294967295⟩, ⟨8, 4, 0, 32, 1, 4294967295⟩, ⟨19, 1, 0, 8, 0, 60⟩,
   ⟨20, 2, 0, 16, 1, 1000⟩, ⟨22, 2, 0, 16, 5, 600⟩, ⟨24, 1, 0, 8, 1, 128⟩, ⟨25, 1, 0, 8, 1, 255⟩, ⟨27, 1, 0, 8, 1, 255⟩,
   ⟨28, 2, 0, 16, 100, 2500⟩, ⟨30, 2, 0, 16, 16, 4096⟩]

/-- The check of a flow block (R393); the width of T_FALL bounds it above. -/
def flowBad (f : List Byte) : Option Nat :=
  let bad := stray flowUsed f ++ (flowFields.filter fun x => !x.ok f).map (·.off) ++ (if flowTFall f < -50 then [36] else [])
  bad.min?

/-! ## The RTD block (R394) -/

/-- RTD_EN, TYPES, R_REF in mΩ, RTD_INT in s, RTD_AGE in CK32 edges (rounded up), OFFSET in 0.1 mΩ. -/
def rtdEn (r : List Byte) (n : Nat) : Bool := bitAt r 0 n
def rtdType (r : List Byte) (n : Nat) : Nat := bitsAt r 1 (2 * n + 1) (2 * n)
def rtdRef (r : List Byte) : Nat := leAt r 2 4
def rtdInt (r : List Byte) : Nat := bitsAt r 6 7 0
def rtdAge (r : List Byte) : Nat := (bitsAt r 7 7 0 * 32768 + 99) / 100
def rtdOffset (r : List Byte) (n : Nat) : Int := sleAt r (8 + 2 * n) 2
/-- The enabled inputs, ascending. -/
def rtdInputs (r : List Byte) : List (Fin 4) := (List.finRange 4).filter fun n => rtdEn r n.val

/-- The check of an RTD block (R394). -/
def rtdBad (r : List Byte) : Option Nat :=
  firstBad ([0x0F] ++ List.replicate 15 0xFF)
    [⟨1, 1, 0, 2, 0, 2⟩, ⟨1, 1, 2, 2, 0, 2⟩, ⟨1, 1, 4, 2, 0, 2⟩, ⟨1, 1, 6, 2, 0, 2⟩, ⟨6, 1, 0, 8, 1, 255⟩, ⟨7, 1, 0, 8, 1, 100⟩] r

/-! ## The deviation card (R362, R395) -/

/-- The card's points: speed in mm/s, correction in ppm. -/
def cardPoints (c : List Byte) : List (Nat × Int) :=
  (List.range (bitsAt c 0 7 0)).map fun i => (leAt c (4 + 4 * i) 2, sleAt c (6 + 4 * i) 2)

/-- Strictly ascending. -/
def ascending : List Int → Bool
  | [] => true
  | x :: xs => (match xs with | [] => true | y :: _ => decide (x < y)) && ascending xs

/-- The check of a card (R395). -/
def cardBad (c : List Byte) : Option Nat :=
  let n := bitsAt c 0 7 0
  if 16 < n then some 0
  else match (List.range 68).find? fun k => (1 ≤ k && k < 4 || 4 + 4 * n ≤ k) && c.getD k 0 != 0 with
    | some k => some k
    | none =>
      if leAt c 68 4 ≠ (crc32 (slice c 0 68)).toNat ∨ !ascending ((cardPoints c).map fun p => (p.1 : Int)) then some 0xFF
      else none

/-- The correction at a speed above the point `(s, c)`, from the points that follow it (R362). -/
def cardAbove (s : Nat) (c : Int) (ps : List (Nat × Int)) (u : Rat) : Rat × Bool :=
  match ps with
  | [] => ((c : Rat), true)
  | (s', c') :: rest =>
    if u < (s' : Rat) then
      (fadd (c : Rat) (fdiv (fmul (fsub (c' : Rat) (c : Rat)) (fsub u (s : Rat))) (fsub (s' : Rat) (s : Rat))), false)
    else cardAbove s' c' rest u

/-- The correction of a card at a speed of `u` mm/s, and whether the record carries CLAMPED: at or above the last point, be
it the first point as well (R362). -/
def cardAt (ps : List (Nat × Int)) (u : Rat) : Rat × Bool :=
  match ps with
  | [] => (0, false)
  | (s, c) :: rest => if u < (s : Rat) then ((c : Rat), false) else cardAbove s c rest u

/-! ## Fluids (R379, R380, R396) -/

/-- Properties of a fluid: kg/m³, J/(kg·K), J/kg, Pa·s; no viscosity where its coefficients are not numbers (log 74). -/
structure Props where
  rho : Rat
  cp : Rat
  h : Rat
  mu : Option Rat
  deriving DecidableEq, Repr

/-- The coefficients from `i` on: four of them; none if one is not finite. -/
def coeffs (f : List Byte) (i : Nat) : Option (List Rat) :=
  ((List.range 4).map fun k => ofBinary32 (leAt f (4 * (i + k)) 4)).mapM id

/-- T_LO and T_HI in °C. -/
def fluidLo (f : List Byte) : Rat := mkRat (sleAt f 48 2) 100
def fluidHi (f : List Byte) : Rat := mkRat (sleAt f 50 2) 100

/-- A polynomial, the lowest coefficient first. -/
def poly (cs : List Rat) (t : Rat) : Rat := cs.foldr (fun c a => fadd c (fmul t a)) 0

/-- A binary32 value: a number, an infinity, or no number. -/
inductive Single where
  | num (v : Rat)
  | inf (neg : Bool)
  | nan
  deriving DecidableEq, Repr

/-- The value of a binary32 word. -/
def Single.ofWord (w : Nat) : Single :=
  match ofBinary32 w with
  | some v => .num v
  | none => if w % 2 ^ 23 = 0 then .inf (2 ^ 31 ≤ w) else .nan

/-- One coefficient times tⁱ. -/
def Single.term (t : Rat) (i : Nat) (c : Single) : Single :=
  let p := t ^ i
  match c with
  | .num v => .num (v * p)
  | .inf neg => if p = 0 then .nan else .inf (neg != decide (p < 0))
  | .nan => .nan

/-- A sum. -/
def Single.add (a b : Single) : Single :=
  match a, b with
  | .num x, .num y => .num (x + y)
  | .inf x, .inf y => if x = y then .inf x else .nan
  | .inf x, .num _ => .inf x
  | .num _, .inf y => .inf y
  | _, _ => .nan

/-- Above zero. -/
def Single.pos : Single → Bool
  | .num v => 0 < v
  | .inf neg => !neg
  | .nan => false

/-- The four coefficients from `i` on, as a block holds them. -/
def singles (f : List Byte) (i : Nat) : List Single := (List.range 4).map fun k => .ofWord (leAt f (4 * (i + k)) 4)

/-- Σ cᵢ·tⁱ without rounding is positive (R396). -/
def polyPos (cs : List Single) (t : Rat) : Bool := ((cs.zipIdx.map fun c => c.1.term t c.2).foldl Single.add (.num 0)).pos

/-- h above 0 °C: the integral of c_p (R380). -/
def enthalpy (bs : List Rat) (t : Rat) : Rat :=
  fmul t (poly ((List.range 4).map fun i => fdiv (bs.getD i 0) ((i + 1 : Nat) : Rat)) t)

/-- Properties from a coefficient block at `t` °C (R380). DESIGN CHOICE (log 74): a property whose coefficients are not all
finite is invalid. -/
def coeffProps (f : List Byte) (t : Rat) : Option Props :=
  match coeffs f 0, coeffs f 4 with
  | some a, some b =>
    if fluidLo f ≤ t ∧ t ≤ fluidHi f then
      some ⟨poly a t, poly b t, enthalpy b t, (coeffs f 8).map fun g => expRat (max (-700) (min 700 (poly g t)))⟩
    else none
  | _, _ => none

/-- Properties of water at `t` °C and `pa` Pa (R379). -/
def waterProps (pa : Nat) (t : Rat) : Option Props :=
  let k := fadd t (27315 / 100)
  if (1 / 10 : Rat) ≤ t ∧ t ≤ 150 ∧ waterPsat k ≤ (pa : Rat) ∧ pa ≤ 100000000 then
    let r := waterRho pa k
    some ⟨r, waterCp pa k, waterH pa k, some (waterMu k r)⟩
  else none

/-- The fluid of a path (R379, R380, R393). -/
def fluidAt (flow fluid : List Byte) (t : Rat) : Option Props :=
  if flowCoeff flow then coeffProps fluid t else waterProps (flowPress flow) t

/-- The check of a coefficient block (R396): T_LO, T_HI, and ρ and c_p at both and at each whole degree between them. -/
def fluidBad (f : List Byte) : Option Nat :=
  let lo := sleAt f 48 2
  let hi := sleAt f 50 2
  let ts := mkRat lo 100 :: mkRat hi 100 :: ((List.range 657).map fun (k : Nat) => (((k : Int) - 328 : Int) : Rat)).filter
    fun t => mkRat lo 100 ≤ t && t ≤ mkRat hi 100
  if hi ≤ lo ∨ !(ts.all fun t => polyPos (singles f 0) t && polyPos (singles f 4) t) then some 0xFF else none

/-! ## The gauge's blocks (R424, R425) -/

/-- Bits that fields of the configuration block use. -/
def gaugeCfgUsed : List Byte :=
  [0x0F, 0] ++ List.replicate 21 0xFF ++ [0x03, 0xFF, 0xFF, 0xFF, 0x0F, 0, 0, 0, 0]

/-- Ranges of R424. -/
def gaugeCfgFields : List FieldSpec :=
  [⟨0, 1, 0, 2, 1, 3⟩, ⟨2, 2, 0, 16, 2000, 20000⟩, ⟨4, 2, 0, 16, 100, 60000⟩, ⟨6, 2, 0, 16, 10, 1000⟩,
   ⟨8, 2, 0, 16, 300, 14400⟩, ⟨10, 1, 0, 8, 1, 50⟩, ⟨11, 1, 0, 8, 1, 50⟩, ⟨12, 1, 0, 8, 1, 50⟩, ⟨13, 1, 0, 8, 80, 100⟩] ++
  [⟨14, 2, 0, 16, 2000, 4200⟩, ⟨16, 2, 0, 16, 2000, 4200⟩, ⟨18, 2, 0, 16, 2000, 4200⟩, ⟨20, 2, 0, 16, 2500, 5000⟩,
   ⟨24, 1, 0, 8, 1, 255⟩, ⟨25, 1, 0, 8, 24, 240⟩]

/-- The check of a gauge configuration block (R424). -/
def gaugeCfgBad (g : List Byte) : Option Nat :=
  match firstBad gaugeCfgUsed gaugeCfgFields g with
  | some k => some k
  | none =>
    if leAt g 11 1 < leAt g 10 1 ∧ leAt g 12 1 < leAt g 11 1 ∧ leAt g 16 2 < leAt g 14 2 ∧ leAt g 18 2 < leAt g 16 2 then none
    else some 0xFF

end Sys2Proof.Machine
end

