-- ==== Sys2Proof/Machine/Drive.lean ====
section
/-! DEFINITION. The transducer ports (R315 to R323): which port of a path fires and which receives, the legs of the LNA, the
burst that a bridge drives, and what a port does between bursts. Instants of a burst are counted from its fire edge on the
grid of one sixty-fourth of a PLLA period. DESIGN CHOICE (log 73): a drive edge stands on the nearest grid point, and a port
that has fired or received keeps its termination until it fires or receives again. -/

namespace Sys2Proof.Machine

/-! ## The burst (R318, R319) -/

/-- The grid point of half-cycle `m` of a drive at `fd` kHz: 4,096,000/fd grid periods a cycle (R318). -/
def halfCycleAt (fd m : Nat) : Nat := (divRound ((2048000 * m : Nat) : Int) fd).toNat

/-- Half-cycles of the burst and its braking (R318). -/
def driveHalves (a : List Byte) : Nat := 2 * (acqBurst a + acqBrake a)

/-- The grid point at which the last braking cycle ends (R318, R321). -/
def driveEnd (a : List Byte) : Nat := halfCycleAt (acqFd a) (driveHalves a)

/-- The half-cycle that a grid point lies in (R9, R318). -/
def halfCycleOf (a : List Byte) (g : Nat) : Nat :=
  ((List.range (driveHalves a)).filter fun m => halfCycleAt (acqFd a) (m + 1) ≤ g).length

/-- Whether UTnP and UTnN are driven to VDRV at a grid point after the fire edge; nothing once the last braking cycle has
ended. Braking is in antiphase to the burst, an inverted burst starts low, and half mode holds UTnN low (R318, R319).
DEDUCED (log 73): a burst that is not inverted starts with UTnP high. -/
def driveAt (a : List Byte) (inverted : Bool) (g : Nat) : Option (Bool × Bool) :=
  if driveEnd a ≤ g then none
  else
    let m := halfCycleOf a g
    let high := (m % 2 == 0) != (decide (2 * acqBurst a ≤ m) != inverted)
    some (high, !high && !acqHalf a)

/-- TERM_Z in ohms; 0b11 is reserved (R321, R355). -/
def termOhms (z : BitVec 2) : Option Nat :=
  if z = 0 then some 50 else if z = 1 then some 200 else if z = 2 then some 1000 else none

/-! ## Shots and ports (R316, R321, R323, R348) -/

/-- A shot of the plan: up, and the swapped arrangement, which has the polarity inverted. -/
structure Plan where
  up : Bool
  swapped : Bool
  deriving DecidableEq, Repr

/-- The order of the shots (R348). -/
def shotPlan (matched : Bool) : List Plan :=
  if matched then [⟨false, false⟩, ⟨true, false⟩, ⟨true, true⟩, ⟨false, true⟩] else [⟨false, false⟩, ⟨true, false⟩]

/-- The shots of a sounding; a learn's pair is a shot in each direction in the normal arrangement (R343, R348). -/
def Sounding.shotsPlanned (x : Sounding) : List Plan := shotPlan (acqMatched x.acq && x.cal != some .learn)

/-- The shot now made. -/
def Sounding.plan (x : Sounding) : Plan := x.shotsPlanned.getD x.shots.length ⟨false, false⟩

/-- The port that fires, and the port that receives (R316). -/
def Sounding.firing (x : Sounding) : Fin 4 := if x.plan.up then x.portB else x.portA
def Sounding.receiving (x : Sounding) : Fin 4 := if x.plan.up then x.portA else x.portB

/-- The polarity of the shot now made: POL, inverted in the swapped arrangement (R319, R348). -/
def Sounding.inverted (x : Sounding) : Bool := acqPol x.acq != x.plan.swapped

/-- The leg of port b (`isB`) or port a: LEG0 for port a in the normal arrangement, exchanged in the swapped one (R323). -/
def legOf (isB swapped : Bool) : Leg := if isB != swapped then .leg1 else .leg0

/-- The leg on which the shot now made is received: that of port a for an up shot. -/
def Sounding.leg (x : Sounding) : Leg := legOf (!x.plan.up) x.plan.swapped

/-- A port that drives or receives goes to its termination (R321). -/
def PortSt.settle : PortSt → PortSt
  | .driving _ z => .held z
  | .receiving _ z => .held z
  | p => p

/-- At the fire edge one port drives and one receives; the one receive chain leaves every other port (R315, R316, R321,
R322). -/
def Log.firePorts (x : Sounding) (l : Log) : Log :=
  let z := acqTermZ x.acq
  { l with ports := ((l.ports.map PortSt.settle).set x.firing (.driving x.inverted z)).set x.receiving (.receiving x.leg z) }

/-- The burst is over, or is stopped: its port is held at its termination (R320, R321). -/
def PortSt.endBurst : PortSt → PortSt
  | .driving _ z => .held z
  | p => p
def Log.endBurst (l : Log) : Log := { l with ports := l.ports.map PortSt.endBurst }

/-- The shot is over: both ports present their termination. -/
def Log.settlePorts (l : Log) : Log := { l with ports := l.ports.map PortSt.settle }

/-- A path is configured: an acquisition block and a flow block are accepted or loaded (R297). -/
def PathSt.configured (p : PathSt) : Bool := p.acqOk && p.flowOk

/-- A path's state. -/
def Log.path (l : Log) : Path → PathSt
  | .a => l.a | .b => l.b

/-- The port is one of a path's. -/
def PathSt.hasPort (n : Fin 4) (p : PathSt) : Bool := p.portA == n || p.portB == n

/-- The port belongs to a configured path, or to the path that a calibration or a sounding uses (R317). -/
def Log.portUsed (l : Log) (n : Fin 4) : Bool :=
  (l.a.configured && l.a.hasPort n) || (l.b.configured && l.b.hasPort n) || (l.cal.map fun c => (l.path c.path).hasPort n).getD false ||
    (l.cur.map fun x => x.portA == n || x.portB == n).getD false

/-- What a port does: at rest while it belongs to no configured path, while LOG is not ON, and under LOG's pad hold (R29,
R167, R317). -/
def State.portSt (s : State) (n : Fin 4) : PortSt :=
  if s.isOn .log && !s.dom.padHeld.getLsbD 2 && s.log.portUsed n then s.log.ports[n] else .rest

end Sys2Proof.Machine
end

