-- ==== Sys2Proof/Machine/ShotMath.lean ====
section
/-! DEFINITION. Arrival timing: from the samples of a capture to a judged shot (R326, R329, R335, R337 to R348, R352).
Baseband values are in 2⁻⁴⁸ codes. DESIGN CHOICE (log 25): samples before the capture are 0, the figures of a record round
to the nearest unit, and a shot with A1 of 0 has no SNR. -/

namespace Sys2Proof.Machine

/-- A capture with its baseband and envelope (R337). -/
structure Wave where
  x : List Int
  z : List Cx
  e : List Nat
  deriving DecidableEq, Repr

/-- exp(−j2π f_d t) at sample `k`, times the sample (R330, R337). -/
def mixed (fd delay : Nat) (k : Nat) (x : Int) : Cx :=
  let (c, s) := cosSinTurn (fd * (delay + k)) 64000
  ⟨x * (c / 2 ^ 48), -(x * (s / 2 ^ 48))⟩

/-- Running sums. -/
def runningSums (acc : Cx) : List Cx → List Cx
  | [] => []
  | c :: cs => let a : Cx := ⟨acc.re + c.re, acc.im + c.im⟩; a :: runningSums a cs

/-- P and W: samples of a carrier period and of the burst (R337, R338). -/
def acqP (a : List Byte) : Nat := (divRound 64000 (acqFd a)).toNat
def acqW (a : List Byte) : Nat := (divRound ((acqBurst a * 64000 : Nat) : Int) (acqFd a)).toNat

/-- The baseband and envelope of a waveform that starts at DELAY (R337). -/
def waveOf (a : List Byte) (x : List Int) : Wave :=
  let p := max 1 (acqP a)
  let sums := runningSums ⟨0, 0⟩ (x.zipIdx.map fun (v, k) => mixed (acqFd a) (acqDelay a) k v)
  let z := List.zipWith (fun (c d : Cx) => (⟨divRound (c.re - d.re) p, divRound (c.im - d.im) p⟩ : Cx)) sums
    (List.replicate p ⟨0, 0⟩ ++ sums)
  ⟨x, z, z.map fun c => isqrt (4 * (c.re * c.re + c.im * c.im)).toNat⟩

/-- The wave of a capture. -/
def wave (a : List Byte) (samples : List (BitVec 14)) : Wave := waveOf a (samples.map BitVec.toInt)

/-- σ: the rms of the envelope below the gate (R338). -/
def sigma (a : List Byte) (w : Wave) : Nat :=
  let q := w.e.take (acqGateOpen a)
  isqrt ((q.map fun v => v * v).sum / max 1 q.length)

/-- THR (R338), in 2⁻⁴⁸ codes. -/
def threshold (a : List Byte) (sig : Nat) : Nat := max (32 * acqQAbs a * 2 ^ 48) (acqQNoise a * sig / 4)

/-- The largest value within an index range, and its first index. -/
def peak (e : List Nat) (lo hi : Nat) : Nat × Nat :=
  e.zipIdx.foldl (fun m v => if lo ≤ v.2 ∧ v.2 < hi ∧ m.1 < v.1 then v else m) (0, lo)

/-- The first index in a range at which the envelope reaches a level. -/
def reaches (e : List Nat) (lo hi thr : Nat) : Option Nat :=
  (e.zipIdx.find? fun v => lo ≤ v.2 && v.2 < hi && thr ≤ v.1).map (·.2)

/-- An arrival as the envelope locates it (R338): k_q, A1, k1. -/
structure Found where
  kq : Nat
  a1 : Nat
  k1 : Nat
  deriving DecidableEq, Repr

/-- The arrival of a gate (R338). -/
def findArrival (a : List Byte) (w : Wave) (thr lo hi : Nat) : Option Found :=
  (reaches w.e lo hi thr).map fun kq => let (a1, k1) := peak w.e kq (min (kq + acqW a) hi); ⟨kq, a1, k1⟩

/-- t₅₀ in samples (R340): the last rise through A1/2 at or before k1. -/
def t50 (w : Wave) (f : Found) : Rat :=
  let rises := ((0 :: w.e).zip w.e).zipIdx.filter fun v => v.2 ≤ f.k1 && 2 * v.1.1 < f.a1 && f.a1 ≤ 2 * v.1.2
  match rises.getLast? with
  | some ((p, c), k) => ((k : Rat) - 1) + mkRat ((f.a1 : Int) - 2 * p) (2 * (c - p))
  | none => (f.kq : Rat)

/-- A sample instant in ns from the fire edge (R330). -/
def sampleNs (a : List Byte) (k : Rat) : Rat := ((acqDelay a : Rat) + k) * (125 / 8)

/-- An arrival timed (R340, R341): t_a in ns, μ, whether the phase span lies in the capture, and the span's end. -/
structure Timed where
  ta : Rat
  mu : Rat
  inside : Bool
  spanEnd : Nat
  deriving DecidableEq, Repr

/-- The quadrature correlation with the template (R341). -/
def correlate (zs h : List Cx) : Cx :=
  (zs.zip h).foldl (fun s p => ⟨s.re + (p.1.re * p.2.re + p.1.im * p.2.im), s.im + (p.1.im * p.2.re - p.1.re * p.2.im)⟩) ⟨0, 0⟩

/-- The phase refinement (R341). -/
def refine (a : List Byte) (t : Template) (inverted : Bool) (w : Wave) (f : Found) : Timed :=
  let that := sampleNs a (t50 w f) + mkRat t.dEnv 65536
  let kh := roundRat (that / (125 / 8) - (acqDelay a : Rat)) - (t.j0 : Int)
  let z := correlate (w.z.drop kh.toNat) t.h
  let z : Cx := if inverted then ⟨-z.re, -z.im⟩ else z
  let td := mkRat 1000000 (acqFd a)
  let turn := argTurn z.re z.im
  let tphi := (if turn = 0 then 0 else 1 - turn) * td
  let n := ((that - tphi) / td + 1 / 2).floor
  let ta := tphi + n * td
  ⟨ta, (if ta ≤ that then that - ta else ta - that) / td, 0 ≤ kh && kh + t.h.length ≤ (w.x.length : Int),
    (kh + t.h.length).toNat⟩

/-- The positive-going zero crossings of x at or after `k`, by linear interpolation, in samples (R339, R343). -/
def crossings (x : List Int) (k : Nat) : List Rat :=
  ((((0 :: x).zip x).zipIdx.filter fun v => v.1.1 < 0 && 0 ≤ v.1.2).map fun v =>
    ((v.2 : Rat) - 1) + mkRat (-v.1.1) (v.1.2 - v.1.1).toNat).filter fun c => (k : Rat) ≤ c

/-- The cycle-peak pattern after k_q: the largest |x| of each of eight carrier periods (R339). -/
def pattern (a : List Byte) (w : Wave) (kq : Nat) : List Nat :=
  match crossings w.x kq with
  | [] => List.replicate 8 0
  | c :: _ =>
    (List.range 8).map fun (m : Nat) =>
      (w.x.zipIdx.filter fun v => c ≤ (v.2 : Rat) && (((v.2 : Rat) - c) * mkRat (acqFd a) 64000).floor == (m : Int)).foldl
        (fun p v => max p v.1.natAbs) 0

/-- Σ pq, Σ p² and Σ q² of two patterns (R339). -/
def patternSums (p q : List Nat) : Nat × Nat × Nat :=
  ((List.zipWith (· * ·) p q).sum, (p.map fun v => v * v).sum, (q.map fun v => v * v).sum)

/-- ρ is below PAT_MIN/256 (R339). -/
def overlap (a : List Byte) (s : Nat × Nat × Nat) : Bool :=
  65536 * (s.1 * s.1) < acqPatMin a * acqPatMin a * (s.2.1 * s.2.2) || (s.2.1 * s.2.2 == 0 && acqPatMin a != 0)

/-- ρ·256, saturating at 255 (R350). -/
def rhoCode (s : Nat × Nat × Nat) : Nat :=
  if s.2.1 * s.2.2 = 0 then 0 else min 255 ((isqrt (4 * 65536 * (s.1 * s.1) / (s.2.1 * s.2.2)) + 1) / 2)

/-- SNR in 0.25 dB, saturating at 255 (R338, R350). -/
def snrCode (a1 sig : Nat) : Nat :=
  if a1 = 0 then 0 else if sig = 0 then 255 else (clampInt 0 255 (roundRat (4 * dB a1 sig))).toNat

/-- SNR is below SNR_MIN (R338). -/
def lowSnr (a : List Byte) (a1 sig : Nat) : Bool :=
  if a1 = 0 then acqSnrMin a != 0 else sig != 0 && decide (2 * dB a1 sig < (acqSnrMin a : Rat))

/-- A value of 2⁻⁴⁸ codes in converter codes. -/
def codeOf (v : Nat) : Nat := (v + 2 ^ 47) / 2 ^ 48

/-- The choice of R346 between a first and a second arrival; the last value is TRACK_RESET. -/
def resolve (a : List Byte) (tau : Option Rat) (one : Timed) (two : Option Timed) : Timed × Bool :=
  let near (t : Timed) (tau : Rat) : Bool :=
    let d := if t.ta ≤ tau then tau - t.ta else t.ta - tau
    d < mkRat 500000 (acqFd a)
  match acqResolve a, tau with
  | 1, _ => (two.getD one, false)
  | 2, some tau =>
    if near one tau then (one, false)
    else match two with
      | some t => if near t tau then (t, false) else (one, true)
      | none => (one, true)
  | _, _ => (one, false)

/-- A sample at a rail between the gate opening and `hi` (R326). -/
def clipped (a : List Byte) (w : Wave) (hi : Nat) : Bool :=
  w.x.zipIdx.any fun v => acqGateOpen a ≤ v.2 && v.2 < hi && (v.1 == -8192 || v.1 == 8191)

/-- Timing and checks 7 to 12 of a captured shot (R352); `base` holds what is known of it. -/
def timeShot (a : List Byte) (t : Template) (inverted : Bool) (tau : Option Rat) (d : Nat) (base : ShotResult)
    (samples : List (BitVec 14)) : ShotResult :=
  let w := wave a samples
  let sig := sigma a w
  let thr := threshold a sig
  let close := min (acqGateClose a) w.x.length
  match findArrival a w thr (acqGateOpen a) close with
  | none => { base with cause := if clipped a w (acqGateClose a) then 7 else 8 }
  | some f =>
    let a2 := (peak w.e (f.k1 + acqW a) close).1
    let multi := f.k1 + acqW a < close && decide ((f.a1 : Rat) * halfDb (acqOvrDb a) ≤ (a2 : Rat))
    let two := if multi then (findArrival a w thr (f.k1 + acqW a) close).map (refine a t inverted w) else none
    let (c, reset) := resolve a tau (refine a t inverted w f) two
    let sums := patternSums t.pattern (pattern a w f.kq)
    let muCode := (roundRat (c.mu * 256)).toNat
    let r := { base with a1 := some (codeOf f.a1), a2 := codeOf a2, multipath := multi, trackReset := reset }
    if clipped a w c.spanEnd then { r with cause := 7 }
    else
      let r := { r with snr := some (snrCode f.a1 sig) }
      if lowSnr a f.a1 sig then { r with cause := 9 }
      else
        let r := { r with rho := some (rhoCode sums) }
        if overlap a sums then { r with cause := 10 }
        else if !c.inside then { r with cause := 11 }
        else
          let r := { r with mu := some muCode }
          if mkRat (acqCycMax a) 256 < c.mu then { r with cause := 12 }
          else { r with cause := 0, ta := roundRat (c.ta * 65536), tof := roundRat ((c.ta - mkRat d 128) * 65536) }

/-- Checks 7 to 9 of a shot of an arrival learn: it has no template, so OVERLAP, SPAN and CYCLE are not judged, and CLIP is
judged over the gate (R338, R343, R344). DESIGN CHOICE (log 49). -/
def learnShot (a : List Byte) (base : ShotResult) (samples : List (BitVec 14)) : ShotResult :=
  let w := wave a samples
  let sig := sigma a w
  let close := min (acqGateClose a) w.x.length
  match findArrival a w (threshold a sig) (acqGateOpen a) close with
  | none => { base with cause := if clipped a w close then 7 else 8 }
  | some f =>
    let a2 := (peak w.e (f.k1 + acqW a) close).1
    let multi := f.k1 + acqW a < close && decide ((f.a1 : Rat) * halfDb (acqOvrDb a) ≤ (a2 : Rat))
    let r := { base with a1 := some (codeOf f.a1), a2 := codeOf a2, multipath := multi }
    if clipped a w close then { r with cause := 7 }
    else { r with snr := some (snrCode f.a1 sig), cause := if lowSnr a f.a1 sig then 9 else 0 }

/-! ## The arrival learn (R343). DESIGN CHOICE (log 49): shots are aligned to whole samples, h begins at k_q of the average,
and its length is Config.templateLen. The sums below stand for averages: every use of them is a ratio. -/

/-- A learn shot with its arrival. -/
structure Learned where
  body : Wave
  found : Found
  deriving DecidableEq, Repr

/-- The arrival of a learn shot. -/
def Learned.of (a : List Byte) (samples : List (BitVec 14)) : Option Learned :=
  let w := wave a samples
  (findArrival a w (threshold a (sigma a w)) (acqGateOpen a) (min (acqGateClose a) w.x.length)).map fun f => ⟨w, f⟩

/-- t₅₀ in samples. -/
def Learned.t50 (l : Learned) : Rat := Machine.t50 l.body l.found

/-- Sample `k` of a shot moved by `d` samples. -/
def movedAt (x : List Int) (d : Int) (k : Nat) : Int := if 0 ≤ (k : Int) + d then x.getD ((k : Int) + d).toNat 0 else 0

/-- The shots added up, each aligned on t₅₀ with the first. -/
def alignedSum (ls : List Learned) : List Int :=
  match ls with
  | [] => []
  | l :: _ => (List.range l.body.x.length).map fun k =>
      (ls.map fun m => movedAt m.body.x (roundRat (m.t50 - l.t50)) k).sum

/-- The template that an average gives, D_env apart, which is here the offset of the origin from its own t₅₀; none where the
average has no arrival or no carrier cycle REF_CYC. `n` is the number of shots in the sum. -/
def templateOf (a : List Byte) (n : Nat) (x : List Int) : Option Template :=
  let w := waveOf a x
  let thr := max (32 * acqQAbs a * 2 ^ 48 * n) (acqQNoise a * sigma a w / 4)
  match findArrival a w thr (acqGateOpen a) (min (acqGateClose a) x.length) with
  | none => none
  | some f =>
    ((crossings x f.kq).drop (acqRefCyc a - 1)).head?.map fun c =>
      let turn := cosSinTurn (acqFd a * (acqDelay a * c.den + c.num.toNat)) (64000 * c.den)
      let back (z : Cx) : Cx := ⟨(z.re * turn.1 - z.im * turn.2) / fxOne, (z.re * turn.2 + z.im * turn.1) / fxOne⟩
      { h := ((w.z.drop f.kq).take (Config.templateLen a)).map back, j0 := (roundRat c).toNat - f.kq, pattern := pattern a w f.kq
        dEnv := roundRat ((c - t50 w f) * (125 / 8) * 65536) }

/-- t_a − t₅₀ of a learn shot in 2⁻¹⁶ ns, where its phase span lies in the capture (R341, R343). -/
def Learned.offset (a : List Byte) (t : Template) (l : Learned) : Option Int :=
  let r := refine a t false l.body l.found
  if r.inside then some (roundRat ((r.ta - sampleNs a l.t50) * 65536)) else none

/-- What the captures of a learn's valid shots give: the template with D_env, the mean of t_a − t₅₀, and those offsets. -/
def learnTemplate (a : List Byte) (shots : List (List (BitVec 14))) : Option (Template × List Int) :=
  let ls := shots.filterMap (Learned.of a)
  (templateOf a ls.length (alignedSum ls)).map fun t =>
    let ds := ls.filterMap (Learned.offset a t)
    ({ t with dEnv := divRound ds.sum (max 1 ds.length) }, ds)

/-- The learn is rejected: fewer than 90 % of its `made` shots reach SNR_MIN, or t_a − t₅₀ spreads by more than 0.1·T_d
(R343). -/
def learnRejected (acq : List Byte) (made reached : Nat) (ds : List Int) : Bool :=
  10 * reached < 9 * made ||
    match ds.max?, ds.min? with
    | some hi, some lo => 6553600000 < (hi - lo) * (acqFd acq : Int)
    | _, _ => true

/-! ## The judgement of a shot (R352) -/

/-- d lies outside 2–100 ns, or its conversion overflowed (R329). -/
def badLaunch : Option Nat → Bool
  | some d => d < 256 || 12800 < d
  | none => true

/-- The judgement of a shot that was captured (R343 to R345, R347, R352). -/
def judgeShot (learning : Bool) (a : List Byte) (t : Option Template) (inverted : Bool) (tau : Option Rat) (base : ShotResult)
    (samples : List (BitVec 14)) : ShotResult :=
  if badLaunch base.launch then { base with cause := 2 }
  else if base.noisy && !acqNoisyKeep a then { base with cause := 5 }
  else if learning then learnShot a base samples
  else match t with
    | none => { base with cause := 6 }
    | some t => timeShot a t inverted tau (base.launch.getD 0) base samples

end Sys2Proof.Machine
end

