-- ==== Sys2Proof/Machine/LogOps.lean ====
section
/-! DEFINITION. What the Log engine computes and keeps between its commands: paths and their rights, velocity and flow
(R360 to R364), totals and hold (R368 to R371), heat (R380 to R382), RTD sets (R373, R374), the schedule of the engine
(R251, R356, R375) and the entries of totals (R384 to R387). Instants are CK32 edges as the trim engine counts them. -/

namespace Sys2Proof.Machine

/-! ## Paths -/

/-- Change a path's state. -/
def State.onPath (p : Path) (f : PathSt → PathSt) (s : State) : State :=
  s.onLog fun l => match p with
    | .a => { l with a := f l.a }
    | .b => { l with b := f l.b }

/-- The path's number in records and commands. -/
def pathNo : Path → Nat
  | .a => 0 | .b => 1

/-- The berth that holds the path's right (R249). -/
def State.pathHolder (s : State) (p : Path) : Option (Fin 4) := s.holderOf (pathNo p)

/-- A record of a path, to the berth that holds its right (R350, R391). -/
def State.pathRecord (p : Path) (stamp : BitVec 64) (type rflags : Byte) (fields : List (Nat × Option (List Byte)))
    (s : State) : State :=
  match s.pathHolder p with
  | some b => let (bs, s) := s.fill fields; s.record b stamp type (BitVec.ofNat 8 (pathNo p)) rflags bs
  | none => s

/-- Clear the template and LEEWAY of a path (R344, R365, R450); its last valid shots stay those of R346. -/
def PathSt.clearCal (p : PathSt) : PathSt := { p with template := none, leeway := 0 }

/-- MEM_USED: 4 KiB for each configured path of a berth (R300, R431). -/
def State.memUsed (s : State) : State :=
  (List.finRange 4).foldl (fun s n =>
    let k := (if s.log.a.configured && s.pathHolder .a == some n then 4 else 0) +
      (if s.log.b.configured && s.pathHolder .b == some n then 4 else 0)
    s.onBerth n fun b => { b with memUsed := BitVec.ofNat 8 k }) s

/-! ## Velocity and flow (R360 to R364) -/

/-- What a valid sounding gives before the median. -/
structure FlowRes where
  cause : Nat
  /-- v_line in µm/s -/
  vline : Int := 0
  /-- v̄ in m/s -/
  vbar : Rat := 0
  re : Option Rat := none
  k : Option Rat := none
  clamped : Bool := false
  deriving DecidableEq, Repr

/-- v_line in m/s (R360); times in 2⁻¹⁶ ns. -/
def vLine (flow : List Byte) (tf delta : Int) : Rat :=
  let t := fdiv tf 65536000000000
  let d := fdiv delta 65536000000000
  let l := fdiv (flowLp flow) 1000000
  fdiv (fmul (fdiv (fmul l l) (fmul 2 (fdiv (flowX flow) 1000000))) d) (fsub (fmul t t) (fdiv (fmul d d) 4))

/-- k_t (R361). -/
def kTurb (re : Rat) : Rat := fdiv 1 (fsub (1119 / 1000) (fmul (11 / 1000) (log10Rat re)))

/-- The profile factor of a Reynolds number (R361). -/
def kProfile (re : Rat) : Rat :=
  if re ≤ 2000 then 3 / 4
  else if 4000 ≤ re then kTurb re
  else fadd (3 / 4) (fdiv (fmul (fsub (kTurb 4000) (3 / 4)) (fsub re 2000)) 2000)

/-- The velocity of a sounding (R360 to R363), with the meter temperature in °C. -/
def flowOf (flow card fluid : List Byte) (leeway : Int) (tm : Rat) (tof dtof : Int) : FlowRes :=
  let tf := tof - flowTau0 flow
  let delta := dtof - leeway
  if tf ≤ delta.natAbs then { cause := 13 }
  else
    let v := vLine flow tf delta
    let av := if v < 0 then -v else v
    let fin (re : Option Rat) (k : Rat) : FlowRes :=
      let (c, clamped) := cardAt (cardPoints card) (fmul (fmul k av) 1000)
      let vb := fmul (fmul k v) (fadd 1 (fdiv c 1000000))
      { cause := 0, vline := roundRat (v * 1000000), vbar := vb, re, k := some k, clamped }
    if flowReynolds flow then
      match (fluidAt flow fluid tm).bind fun f => f.mu.map fun mu => (f.rho, mu) with
      | none => { cause := 14, vline := roundRat (v * 1000000) }
      | some (rho, mu) =>
        let re := fdiv (fmul (fmul av (fdiv (flowId flow) 1000000)) rho) mu
        fin (some re) (kProfile re)
    else fin none (mkRat (flowKFix flow) 65536)

/-- Insert into an ascending list. -/
def insertSorted (v : Rat) : List Rat → List Rat
  | [] => [v]
  | x :: xs => if v ≤ x then v :: x :: xs else x :: insertSorted v xs

/-- The median; an even count takes the mean of the middle two (R364). -/
def median (vs : List Rat) : Rat :=
  let s := vs.foldr insertSorted []
  let n := s.length
  if n % 2 = 1 then s.getD (n / 2) 0 else fdiv (fadd (s.getD (n / 2 - 1) 0) (s.getD (n / 2) 0)) 2

/-- π in binary64. -/
def piRat : Rat := rnd (ofFx fxPi)

/-- Q in m³/s of a mean velocity in m/s (R363). -/
def volumeFlow (flow : List Byte) (v : Rat) : Rat :=
  let d := fdiv (flowId flow) 1000000
  fdiv (fmul (fmul v piRat) (fmul d d)) 4

/-! ## The meter temperature and heat (R380 to R382) -/

/-- An input's result in the latest set. -/
def Log.rtdOf (l : Log) (n : Fin 4) : Option RtdResult := (l.rtdLast.find? fun x => x.1 == n).map (·.2)

/-- The temperature of an input in 0.1 mK while the set is fresh and the input is not faulted. -/
def State.rtdTemp (s : State) (p : Path) (n : Fin 4) : Option Int :=
  match (s.log.path p).rtdFresh, s.log.rtdOf n with
  | true, some r => if r.cause = 0 then r.temp else none
  | _, _ => none

/-- 0.1 mK as °C. -/
def celsius (t : Int) : Rat := mkRat t 10000

/-- The meter temperature in °C, and whether T_FALL stands in (R380). -/
def State.meterTemp (s : State) (p : Path) (flow : List Byte) : Rat × Bool :=
  match s.rtdTemp p (flowMtr flow) with
  | some t => (celsius t, false)
  | none => (flowTFall flow, true)

/-- Heat power: the cause of a HEAT record, and Φ in 0.1 W, T_sup − T_ret in 0.1 mK, ρ(T_m) where they are computed. -/
structure HeatRes where
  cause : Nat
  phi : Option Int := none
  dT : Option Int := none
  rho : Option Rat := none
  deriving DecidableEq, Repr

/-- R381, R382; `q` is the flow in m³/s where it is valid. The first cause of R382 in the codes' order is recorded. -/
def State.heatOf (s : State) (p : Path) (flow fluid : List Byte) (q : Option Rat) : HeatRes :=
  let props (t : Rat) : Option Props := fluidAt flow fluid t
  let rho := (props (s.meterTemp p flow).1).map (·.rho)
  let sup := s.rtdTemp p (flowSup flow)
  let ret := s.rtdTemp p (flowRet flow)
  let dT : Option Int := match sup, ret with
    | some a, some b => some (a - b)
    | _, _ => none
  let cause (c : Nat) : HeatRes := { cause := c, dT, rho }
  if !(s.log.path p).rtdFresh then cause 1
  else
    match s.rtdTemp p (flowMtr flow), sup, ret with
    | some tm, some ts, some tr =>
      match props (celsius tm), props (celsius ts), props (celsius tr) with
      | some m, some fs, some fr =>
        match q with
        | none => cause 4
        | some q => { cause := 0, dT, rho, phi := some (roundRat (10 * fmul (fmul q m.rho) (fsub fs.h fr.h))) }
      | _, _, _ => cause 3
    | _, _, _ => cause 2

/-! ## Totals (R368) -/

/-- Add `x` units of 1/32,768, saturating. -/
def Total.add (max : Nat) (x : Nat) (t : Total) : Total :=
  let r := t.rem + x
  if max < t.val + r / 32768 then { val := max, rem := 0 } else { val := t.val + r / 32768, rem := r % 32768 }

/-- The maxima of the totals. -/
def max64 : Nat := 2 ^ 64 - 1
def max32 : Nat := 2 ^ 32 - 1

/-- Credit `n` edges of volume at `q` µL/s (R368). -/
def Totals.volume (q : Int) (n : Nat) (t : Totals) : Totals :=
  if 0 < q then { t with volFwd := t.volFwd.add max64 (q.natAbs * 1000 * n) }
  else if q < 0 then { t with volRev := t.volRev.add max64 (q.natAbs * 1000 * n) }
  else t

/-- Credit `n` edges of heat at `phi` in 0.1 W (R368). DESIGN CHOICE (log 26): the recorded Φ is what is credited. -/
def Totals.heat (phi : Int) (n : Nat) (t : Totals) : Totals :=
  if 0 < phi then { t with eHeat := t.eHeat.add max64 (phi.natAbs * 100 * n) }
  else if phi < 0 then { t with eCool := t.eCool.add max64 (phi.natAbs * 100 * n) }
  else t

/-- Missing time (R368). -/
def Totals.noFlow (n : Nat) (t : Totals) : Totals := { t with missFlow := t.missFlow.add max32 n }
def Totals.noHeat (n : Nat) (t : Totals) : Totals := { t with missHeat := t.missHeat.add max32 n }

/-- Remember what an interval was credited with, for the mean of R390; older than 61 s is dropped. -/
def PathSt.span (start stop : Nat) (q : Option Int) (p : PathSt) : PathSt :=
  if start < stop then
    { p with spans := ⟨start, stop, q⟩ :: p.spans.filter fun x => stop < x.toEdge + 61 * 32768 }
  else p

/-- Credit the flow of an interval between two instants, or its absence (R368 to R370): its length is that of their TIMEs.
DESIGN CHOICE (log 75): where the calendar has been set back between them, nothing is credited. -/
def PathSt.credit (start stop : Inst) (q : Option Int) (p : PathSt) : PathSt :=
  let n := stop.units - start.units
  (match q with
    | some q => { p with totals := p.totals.volume q n }
    | none => { p with totals := p.totals.noFlow n }).span start.edge stop.edge q

/-- Credit the heat of an interval, or its absence (R371); nothing while HEAT_EN is 0 (DEDUCED from R387). -/
def PathSt.creditHeat (heatEn : Bool) (n : Nat) (phi : Option Int) (p : PathSt) : PathSt :=
  if heatEn then
    match phi with
    | some f => { p with totals := p.totals.heat f n }
    | none => { p with totals := p.totals.noHeat n }
  else p

/-- A stamp in 1/32,768 s. -/
def stampUnits (st : BitVec 64) : Nat := stampLsec st * 32768 + st.toNat % 32768

/-- The time from the restored entry's STAMP to the first sounding after the start is missing (R387). -/
def PathSt.missSince (heatEn : Bool) (now : BitVec 64) (p : PathSt) : PathSt :=
  match p.missFrom with
  | some st =>
    let n := stampUnits now - stampUnits st
    { (p.creditHeat heatEn n none) with totals := (p.creditHeat heatEn n none).totals.noFlow n, missFrom := none }
  | none => p

/-- The close of the hold window (R369). -/
def PathSt.holdClose (p : PathSt) : Inst :=
  let v := p.lastValid.getD ⟨0, 0⟩
  ⟨v.units + flowHoldMax p.flow, v.edge + flowHoldMax p.flow⟩

/-- The path leaves HOLD for INVALID: the held flow is credited up to the window's closing, and the history is cleared
(R364, R369); in a leeway calibration that time is missing (R366). -/
def PathSt.holdEnd (leeway : Bool) (p : PathSt) : PathSt :=
  let p' := match p.tPrev with
    | some t =>
      if t.edge < p.holdClose.edge then
        { (p.credit t p.holdClose (if leeway then none else some p.lastQ)).creditHeat (flowHeat p.flow)
            (p.holdClose.units - t.units) none with tPrev := some p.holdClose }
      else p
    | none => p
  { p' with hold := .invalid, history := [] }

/-! ## RTD inputs (R373, R374) -/

/-- R₀ in 0.1 mΩ of a type code. -/
def rtdR0 (type : Nat) : Nat := if type = 0 then 1000000 else if type = 1 then 5000000 else 10000000

/-- The IEC 60751 resistance as a multiple of R₀ at `t` °C (R373). -/
def iecRatio (t : Rat) : Rat :=
  let r := 1 + mkRat 39083 10000000 * t - mkRat 5775 10000000000 * (t * t)
  if 0 ≤ t then r else r - mkRat 4183 1000000000000000 * ((t - 100) * (t * t * t))

/-- The temperature in 0.1 mK, nearest unit, at which the ratio is reached: a bisection over −200 to +850 °C. -/
def iecTemp (ratio : Rat) : Int :=
  (List.range 24).foldl (fun lo k =>
    let m : Int := lo + 2 ^ (23 - k)
    if m ≤ 8500000 ∧ iecRatio (mkRat (2 * m - 1) 20000) ≤ ratio then m else lo) (-2000000)

/-- One input's result (R373, R374); times in TDC LSB. -/
def rtdInput (blk : List Byte) (refOk : Bool) (tref2 : Option Nat) (n : Fin 4) (t : Option Nat) : RtdResult :=
  let tref := tref2.map fun v => (v + 1) / 2
  let r : Option Rat := match t, tref2 with
    | some t, some r2 => if r2 = 0 then none else some (mkRat ((rtdRef blk * 10 * t * 2 : Nat) : Int) r2 + rtdOffset blk n.val)
    | _, _ => none
  let r0 : Rat := rtdR0 (rtdType blk n.val)
  let res := r.map roundRat
  if !refOk then { temp := none, res, t, tref, cause := 4 }
  else match r with
    | none => { temp := none, res, t, tref, cause := 1 }
    | some v =>
      let temp := iecTemp (v / r0)
      if 5 / 2 * r0 < v then { temp := none, res, t, tref, cause := 1 }
      else if v < r0 / 2 then { temp := none, res, t, tref, cause := 2 }
      else { temp := some temp, res, t, tref, cause := if temp < -500000 ∨ 2000000 < temp then 3 else 0 }

/-- The two TREF times agree and lie within 100–850 µs (R374). DEDUCED (log 27): 0.1 % of their mean. -/
def refOk (a b : Nat) : Bool :=
  (max a b - min a b) * 2000 ≤ a + b && 12800000 ≤ min a b && max a b ≤ 108800000

/-! ## The engine's schedule (R251, R356, R375, R376) -/

/-- A sample period is 2,000 TDC LSB, and a millisecond 128,000,000 (R327, R330). -/
def samplesTime (n : Nat) : Nat := n * 2000

/-- The time of a launch conversion: one that overflows has run its 2²⁰ PLLA periods (R327, R329). -/
def launchTime (launch : Option Nat) : Nat := launch.getD (1048576 * 2000)

/-- Log time that `shots` shots of a path would take, in TDC LSB (R251). DESIGN CHOICE (log 49): a launch conversion yet to be
made counts 100 ns, the limit of R329. -/
def shotsTime (acq : List Byte) (shots : Nat) : Nat := shots * (samplesTime (acqSamples acq) + 12800)

/-- The share of a berth per window (R251). -/
def State.quotaTime (s : State) (b : Fin 4) : Nat := s.fw.charter.entries[b].logQuota.toNat * 128000000

/-- Log work of a berth's fits its present window (R251, R359). -/
def State.fitsQuota (s : State) (b : Option (Fin 4)) (time : Nat) : Bool :=
  match b with
  | some b => (s.berth b).logTime + time ≤ s.quotaTime b
  | none => true

/-- Charge Log time to a berth (R251). -/
def State.charge (b : Option (Fin 4)) (time : Nat) (s : State) : State :=
  match b with
  | some b => s.onBerth b fun k => { k with logTime := k.logTime + time }
  | none => s

/-- The inputs a flow block names: T_MTR, and T_SUP and T_RET with HEAT_EN at 1 (R383). DEDUCED (log 53). -/
def flowInputs (f : List Byte) : List (Fin 4) := flowMtr f :: (if flowHeat f then [flowSup f, flowRet f] else [])

/-- The inputs that the running calibration runs on: those of its path's flow block (R440, R453). DEDUCED (log 53). -/
def State.calInputs (s : State) : List (Fin 4) :=
  match s.log.cal with
  | some c => flowInputs (s.log.path c.path).flow
  | none => []

/-- A leeway calibration of the path runs (R365). -/
def State.leewayOn (s : State) (p : Path) : Bool :=
  match s.log.cal with
  | some c => c.kind == .leeway && c.path == p
  | none => false

/-- No sounding and no conversion runs, and LOG is ON: a free slot (R375). -/
def State.freeSlot (s : State) : Bool :=
  s.isOn .log && s.fw.started && s.log.cur.isNone && !((s.log.rtd.map (·.running)).getD false)

/-- A path's due sounding can start in a free slot (R359, R375). -/
def State.startable (s : State) (p : Path) : Bool :=
  let t := s.log.path p
  t.due && (t.configured || s.leewayOn p) && s.fitsQuota (s.pathHolder p) (shotsTime t.acq (acqShots t.acq))

/-- A waiting conversion has reached RTD_AGE (R375). -/
def State.rtdAged (s : State) : Bool :=
  match s.log.rtd with
  | some r => !r.running && r.since + rtdAge r.blk ≤ s.trim.raw
  | none => false

/-- A path's shots begin: a copy of its configuration, which they keep (R316, R324, and the corner of R359). -/
def PathSt.begin (p : Path) (cal : Option CalKind) (delayed : Bool) (snum : Word) (t : PathSt) : Sounding :=
  { path := p, cal, delayed, snum, due := t.dueAt, portA := t.portA, portB := t.portB, gain := t.gain, acq := t.acq
    flow := t.flow, card := t.card, fluid := t.fluid, template := t.template, leeway := t.leeway }

/-- A sounding starts: SNUM counts it (R356), and one delayed by a conversion raises EV70 (R376). -/
def State.startSounding (p : Path) (s : State) : State :=
  let t := s.log.path p
  let s := s.onPath p fun t => { t with due := false, delayed := false, snum := t.snum + 1 }
  let cal := if s.leewayOn p then some CalKind.leeway else none
  (s.onLog fun l => { l with cur := some (t.begin p cal t.delayed (t.snum + 1)) }).when t.delayed (State.raise 70)

/-- The path of an arrival learn that has shots left and Log time for the next pair (R251, R343). -/
def State.learnReady (s : State) : Option Path :=
  match s.log.cal with
  | some c =>
    let t := s.log.path c.path
    if c.kind == .learn && decide (c.made < 2 * acqLearnShots t.acq) && s.fitsQuota (s.pathHolder c.path) (shotsTime t.acq 2)
    then some c.path else none
  | none => none

/-- The next pair of an arrival learn starts, a shot in each direction; it is no sounding (R343). -/
def State.startLearn (p : Path) (s : State) : State :=
  s.onLog fun l => { l with cur := some ((l.path p).begin p (some .learn) false (l.path p).snum) }

/-- A path's due sounding was delayed by a conversion and can start: it follows that conversion (R375). -/
def State.delayedReady (s : State) (p : Path) : Bool := s.startable p && (s.log.path p).delayed

/-- What a free slot does by itself: a due sounding starts, path A first, unless a conversion has reached RTD_AGE or a
delayed sounding is to follow (R375). DESIGN CHOICE (log 49): the next pair of an arrival learn takes a slot as a due
sounding would, after those of the paths. -/
def State.startNext (s : State) : State :=
  if s.freeSlot && !s.rtdAged && !s.delayedReady .a && !s.delayedReady .b then
    if s.startable .a then s.startSounding .a
    else if s.startable .b then s.startSounding .b
    else match s.learnReady with
      | some p => s.startLearn p
      | none => s
  else s

/-! ## The configuration store (R296, R297) -/

/-- The valid image with the higher sequence number; an empty one where no copy is valid. -/
def Flash.store (f : Flash) : StoreImage :=
  match f.storeA, f.storeB with
  | some a, some b => if a.seq < b.seq then b else a
  | some a, none => a
  | none, some b => b
  | none, none => { seq := 0 }

/-- The image that the next write changes: the latest one, pending writes included. -/
def State.store (s : State) : StoreImage :=
  match s.fw.storeQ.getLast? with
  | some w => w.image
  | none => s.flash.store

/-- Begin a write of the store: a complete image, one sequence number on (R297). -/
def State.storeWrite (b : Fin 4) (answer : Bool) (erases : Option (Fin 4)) (f : StoreImage → StoreImage) (s : State) :
    State :=
  let i := s.store
  s.onFw fun x => { x with storeQ := x.storeQ ++ [{ image := { f i with seq := i.seq + 1 }, berth := b, answer, erases }] }

/-- Change the items of a path in an image. -/
def StoreImage.onPath (p : Path) (f : PathItems → PathItems) (i : StoreImage) : StoreImage :=
  match p with
  | .a => { i with a := f i.a }
  | .b => { i with b := f i.b }

/-! ## Entries of totals (R384 to R387) -/

/-- The DATA of a totals entry (R386). -/
def totalsData (p : Path) (t : PathSt) (sealed_ : Bool) : List Byte :=
  [BitVec.ofNat 8 (pathNo p), byteOf [flowHeat t.flow, sealed_], 0, 0] ++ leBytes 8 t.totals.volFwd.val ++
    leBytes 8 t.totals.volRev.val ++ leBytes 8 t.totals.eHeat.val ++ leBytes 8 t.totals.eCool.val ++
    leBytes 4 t.totals.missFlow.val ++ leBytes 4 t.totals.missHeat.val

/-- Write one totals entry of a path (R386). -/
def State.totalsEntry (kind : Byte) (p : Path) (s : State) : State :=
  match s.pathHolder p with
  | some b => s.logWrite kind (BitVec.ofNat 8 b.val) s.cal.stamp (totalsData p (s.log.path p) (s.berth b).sealed)
  | none => s

/-- One entry for each configured path, whose totals are in MEM_M (R368, R384, R385, R430). -/
def State.saveTotals (kind : Byte) (s : State) : State :=
  let s := s.when (s.log.a.configured || s.log.b.configured) (State.need .memM)
  let s := s.when s.log.a.configured (State.totalsEntry kind .a)
  s.when s.log.b.configured (State.totalsEntry kind .b)

/-- Whether an entry that is not yet durable holds totals. -/
def State.totalsPending (s : State) : Bool := s.fw.logQ.any LogEntry.isTotals

end Sys2Proof.Machine
end

