-- ==== Sys2Proof/Machine/DomainCmds.lean ====
section
/-! DEFINITION. The power domains, clocks, wakes and resets as commands (R158 to R185), and the delivery of events (R303). -/

namespace Sys2Proof.Machine

/-! ## Leaving ON (R160 to R165) -/

/-- IDLE of a domain (R161); CPU has no idle timer. -/
def Domains.idleOf (d : Domains) : Domain → Byte
  | .cpu => 0 | .memM => d.idle[0] | .memB => d.idle[1] | .log => d.idle[2] | .gauge => d.idle[3] | .pwr => d.idle[4]
  | .hif => d.idle[5]

/-- A sounding or a conversion runs, or has fallen due and waits: activity of LOG (R161). -/
def Log.active (l : Log) : Bool := l.cur.isSome || l.rtd.isSome || l.cal.isSome || l.a.due || l.b.due

/-- The idle time of a domain has passed in `edges` CK32 periods: IDLE·10 ms, at the first edge at or after it (R11, R161). -/
def Domains.idleOver (x : Domain) (edges : Nat) (d : Domains) : Bool :=
  d.idleOf x != 0 && decide ((d.idleOf x).toNat * 32768 ≤ 100 * edges)

/-- IDLE_TIMER_EXPIRE (R160 to R163), `edges` CK32 periods after the timer last opened. An IDLE of 0 disables it, and activity
that goes on keeps it from expiring. -/
def execIdleTimerExpire (d : Domain) (edges : Nat) (s : State) : Out :=
  if !s.dom.idleOver d edges || (d == .log && s.log.active) then .next s else .next (s.requestEntry d (s.pdLowOf d))

/-- Before an entry of the CPU, firmware sets WAKE_EN bits 18 and 19, and arms the timer while a path is configured, while
an RTD set or a fix attempt is due, or while a rest window is open (R407, R442). -/
def State.beforeWait (s : State) : State :=
  let timer := s.log.a.configured || s.log.b.configured || s.log.rtd.isSome || s.gauge.restMet || s.gauge.restOpen.isSome
  let ev := s.ev.wakeEn != 0
  s.onDom fun d => { d with
    fwTimer := timer
    wakeEn := (d.wakeEn &&& 0x3FFFF) ||| (if ev then 0x40000 else 0) ||| (if timer then 0x80000 else 0) }

/-- The WAKE_PEND bits of doorbells that firmware has not taken (R173, R183). -/
def Domains.bellBits (d : Domains) : Word :=
  (List.finRange 4).foldl (fun v n => if d.bells[n].pend then v ||| (1#32 <<< (12 + n.val)) else v) 0

/-- Firmware has handled the latched sources and clears them, but those of doorbells that it has not taken (R173). -/
def State.handled (s : State) : State := s.onDom fun d => { d with wakePend := d.wakePend &&& d.bellBits }

/-- WAIT_INSTRUCTION (R159, R160, R164): while an enabled source is latched in WAKE_PEND no domain changes and execution goes
on. DESIGN CHOICE (log 79): firmware then handles what is latched, so that a later wait finds it cleared. -/
def execWaitInstruction (targets : List (Domain × Low)) (s : State) : Out :=
  if s.isOn .cpu && s.fw.started then
    let s := s.when (targets.any fun t => t.1 == .cpu) State.beforeWait
    if s.dom.wakePend &&& s.dom.wakeEn != 0 then .next s.handled
    else .next (targets.foldl (fun s t => s.requestEntry t.1 t.2) s)
  else .next s

/-- DEFERRED_ENTRY (R159, R162): the entry takes place once nothing defers it. -/
def execDeferredEntry (d : Domain) (s : State) : Out :=
  match (s.dom.get d).deferred with
  | some low => if s.isOn d then .next (s.tryEntry d low) else .next s
  | none => .next s

/-- DOMAIN_ENTRY_DONE (R158, R163, R165): OFF loses the domain's contents, and an exit that waits begins. The CPU's entry
ends after LOG's (R159). -/
def execDomainEntryDone (d : Domain) (s : State) : Out :=
  let v := s.dom.get d
  let finish (st : PdState) (s : State) : State := (s.onDom fun x => x.set d { st, wanted := v.wanted }).startWanted
  match v.st with
  | .entering .off => if d = .cpu ∧ s.dom.log.st.low = false then .next s else .next (finish .off (s.lose d))
  | .entering .ret => .next (finish .ret s)
  | _ => .next s

/-! ## Reaching ON (R33, R76, R158, R159, R173, R402) -/

/-- Firmware restores the event controller after HIF was OFF, and enables delivery (R168, R303). DEDUCED (log 18): an IEN
byte that the host has set since stands. -/
def State.restoreHif (s : State) : State :=
  let s := match s.fw.hifSave with
    | some k => s.onEv fun e => { e with
        route := k.route, irqModeA := k.irqModeA, irqModeB := k.irqModeB, irqSel := k.irqSel
        ien := Vector.ofFn fun n => (List.range 12).foldl (fun v j =>
          if (v >>> (8 * j)).setWidth 8 = 0#8 then setEvByte v j ((k.ien[n] >>> (8 * j)).setWidth 8) else v) e.ien[n] }
    | none => s
  (s.onFw fun f => { f with hifSave := none }).onEv fun e => { e with routeOk := true }

/-- EV80 once HIF is ON and firmware runs (R179). -/
def State.sysReset (s : State) : State :=
  if s.dom.sysResetOwed && s.isOn .hif && s.fw.started then
    (s.onDom fun d => { d with sysResetOwed := false }).raise 80
  else s

/-- The events that waited for HIF are raised (R199, R227). -/
def State.raiseLate (s : State) : State :=
  let late := s.ev.late
  (List.range 96).foldl (fun s e => if late.getLsbD e then s.raise e else s) (s.onEv fun x => { x with late := 0 })

/-- What reaching ON does beyond PD_STATE. -/
def State.reached (d : Domain) (origin : Low) (vdrv : Nat) (s : State) : State :=
  match d with
  | .hif => (s.raiseLate.when s.fw.started State.restoreHif).sysReset
  | .memB => (s.when s.fw.started State.memUsed).flushRecords
  | .gauge => if origin = .off then (s.onGauge fun _ => Gauge.fresh).raise 93 else s
  | .pwr => ((s.onDom fun x => { x with beaconLatch := false }).takeZone).chargerGate
  | .log => (s.onLog fun l => { l with
      pump := vdrv < 4500
      a := if origin = .off then { l.a with gain := bitsAt l.a.acq 4 7 0 } else l.a
      b := if origin = .off then { l.b with gain := bitsAt l.b.acq 4 7 0 } else l.b }).startNext
  | _ => s

/-- DOMAIN_ON_DONE (R158): for CPU see CPU_RESET_RELEASE; LOG does not turn ON while XO16 has failed (R171). -/
def execDomainOnDone (d : Domain) (vdrv : Nat) (s : State) : Out :=
  match (s.dom.get d).st with
  | .leaving origin =>
    if d = .cpu then .next s
    else if d = .log ∧ s.dom.xo16Fail then
      .next (s.onDom fun x => x.set d { st := match origin with | .off => .off | .ret => .ret })
    else .next ((s.onDom fun x => x.set d { st := .on }).reached d origin vdrv).startWanted
  | _ => .next s

/-- CPU_RESET_RELEASE (R173): on a wake from OFF. -/
def execCpuResetRelease (s : State) : Out :=
  match s.dom.cpu.st with
  | .leaving _ =>
    .next (s.onDom fun d => { d with
      cpu := { st := .on }, wakeLast := d.wakePend, rstCause := 0x5, rstHist := d.rstHist ||| 0x10, cpuUp := true }).startWanted
  | _ => .next s

/-- PAD_HOLD_RELEASE (R167, R168): for HIF after its configuration is restored. -/
def execPadHoldRelease (d : Domain) (s : State) : Out :=
  match padBit d with
  | some k =>
    if s.fw.started && s.isOn d && s.dom.padHeld.getLsbD k then
      let s := (s.when (d == .hif) State.restoreHif).onDom fun x => { x with padHeld := x.padHeld &&& ~~~(1#4 <<< k) }
      .next (s.when (d == .pwr) fun s => s.onPower fun p => { p with chswZ := p.chg == .off })
    else .next s
  | none => .next s

/-! ## Clocks (R171) -/

/-- XO16_START_FAIL (R171). -/
def execXo16StartFail (s : State) : Out :=
  .next ((s.onDom fun d => { d with xo16Fail := true, pllcLock := false, cpuOnPllc := false }).raise 81)

/-- PLLC_LOCK (R171). DESIGN CHOICE (log 19): firmware requests PLLC as it starts, and switches the CPU to it at the lock. -/
def execPllcLock (s : State) : Out :=
  if s.isOn .cpu && s.dom.pllcReq && !s.dom.xo16Fail then
    .next (s.onDom fun d => { d with pllcLock := true, cpuOnPllc := true })
  else .next s

/-! ## Resets (R176 to R179) -/

/-- BROWN_OUT_RESET (R176, R177). -/
def execBrownOutReset (s : State) : Out :=
  let s := s.onDom fun d => { d with vsysUp := false }
  if s.bin.held then .next s else .next (s.resetSwitched 0x3)

/-- The CPU runs a new image that has not confirmed itself, or is on its way to the first start of one (R289, R290). -/
def State.onTrial (s : State) : Bool :=
  s.flash.trial || (s.fw.coldStart && !s.fw.started && s.flash.nextB != s.flash.activeB)

/-- A watchdog or lockup reset; within probation, the next start returns to the previous bank (R177, R290). -/
def State.fwReset (code : BitVec 4) (s : State) : State :=
  let p := s.onTrial
  (s.resetSwitched code).onFw fun f => { f with badReset := f.badReset || p }

/-- WATCHDOG_RESET (R177). -/
def execWatchdogReset (s : State) : Out := if s.isOn .cpu then .next (s.fwReset 0x4) else .next s

/-- LOCKUP_RESET (R177). -/
def execLockupReset (s : State) : Out := if s.isOn .cpu then .next (s.fwReset 0x8) else .next s

/-- RESET_RELEASE (R176, R178): VSYS is at or above 2.80 V and, after a reset of the switched domains, the CPU restarts without
a wake source. DEDUCED (log 43); DESIGN CHOICE (log 20): NRST is high from here on. -/
def execResetRelease (s : State) : Out :=
  let s := s.onDom fun d => { d with vsysUp := true, nrstLow := false }
  match s.dom.resetCode with
  | some c =>
    .next (s.onDom fun d => { d with
      resetCode := none, rstCause := c, rstHist := d.rstHist ||| (1#8 <<< (c.toNat - 1)), cpu := { st := .on }
      cpuUp := true }).startWanted
  | none => .next s.startWanted

/-! ## Host control and the firmware timer (R172, R180, R181) -/

/-- KEEP_WRITE (R180). -/
def execKeepWrite (p target : Port) (v : BitVec 3) (s : State) : Out :=
  .next (s.portWrite p (0x0210 + portCode target) [v.setWidth 8])

/-- RING_WRITE (R181, R182). -/
def execRingWrite (p : Port) (n : Fin 4) (s : State) : Out := .next (s.portWrite p (0x0240 + 4 * n.val) [0x01])

/-- FWTIMER_EXPIRE (R172, R442). -/
def execFwtimerExpire (s : State) : Out :=
  if s.dom.fwTimer then .next ((s.onDom fun d => { d with fwTimer := false }).wake 19 [.cpu]) else .next s

/-! ## Delivery of events (R303 to R308) -/

/-- One latched event reaches the berths its ROUTE names; PEND already set counts in MERGED (R303, R305). -/
def Events.deliverOne (e : Nat) (x : Events) : Events :=
  let dests := x.route.toList.getD e 0
  (List.finRange 4).foldl (fun x n =>
    if dests.getLsbD n.val then
      if x.pend[n].getLsbD e then { x with merged := x.merged.set n (satInc x.merged[n]) }
      else { x with pend := x.pend.set n (x.pend[n] ||| (1#96 <<< e)) }
    else x) x

/-- Every latched event is delivered and its latch bit cleared (R303). -/
def Events.deliver (x : Events) : Events :=
  let r := x.raised
  { (List.range 96).foldl (fun x e => if r.getLsbD e then x.deliverOne e else x) x with raised := 0 }

/-- EVENT_DELIVER (R303, R305, R312): pins follow the berth lines. -/
def execEventDeliver (s : State) : Out :=
  if s.isOn .hif && s.ev.routeOk then .next (s.onEv Events.deliver) else .next s

/-- PEND_CLEAR (R304, R313). -/
def execPendClear (p : Port) (b : Fin 4) (k : Fin 12) (mask : Byte) (s : State) : Out :=
  .next (s.portWrite p (0x0480 + 0x20 * b.val + k.val) [mask])

end Sys2Proof.Machine
end

