-- ==== Sys2Proof/Machine/LineDie.lean ====
section
/-! DEFINITION. The line die: start-up, converter and its protections, line sense, loss and return, uplink frames, the
line-die quiet window (R44 to R60, R66 to R69, R75, R78 to R83). Voltages are in mV. -/

namespace Sys2Proof.Machine

/-! ## Shared operations -/

/-- Apply a change to the line die while it runs. -/
def State.whileRunning (f : LineDie → LineDie) (s : State) : State := s.when s.line.running (State.onLine f)

/-- Start the next uplink frame once none is in flight: EVT, QA, ZC, and then TLM; none while the beacon runs (R69, R75).
DESIGN CHOICE (log 60): a frame in flight as the beacon begins is sent to its end. -/
def LineDie.send (l : LineDie) : LineDie :=
  if l.upFlight.isSome || l.beacon then l
  else match l.evtQ, l.qaQ, l.zcQ, l.tlmQ with
    | f :: q, _, _, _ => { l with upFlight := some (.evt f), evtQ := q }
    | [], f :: q, _, _ => { l with upFlight := some (.qa f), qaQ := q }
    | [], [], f :: q, _ => { l with upFlight := some (.zc f), zcQ := q }
    | [], [], [], f :: q => { l with upFlight := some (.tlm f), tlmQ := q }
    | [], [], [], [] => l

/-- Queue an EVT frame. While the beacon runs the queue holds eight, the oldest dropped (R69, R75). -/
def LineDie.pushEvt (code : Byte) (stamp : Word) (l : LineDie) : LineDie :=
  let q := l.evtQ ++ [⟨code, stamp⟩]
  LineDie.send { l with evtQ := if l.beacon && 8 < q.length then q.drop (q.length - 8) else q }

/-- Queue a QA frame; none is produced while the beacon runs. A QA frame ends the repeats of LINE_LOSS (R69, R75). -/
def LineDie.pushQa (kind : QaKind) (tag cause : BitVec 3) (stamp : Word) (l : LineDie) : LineDie :=
  if l.beacon then l else LineDie.send { l with qaQ := l.qaQ ++ [⟨kind, tag, cause, stamp⟩], lossRepeat := none }

/-- Let switching resume once nothing holds the switch off, with a soft-start where one is owed (R50, R52, R53). -/
def LineDie.resume (l : LineDie) : LineDie :=
  if l.running && l.stops.isEmpty && !l.hold && !l.waitBrownIn then
    { l with switching := true, begun := true, softStart := l.softOwed, softOwed := false }
  else l

/-- Stop the switch for a condition of R50 and report it. DESIGN CHOICE (log 61): it is reported also where the switch is
already off, and a soft-start that it breaks off is owed again. -/
def LineDie.stopFor (c : StopCause) (code : Byte) (stamp : Word) (l : LineDie) : LineDie :=
  if l.stops.contains c then l
  else { l with stops := l.stops ++ [c], switching := false, softStart := false
                softOwed := l.softOwed || l.softStart }.pushEvt code stamp

/-- A condition of R50 has ended: its stop is lifted; `soft` says that its row asks for a soft-start. -/
def LineDie.lift (cs : List StopCause) (soft : Bool) (l : LineDie) : LineDie :=
  if l.stops.any cs.contains then
    { l with stops := l.stops.filter fun c => !cs.contains c, softOwed := l.softOwed || soft }.resume
  else l

/-- The hold of a STOP symbol or a SOFT-STOP ends, with a soft-start (R52, R53). -/
def LineDie.unhold (l : LineDie) : LineDie :=
  if l.hold then { l with hold := false, softOwed := true }.resume else l

/-- A valid downlink frame: the beacon stops, and the frames held meanwhile are sent (R48, R53, R75). -/
def LineDie.heard (l : LineDie) : LineDie := { l with downlink := true, beacon := false }.send

/-- A valid REG frame also ends the repeats of LINE_LOSS (the corner of R69). -/
def LineDie.heardReg (l : LineDie) : LineDie := { l.heard with lossRepeat := none }

/-- A REG frame that regulates: the hold ends with a soft-start (R53). -/
def LineDie.regulate (demand : BitVec 12) (l : LineDie) : LineDie := { l.heardReg with demand }.unhold

/-- End the line-die window with a cause, and begin the guard, which uses the requested L (R79, R83). -/
def LineDie.endQuiet (cause : BitVec 3) (stamp : Word) (l : LineDie) : LineDie :=
  if l.quietOpen then
    { l with quiet := none, quietOpen := false
             guard := some (stamp, ((l.quiet.map fun (q : QuietReq) => q.len.toNat).getD 0) + 250) }.pushQa .ended
      ((l.quiet.map QuietReq.tag).getD 0) cause stamp
  else l

/-- A downlink frame in flight reaches the line die, and the next one starts; a line die that does not run hears nothing
(R68). DESIGN CHOICE (log 2): a frame that is not in flight does not arrive. -/
def State.downFrame (fr : DownFrame) (f : LineDie → LineDie) (s : State) : State :=
  if s.link.downFlight = some fr then (s.onLink fun l => { l with downFlight := none }.send).whileRunning f else s

/-! ## Start-up and stop (R44, R45, R46, R491) -/

/-- LINE_DIE_START (R44, R45, R50): VLD has risen to 11.5 V. With HVIN above 450 V the overvoltage stop is in force at once.
DEDUCED (log 10): the rest of the line die begins afresh. -/
def execLineDieStart (hvin : Nat) (stamp : Word) (s : State) : Out :=
  if s.line.running then .next s
  else .next (s.onLine fun _ =>
    let l : LineDie := { sourceOn := false, running := true, beacon := true, waitBrownIn := hvin < 100000, softOwed := true }
    if 450000 < hvin then l.stopFor .overVoltage 0x03 stamp else l.resume)

/-- BROWN_IN (R45, R50): HVIN has reached 100 V. -/
def execBrownIn (s : State) : Out :=
  .next (s.whileRunning fun l =>
    if l.waitBrownIn then { l with waitBrownIn := false, softOwed := true }.resume else l.lift [.brownOut] true)

/-- The peak-current limit `us` microseconds into a soft-start, and without one, in mA (R47, R491). -/
def LineDie.currentLimit (us : Nat) (l : LineDie) : Nat := if l.softStart then min 1600 (1600 * us / 8000) else 1600

/-- SOFT_START_END (R491): from here the limit is 1.60 A. -/
def execSoftStartEnd (s : State) : Out := .next (s.whileRunning fun l => { l with softStart := false })

/-- LINE_DIE_STOP (R45): VLD has fallen below 7.5 V; the source turns on, and nothing is kept. DEDUCED (log 10). -/
def execLineDieStop (s : State) : Out := .next (s.whileRunning fun _ => {})

/-- GOODBYE_SEND (R46). -/
def execGoodbyeSend (stamp : Word) (s : State) : Out := .next (s.whileRunning fun l => l.pushEvt 0x07 stamp)

/-! ## Downlink (R48, R52, R53, R64, R68, R86) -/

/-- REG_RUN (R48, R53): after eight in a row, the loop passes to SSR. DESIGN CHOICE (log 62): a frame discarded between
two valid ones does not break the row. -/
def execRegRun (demand : BitVec 12) (s : State) : Out :=
  .next (s.downFrame (.reg .run demand) fun l =>
    let l := l.regulate demand
    let n := min 8 (l.runStreak + 1)
    { l with runStreak := n, ssr := l.ssr || n == 8 })

/-- REG_OVERRIDE (R53, R81). -/
def execRegOverride (demand : BitVec 12) (stamp : Word) (s : State) : Out :=
  .next (s.downFrame (.reg .override demand) fun l => { (l.regulate demand).endQuiet 1 stamp with runStreak := 0 })

/-- REG_SOFT_STOP (R53): the first that finds the switch active sends EVT 0x08. The demand is ignored, whatever it is.
DEDUCED (log 41). -/
def execRegSoftStop (stamp : Word) (s : State) : Out :=
  match s.link.downFlight with
  | some (.reg .softStop d) =>
    .next (s.downFrame (.reg .softStop d) fun l =>
      let l := { l.heardReg with runStreak := 0 }
      if l.switching then { l with hold := true, switching := false, softStart := false }.pushEvt 0x08 stamp
      else { l with hold := true })
  | _ => .next s

/-- DOWNLINK_TIMEOUT (R48, R66, R75). -/
def execDownlinkTimeout (stamp : Word) (s : State) : Out :=
  .next (s.whileRunning fun l =>
    if l.downlink then
      { l with downlink := false, ssr := false, runStreak := 0, beacon := true, owesTimeout := some stamp }
    else l)

/-- STOP_RESTART_TIMEOUT (R52): 1 s without a valid downlink frame after a STOP. -/
def execStopRestartTimeout (s : State) : Out :=
  .next (s.whileRunning fun l =>
    if l.hold && !l.downlink then { l with ssr := false, runStreak := 0 }.unhold else l)

/-- STOP_SYMBOL_RECEIVED (R50, R52, R64, R83): the symbol that the core die has inserted; the interrupted frame is gone, and
the next one starts after it. DEDUCED (log 41). -/
def execStopSymbolReceived (stamp : Word) (s : State) : Out :=
  if s.link.stopSymbolDue then
    .next ((s.onLink fun l => { l with stopSymbolDue := false, downFlight := none }.send).whileRunning fun l =>
      ({ l with hold := true, switching := false, softStart := false }.pushEvt 0x08 stamp).endQuiet 2 stamp)
  else .next s

/-- CFG_RECEIVED (R65, R86): a valid frame with a reserved index sets nothing. -/
def execCfgReceived (index : BitVec 4) (v : BitVec 12) (s : State) : Out :=
  .next (s.downFrame (.cfg index v) fun l =>
    match CfgReg.ofIndex index with
    | some .lossFrac => { l.heard with lossFrac := v }
    | some .plim => { l.heard with plim := v }
    | none => l.heard)

/-! ## Protections (R50) -/

/-- HVIN_BROWN_OUT (R45, R50): below 90 V once switching has begun. -/
def execHvinBrownOut (stamp : Word) (s : State) : Out :=
  .next (s.whileRunning fun l => if l.begun then l.stopFor .brownOut 0x0A stamp else l)

/-- HVIN_OVERVOLTAGE (R50). -/
def execHvinOvervoltage (stamp : Word) (s : State) : Out :=
  .next (s.whileRunning fun l => l.stopFor .overVoltage 0x03 stamp)

/-- HVIN_OV_RESUME (R50): its row asks for no soft-start of its own. -/
def execHvinOvResume (s : State) : Out := .next (s.whileRunning fun l => l.lift [.overVoltage] false)

/-- SWITCH_SHORT_CIRCUIT (R50). -/
def execSwitchShortCircuit (stamp : Word) (s : State) : Out :=
  .next (s.whileRunning fun l => if l.switching then l.stopFor .shortCircuit 0x04 stamp else l)

/-- The power limit in force, in mW: PLIM under SSR, 12 W under PSR (R47, R50, R86). -/
def LineDie.powerLimit (l : LineDie) : Nat := if l.ssr then 250 * l.plim.toNat else 12000

/-- OVERLOAD_STOP (R50): a demand of `mw` milliwatts has been held for 20 ms, at the limit in force. -/
def execOverloadStop (stamp : Word) (mw : Nat) (s : State) : Out :=
  .next (s.whileRunning fun l =>
    if l.switching && l.powerLimit ≤ mw then l.stopFor .overload 0x06 stamp else l)

/-- FAULT_RESTART (R50): 1 s after a short-circuit or overload stop. -/
def execFaultRestart (s : State) : Out := .next (s.whileRunning fun l => l.lift [.shortCircuit, .overload] true)

/-- OVERTEMP_STOP (R50). -/
def execOvertempStop (stamp : Word) (s : State) : Out :=
  .next (s.whileRunning fun l => l.stopFor .overTemp 0x05 stamp)

/-- OVERTEMP_RESUME (R50). -/
def execOvertempResume (s : State) : Out := .next (s.whileRunning fun l => l.lift [.overTemp] true)

/-- VLD_OV_LATCH (R50): only VLD below 7.5 V releases it. -/
def execVldOvLatch (stamp : Word) (s : State) : Out :=
  .next (s.whileRunning fun l => l.stopFor .vldLatch 0x0B stamp)

/-! ## Line sense (R55 to R60). Samples are 1 µs, or 100 LCLK counts, apart; LSB 3.90625 mV. -/

/-- LCLK counts from the first sample to the crossing of 0 V, by linear interpolation (R55). DESIGN CHOICE (log 63): the
instant rounds to the nearest count of 10 ns, ties away from zero. -/
def crossingOffset (v0 v1 : BitVec 18) : Int :=
  divRound (100 * v0.toInt.natAbs) (max 1 (v0.toInt - v1.toInt).natAbs)

/-- A period in LCLK counts lies outside 45–66 Hz (R57). -/
def outOfRange (p : Nat) : Bool := p * 66 < 100000000 || 100000000 < p * 45

/-- 100 V in samples' LSB (R59, R60). -/
def qualifyPeak : Nat := 25600

/-- The mean of figures, or a default where there is none. -/
def meanOr (d : Rat) (xs : List Nat) : Rat := if xs.isEmpty then d else (xs.sum : Rat) / xs.length

/-- T_nom in LCLK counts: the mean of the last eight full periods, 20.0 ms until one has been measured (R57). -/
def LineDie.tNom (l : LineDie) : Rat := meanOr 2000000 l.periods

/-- The running peak: the mean of the last eight half-cycle peaks (R57). -/
def LineDie.runningPeak (l : LineDie) : Rat := meanOr 0 l.peaks

/-- V_LOSS: LOSS_FRAC/64 of the running peak, and at least 40 V (R57). -/
def vLoss (lossFrac : BitVec 12) (peak : Rat) : Rat := max 10240 (peak * lossFrac.toNat / 64)

/-- What a sample stamped `t` is judged by: the figures in force from the last crossing at or before it (R57, R58). -/
def LineDie.refAt (t : Word) (l : LineDie) : LossRef :=
  (l.lossRefs.find? fun r => (t - r.at_).toNat < 2 ^ 31).getD ⟨t, 2000000, 0⟩

/-- After a crossing, the figures it leaves; those of earlier half-cycles go once one has held a qualifying sample. -/
def LineDie.pushRef (stamp : Word) (peak : Nat) (l : LineDie) : LineDie :=
  let qualified := match l.lossRefs with
    | r :: _ => decide (vLoss l.lossFrac r.peak ≤ peak)
    | [] => true
  { l with lossRefs := ⟨stamp, l.tNom, l.runningPeak⟩ :: (if qualified then l.lossRefs.take 1 else l.lossRefs)
           lastCross := some stamp }

/-- Queue a ZC frame; none is produced while the beacon runs (R57, R75). LOCK says that the link is UP (R56). DESIGN
CHOICE (log 64): with no full period measured since the start or the latest loss, the range flag is 0. -/
def LineDie.pushZc (positive lock : Bool) (stamp : Word) (l : LineDie) : LineDie :=
  if l.beacon then l
  else LineDie.send { l with
    zcQ := l.zcQ ++ [⟨positive, (l.periods.head?.map outOfRange).getD false, lock, l.zcSeq, stamp⟩] }

/-- A rising crossing ends a cycle: its period, and whether it qualifies a return (R57, R60). DEDUCED (log 40). -/
def LineDie.rising (stamp : Word) (peak : Nat) (l : LineDie) : LineDie :=
  let periods := match l.lastPos with
    | some p => ((stamp - p).toNat :: l.periods).take 8
    | none => l.periods
  let good := l.lastPos.isSome && l.negSeen && l.halfOk && qualifyPeak ≤ peak
  { l with periods, peaks := (peak :: l.peaks).take 8, lastPos := some stamp, zcSeq := l.zcSeq + 1
           negSeen := false, halfOk := true, dc := false
           retCycles := if l.present then 0 else if good then l.retCycles + 1 else 0 }.pushRef stamp peak

/-- A falling crossing ends a half-cycle (R55, R60). DEDUCED (log 40). -/
def LineDie.falling (stamp : Word) (peak : Nat) (l : LineDie) : LineDie :=
  { l with peaks := (peak :: l.peaks).take 8, negSeen := true, halfOk := l.halfOk && qualifyPeak ≤ peak
           dc := false }.pushRef stamp peak

/-- ZERO_CROSSING (R55): two samples, the first at LCLK `t`; `peak` is |v| of the half-cycle that ends. -/
def execZeroCrossing (t : Word) (v0 v1 : BitVec 18) (peak : Nat) (s : State) : Out :=
  let stamp := t + BitVec.ofInt 32 (crossingOffset v0 v1)
  let lock := s.link.state == .up
  if v0.toInt < 0 ∧ 0 ≤ v1.toInt then
    .next (s.whileRunning fun l => (l.rising stamp peak).pushZc true lock stamp)
  else if 0 ≤ v0.toInt ∧ v1.toInt < 0 then
    .next (s.whileRunning fun l => (l.falling stamp peak).pushZc false lock stamp)
  else .next s

/-- LCLK counts from a qualifying sample to the closing of its loss window, on the 1 µs grid of the samples: 0.625·T_nom as
it stood at that sample, 10.0 ms in DC mode (R11, R58, R59). -/
def LineDie.lossWindow (t : Word) (l : LineDie) : Nat :=
  if l.dc then 1000000 else 100 * ((l.refAt t).nom * 5 / 800).ceil.toNat

/-- A sample of `v` stamped `t` qualifies (R57). -/
def LineDie.qualifies (t : Word) (v : BitVec 18) (l : LineDie) : Bool :=
  decide (vLoss l.lossFrac (l.refAt t).peak ≤ (v.toInt.natAbs : Rat))

/-- LINE_LOSS_DECLARE (R57, R58): at sample `now`, the first outside the loss window of the last qualifying sample, of value
`v` and stamp `stamp`. What was measured since the latest loss is forgotten. -/
def execLineLossDeclare (stamp : Word) (v : BitVec 18) (now : Word) (s : State) : Out :=
  .next (s.whileRunning fun l =>
    if l.present && l.qualifies stamp v && l.lossWindow stamp ≤ (now - stamp).toNat then
      { l with present := false, periods := [], peaks := [], lastPos := none, lossRefs := [], negSeen := false
               halfOk := false, retCycles := 0, lossRepeat := some (stamp, 3) }.pushEvt 0x01 stamp
    else l)

/-- LINE_LOSS_REPEAT (the corner of R69): up to three times. -/
def execLineLossRepeat (s : State) : Out :=
  .next (s.whileRunning fun l =>
    match l.lossRepeat with
    | some (stamp, n + 1) => { l with lossRepeat := if n = 0 then none else some (stamp, n) }.pushEvt 0x01 stamp
    | _ => l)

/-- DC_MODE_ENTRY (R59): at sample `now` of value `v`, with no crossing for 100 ms. -/
def execDcModeEntry (now : Word) (v : BitVec 18) (s : State) : Out :=
  .next (s.whileRunning fun l =>
    if qualifyPeak ≤ v.toInt.natAbs && l.lastCross.all (fun c => decide (10000000 ≤ (now - c).toNat)) then { l with dc := true }
    else l)

/-- DC_LINE_RETURN (R59). -/
def execDcLineReturn (stamp : Word) (s : State) : Out :=
  .next (s.whileRunning fun l => if l.dc && !l.present then { l with present := true }.pushEvt 0x02 stamp else l)

/-- LINE_RETURN_DECLARE (R60): stamped with the positive crossing that completes the second cycle. DEDUCED (log 40). -/
def execLineReturnDeclare (s : State) : Out :=
  .next (s.whileRunning fun l =>
    match l.lastPos with
    | some stamp =>
      if !l.present && 2 ≤ l.retCycles then { l with present := true, retCycles := 0 }.pushEvt 0x02 stamp else l
    | none => l)

/-! ## Telemetry (R69, R72) -/

/-- TLM_PRODUCE (R69): a frame produced while the queue is full is dropped, its number not reused. DESIGN CHOICE (log 60):
the frame in flight has left the queue of eight. -/
def execTlmProduce (vline : BitVec 12) (hvin : BitVec 10) (temp : BitVec 8) (peak : BitVec 9) (s : State) : Out :=
  .next (s.whileRunning fun l =>
    if l.beacon then l
    else LineDie.send { l with
      tlmSeq := l.tlmSeq + 1
      tlmQ := if 8 ≤ l.tlmQ.length then l.tlmQ else l.tlmQ ++ [⟨l.tlmSeq, vline, hvin, temp, l.ssr, peak⟩] })

/-! ## The line-die quiet window (R78 to R83) -/

/-- The first cause of R80 that applies. DEDUCED (log 48). -/
def LineDie.refusal (len : BitVec 13) (l : LineDie) : Option (BitVec 3) :=
  if len = 0 ∨ 6400 < len.toNat then some 2
  else if l.softStart then some 1
  else if l.quiet.isSome then some 0
  else none

/-- QUIET_RECEIVED (R80). -/
def execQuietReceived (tag : BitVec 3) (len : BitVec 13) (stamp : Word) (s : State) : Out :=
  .next (s.downFrame (.quiet tag len) fun l =>
    let l := l.heard
    match l.refusal len with
    | some cause => l.pushQa .refused tag cause stamp
    | none => { l with quiet := some ⟨tag, len⟩ })

/-- LD_QUIET_OPEN (R78). -/
def execLdQuietOpen (stamp : Word) (s : State) : Out :=
  .next (s.whileRunning fun l =>
    match l.quiet with
    | some q => if l.quietOpen || l.guard.isSome then l else { l with quietOpen := true }.pushQa .opened q.tag 0 stamp
    | none => l)

/-- LD_QUIET_GUARD_END (R79): at LCLK `now`, nine window lengths after the last window closed. -/
def execLdQuietGuardEnd (now : Word) (s : State) : Out :=
  .next (s.whileRunning fun l =>
    if l.guard.any fun g => decide (9 * g.2 ≤ (now - g.1).toNat) then { l with guard := none } else l)

/-- LD_QUIET_END (R83): the window has run L + 2.5 µs. -/
def execLdQuietEnd (stamp : Word) (s : State) : Out := .next (s.whileRunning fun l => l.endQuiet 0 stamp)

/-- LD_QUIET_VLD_END (R83): VLD has fallen below 9.0 V. -/
def execLdQuietVldEnd (stamp : Word) (s : State) : Out := .next (s.whileRunning fun l => l.endQuiet 3 stamp)

end Sys2Proof.Machine
end

