-- ==== Sys2Proof/Machine/LinkCore.lean ====
section
/-! DEFINITION. The core endpoint of the isolation link and its quiet windows: training, UP, faults, received frames, the
beacon detector, stops and overrides (R50, R57, R61, R66 to R86, R147, R333). Voltages are in mV, PLLA edges are counts. -/

namespace Sys2Proof.Machine

/-! ## Shared operations -/

/-- Entry into TRAINING: both CFG frames are sent, the line counts as in range, SSR frames are counted afresh (R57, R72,
R86). The TLM sequence goes on: only beacon time is excepted from R70 (R75). -/
def Link.enterTraining (l : Link) : Link :=
  ({ l with state := .training, ssrStreak := 0, rangeSeen := false, hvinHigh := false, goodbye := false
            crcTimes := [] }.sendCfg .lossFrac).sendCfg .plim

/-- An uplink frame or a beacon burst reaches the endpoint (R72). -/
def State.uplinkSeen (s : State) : State :=
  if s.isOn .pwr && (s.link.state == .down || s.link.state == .fault) then s.onLink Link.enterTraining else s

/-- The endpoint makes and reads frames: PWR is ON, and LNK has XO16 to run from. With XO16_FAIL it hears the beacon alone,
and stays in TRAINING (R170, R171). -/
def State.framesRun (s : State) : Bool := s.isOn .pwr && !s.dom.xo16Fail

/-- The endpoint goes to a state without downlink frames: what waited is not sent, SSR falls, and the charger goes on unless
a window is open (R72, R73, R108). -/
def State.linkGoes (x : LinkState) (s : State) : State :=
  (s.linkLeavesUp.onLink fun l => { Link.silence l with state := x, ssr := false, goodbye := false, crcTimes := [] }).chargerFollows

/-- Entry into FAULT from UP: EV03 (R73). -/
def State.linkFault (s : State) : State := (s.linkGoes .fault).raise 3

/-- Entry into UP: EV15, LINE_OK with the line present, the owed EVT 0x09, and link-fault resets allowed again (R61, R66,
R72, R74). DESIGN CHOICE (log 65): an EVT 0x09 owed for a timeout that the core die has not seen, since its link stayed UP,
is sent at the next entry into UP. DESIGN CHOICE (log 66): LINE_PRESENT keeps its value while the link is not UP, and here
takes the line die's presence beside it. -/
def State.linkUp (s : State) : State :=
  let present := s.line.present
  let s := s.onLink fun l => { l with
    state := .up, crcTimes := [], lineOk := l.lineOk || present, linePresent := l.linePresent || present }
  let s := s.onDom fun d => { d with
    linkResetDone := false, pwrUntilDown := d.pwrUntilDown || d.pwr.deferred.isSome }
  let s := s.onLine fun l => match l.owesTimeout with
    | some stamp => { l with owesTimeout := none }.pushEvt 0x09 stamp
    | none => l
  s.raise 15

/-- The uplink frame in flight arrives, and the next one starts; `f` acts while the endpoint is ON to receive it, after the
frame has counted as an uplink frame (R69, R72). DESIGN CHOICE (log 2): a frame that is not in flight does not arrive. -/
def State.upFrame (fr : UpFrame) (f : State → State) (s : State) : State :=
  if s.line.upFlight = some fr then
    let s := s.onLine fun l => { l with upFlight := none }.send
    if s.framesRun then f s.uplinkSeen else if s.isOn .pwr then s.uplinkSeen else s
  else s

/-- An answer to a QUIET request: QW_LAST, and the request is answered (R86). -/
def Link.quietAnswer (tag : BitVec 3) (kind : Nat) (cause : BitVec 3) (l : Link) : Link :=
  { l with qwLast := BitVec.ofNat 8 (tag.toNat * 32 + kind * 8 + cause.toNat) }

/-- PLLA edges of L units of 10 ns: the first edge at or after it (R11, R78). -/
def windowEdges (len : BitVec 13) : Nat := (len.toNat * 16 + 24) / 25

/-- A new loss, for the Binnacle's record: the CK32 edge at or after its receipt writes it (R147). -/
def State.recordLoss (stamp : Word) (s : State) : State := s.onBin fun b => { b with llDue := some stamp }

/-- What a ZC frame is to a measurement of the trim engine: causes 1 to 3, and a reference period of a line measurement (R134,
R137). -/
def State.trimZc (f : ZcFrame) (s : State) : State :=
  if s.trim.active then
    if !f.lock then s.trimAbort 1
    else if f.range then s.trimAbort 3
    else if !f.positive then s
    else
      match s.trim.lastSeq with
      | some q => if f.seq = q + 1 then
          s.onTrim fun t => { t with lastSeq := some f.seq
                                     prog := if !t.src && t.openRaw.isSome && t.prog.toNat < 2 ^ t.kEff then t.prog + 1 else t.prog }
        else s.trimAbort 2
      | none => s.onTrim fun t => { t with lastSeq := some f.seq }
  else s

/-! ## Downlink (R50, R68) -/

/-- REG_FRAME_DUE (R47, R53, R68): the mode of the frame is SOFT-STOP while a stop is in force. It is sent after a frame in
flight and ahead of QUIET and CFG. -/
def execRegFrameDue (demand : BitVec 12) (s : State) : Out :=
  if s.framesRun && s.link.downlinkRuns then
    .next (s.onLink fun l => Link.send { l with
      regMode := if l.stopVaux || l.stopHost then .softStop else if l.overrideDue then .override else .run
      regDemand := demand, overrideDue := false, regDue := true })
  else .next s

/-- Insert a STOP symbol, which breaks off a frame in flight, and hold the converter (R50, R53, R64, R68). -/
def Link.sendStop (l : Link) : Link := { l with stopSymbolDue := true, downFlight := none, regMode := .softStop }

/-- VAUX_OVERVOLTAGE (R50). -/
def execVauxOvervoltage (s : State) : Out :=
  if s.isOn .pwr then .next (s.onLink fun l => { l.sendStop with stopVaux := true }) else .next s

/-- VAUX_RECOVER (R50): RUN is sent again unless the host's stop is in force. -/
def execVauxRecover (s : State) : Out :=
  .next (s.onLink fun l =>
    if l.stopVaux then { l with stopVaux := false, regMode := if l.stopHost then .softStop else .run } else l)

/-- CFG_WRITE (R86). -/
def execCfgWrite (p : Port) (r : CfgReg) (v : Byte) (s : State) : Out :=
  .next (s.portWrite p (match r with | .lossFrac => 0x03C9 | .plim => 0x03CA) [v])

/-! ## Received frames -/

/-- A discard is counted; sixteen within 1 ms while UP are a fault (R67, R73, R86). The endpoint samples on LNK, so 1 ms is
50,000 of its periods (R10, R170). DESIGN CHOICE (log 67): every discard of either direction is among the sixteen. -/
def State.countDiscard (instant : Nat) (s : State) : State :=
  let s := s.onLink fun l => { l with
    crcErr := satInc l.crcErr
    crcTimes := if l.state == .up then instant :: l.crcTimes.filter fun t => instant < t + 50000 else [] }
  if s.link.state = .up ∧ 16 ≤ s.link.crcTimes.length then s.linkFault else s

/-- FRAME_DISCARD (R64, R67, R73): bits that spell no valid frame; the frame in flight in that direction is gone, and the next
one starts. `instant` is in periods of LNK. DESIGN CHOICE (log 67): CRC_ERR counts a downlink discard as it is made, though
no frame reports it. -/
def execFrameDiscard (dir : LinkDir) (bits : List Bool) (instant : Nat) (s : State) : Out :=
  if discards dir bits then
    let heard := dir == .up || s.line.running
    let s := match dir with
      | .down => s.onLink fun l => { l with downFlight := none }.send
      | .up => s.onLine fun l => { l with upFlight := none }.send
    .next (s.when (heard && s.isOn .pwr) (State.countDiscard instant))
  else .next s

/-- The running peak the core die forms from line-voltage fields: half-cycles that begin in reception (R86).
DESIGN CHOICE (log 63): their mean rounds down. -/
def Link.trackPeak (v : BitVec 12) (l : Link) : Link :=
  let m := v.toInt.natAbs
  if l.halfSign = some v.msb then { l with halfPk := l.halfPk.map (max m) }
  else
    let hist := match l.halfPk with
      | some p => (p :: l.pkHist).take 8
      | none => l.pkHist
    { l with halfPk := l.halfSign.map fun _ => m, halfSign := some v.msb, pkHist := hist
             vlinePk := if hist.isEmpty then l.vlinePk else BitVec.ofNat 12 (hist.sum / hist.length) }

/-- What a TLM frame changes: the telemetry registers, the gap of its sequence number, EV04 and EV06, and UP after the
second frame in a row with SSR (R57, R70, R72, R86). -/
def State.takeTlm (f : TlmFrame) (s : State) : State :=
  let gap := match s.link.lastTlm with
    | some q => (f.seq - q - 1).toNat
    | none => 0
  let lost := gap != 0 && s.link.tlmLost == 0
  let high := 880 ≤ f.hvin.toNat
  let rise := high && !s.link.hvinHigh
  let s := s.onLink fun l => { l.trackPeak f.vline with
    lastTlm := some f.seq, tlmLost := satAdd l.tlmLost gap, hvinV := f.hvin, ldTemp := f.temp, ssr := f.ssr
    hvinHigh := high, ssrStreak := if f.ssr then min 2 (l.ssrStreak + 1) else 0 }
  let s := (s.when lost (State.raise 4)).when rise (State.raise 6)
  s.when (s.link.state == .training && s.link.ssrStreak == 2) State.linkUp

/-- TLM_RECEIVED (R57, R70, R72, R86). -/
def execTlmReceived (f : TlmFrame) (s : State) : Out := .next (s.upFrame (.tlm f) (State.takeTlm f))

/-- What a ZC frame changes in the registers: a period is taken from two positive frames whose sequence numbers follow each
other (R57, R86). DESIGN CHOICE (log 66): also across a loss, beacon time or a restart of the line die. -/
def Link.takeZc (f : ZcFrame) (l : Link) : Link :=
  let l := { l with rangeSeen := f.range }
  if f.positive then
    let next := l.posSeen && f.seq.toNat == (l.linePeriod.toNat / 2 ^ 24 + 1) % 32
    let p := if next then min (2 ^ 24 - 1) (f.stamp - l.zcPos).toNat else l.linePeriod.toNat % 2 ^ 24
    { l with zcPos := f.stamp, posSeen := true, linePeriod := BitVec.ofNat 32 (f.seq.toNat * 2 ^ 24 + p) }
  else { l with zcNeg := f.stamp }

/-- ZC_RECEIVED (R57, R86, R134, R137). -/
def execZcReceived (f : ZcFrame) (s : State) : Out :=
  .next (s.upFrame (.zc f) fun s =>
    let first := f.range && !s.link.rangeSeen
    let s := s.onLink (Link.takeZc f)
    ((s.when first (State.raise 6)).trimZc f).when (f.lock && !f.range) State.trimResume)

/-- LINE_LOSS_RECEIVED (R58, R61, R86, R137, R147, R385): once a loss, keyed on its stamp. -/
def execLineLossReceived (stamp : Word) (s : State) : Out :=
  .next (s.upFrame (.evt ⟨0x01, stamp⟩) fun s =>
    if s.link.lossKey = some stamp then s
    else
      let s := s.onLink fun l => { l with lossKey := some stamp, lineOk := false, linePresent := false
                                          lossCount := satInc l.lossCount, llsLast := stamp, pkHist := []
                                          halfPk := none, halfSign := none }
      let s := (s.recordLoss stamp).onFw fun f => { f with pfLoss := f.pfLoss || f.pfArmed }
      (s.raise 0).trimAbort 3)

/-- LINE_RETURN_RECEIVED (R61, R385): LINE_OK from its receipt, and the power-fail save is armed. -/
def execLineReturnReceived (stamp : Word) (s : State) : Out :=
  .next (s.upFrame (.evt ⟨0x02, stamp⟩) fun s =>
    ((s.onLink fun l => { l with linePresent := true, lineOk := true }).onFw fun f =>
      { f with pfArmed := true, pfLoss := false }).raise 1)

/-- The bit of LD_FAULT that a code sets (R66). -/
def ldFaultBit (code : Byte) : Option Nat :=
  match code.toNat with
  | 0x03 => some 0 | 0x04 => some 1 | 0x05 => some 2 | 0x07 => some 3 | 0x06 => some 4 | 0x08 => some 5 | 0x09 => some 6
  | 0x0A => some 7 | _ => none

/-- The stop codes of R50, for which EV05 is raised. -/
def isStopCode (code : Byte) : Bool := [0x03, 0x04, 0x05, 0x06, 0x08, 0x0A, 0x0B].contains code

/-- LD_FAULT_RECEIVED (R50, R66, R73): an EVT frame but LINE_LOSS and LINE_RETURN, which have commands of their own. -/
def execLdFaultReceived (f : EvtFrame) (s : State) : Out :=
  if f.code = 0x01 ∨ f.code = 0x02 then .next s
  else .next (s.upFrame (.evt f) fun s =>
    (s.onLink fun l =>
      { l with ldFault := match ldFaultBit f.code with | some k => l.ldFault ||| (1#8 <<< k) | none => l.ldFault
               ldVldOv := l.ldVldOv || f.code == 0x0B, goodbye := l.goodbye || f.code == 0x07 }).when
      (isStopCode f.code) (State.raise 5))

/-! ## States, timeouts and the beacon (R72 to R76) -/

/-- BEACON_BURST (R72, R75). -/
def execBeaconBurst (s : State) : Out :=
  if s.line.running && s.line.beacon then .next s.uplinkSeen else .next s

/-- LINK_UPLINK_TIMEOUT (R72, R73): 25 µs without a valid uplink frame or a burst. -/
def execLinkUplinkTimeout (s : State) : Out :=
  if s.isOn .pwr then
    match s.link.state with
    | .up => .next (if s.link.goodbye then s.linkGoes .down else s.linkFault)
    | .training => .next (s.linkGoes .down)
    | _ => .next s
  else .next s

/-- LINK_FAULT_RESET (R74): while the beacon is present. -/
def execLinkFaultReset (s : State) : Out :=
  if s.isOn .pwr && s.line.running && s.line.beacon && (s.link.state == .training || s.link.state == .fault) && !s.dom.linkResetDone then
    .next ((s.resetSwitched 0x7).onDom fun d => { d with linkResetDone := true })
  else .next s

/-- BEACON_QUALIFIED (R76, R111, R148, R172): while the core endpoint is not ON and the beacon runs. -/
def execBeaconQualified (s : State) : Out :=
  if !s.isOn .pwr && !s.dom.beaconLatch && s.line.running && s.line.beacon && !s.bin.held then
    .next (((s.onDom fun d => { d with beaconLatch := true }).wake 0 [.cpu]).sysonAuto 3)
  else .next s

/-- BEACON_DETECTOR_CLEAR (R76). -/
def execBeaconDetectorClear (s : State) : Out := .next (s.onDom fun d => { d with beaconLatch := false })

/-! ## Quiet windows on the core die (R78, R81 to R84, R108, R333) -/

/-- QA_OPEN_RECEIVED (R78): the window opens at PLLA edge `edge` and closes L later. -/
def execQaOpenReceived (tag : BitVec 3) (stamp : Word) (edge : Nat) (s : State) : Out :=
  .next (s.upFrame (.qa ⟨.opened, tag, 0, stamp⟩) fun s =>
    (s.onLink fun l =>
      match l.quietQ.find? fun q => q.tag == tag with
      | some q =>
        { l.quietAnswer tag 0 0 with
          quietQ := l.quietQ.erase q, window := some ⟨edge, edge + windowEdges q.len⟩, overrideAt := none, windowLocal := false
          quietLen := q.len.toNat }
      | none => l.quietAnswer tag 0 0).chargerFollows)

/-- QA_END_RECEIVED (R79, R83, R86): the guard before the next opening counts from the stamp. -/
def execQaEndReceived (tag cause : BitVec 3) (stamp : Word) (s : State) : Out :=
  .next (s.upFrame (.qa ⟨.ended, tag, cause, stamp⟩) fun s =>
    s.onLink fun l => { l.quietAnswer tag 1 cause with quietEnd := some (stamp, 9 * (l.quietLen + 250)) })

/-- The shot that asked for the window of this tag is refused (R333). -/
def Sounding.refuse (tag : BitVec 3) (x : Sounding) : Sounding :=
  if x.shot.tag = some tag then { x with shot := { x.shot with refused := true } } else x

/-- QA_REFUSED_RECEIVED (R333): the shot that waits for the window has cause QUIET_REFUSED, and the charger goes on unless a
window is open. -/
def execQaRefusedReceived (tag cause : BitVec 3) (stamp : Word) (s : State) : Out :=
  .next (s.upFrame (.qa ⟨.refused, tag, cause, stamp⟩) fun s =>
    ((s.onLink fun l => { l.quietAnswer tag 2 cause with quietQ := l.quietQ.filter fun q => q.tag != tag }).onLog fun l =>
      { l with cur := l.cur.map (Sounding.refuse tag) }).chargerFollows)

/-- CORE_QUIET_CLOSE (R9, R78, R108): at PLLA edge `edge` the window's closing has come, and the charger goes on. -/
def execCoreQuietClose (edge : Nat) (s : State) : Out :=
  match s.link.window with
  | some w => .next (if w.closeEdge ≤ edge then s.closeWindow else s)
  | none => .next s

/-- QW_DROOP in mV: 12.0 V + 0.1 V·n, values above 55 acting as 55 (R86). -/
def Link.droop (l : Link) : Nat := 12000 + 100 * min 55 l.qwDroop.toNat

/-- QW_DROOP_OVERRIDE (R81, R82): VAUX is sampled at `vaux` mV at PLLA edge `edge`. Below QW_DROOP inside the window, the next
REG frame carries OVERRIDE. DESIGN CHOICE (log 68): a droop inside a locally granted window raises EV02 and makes the
capture NOISY too, though no frame is sent. -/
def execQwDroopOverride (edge vaux : Nat) (s : State) : Out :=
  match s.link.window with
  | some w =>
    if s.isOn .pwr && vaux < s.link.droop && w.openEdge ≤ edge && edge < w.closeEdge && s.link.overrideAt.isNone then
      .next ((s.onLink fun l => { l with overrideAt := some edge, overrideDue := l.downlinkRuns }).raise 2)
    else .next s
  | none => .next s

end Sys2Proof.Machine
end

