-- ==== Sys2Proof/Machine/LogEngine.lean ====
section
/-! DEFINITION. The Log engine's commands: soundings and their shots (R318 to R353, R356 to R359), results, hold and totals
(R360 to R371, R391, R392), calibrations (R343, R365), RTD sets (R372 to R376, R382) and the saves of totals (R384, R385).
PLLA edges are counts; voltages are in mV. -/

namespace Sys2Proof.Machine

/-! ## The shots of a sounding (R348) -/

/-- What is known of the shot now made before it is judged. -/
def Sounding.base (x : Sounding) : ShotResult :=
  { idx := x.shots.length, up := x.plan.up, swapped := x.plan.swapped, cause := 0, launch := x.shot.launch }

/-- QLEAD in PLLA periods (R331). -/
def leadEdges (acq : List Byte) : Nat := acqQlead acq * 64

/-- L of a shot's QUIET request in 10 ns units (R331). -/
def quietLength (acq : List Byte) : BitVec 13 := BitVec.ofNat 13 (min (acqQlead acq * 100 + acqSamples acq * 25 / 16) 6400)

/-- Change the shot in progress. -/
def State.onShot (f : Shot → Shot) (s : State) : State :=
  s.onLog fun l => { l with cur := l.cur.map fun x => { x with shot := f x.shot } }

/-! ## Records and results -/

/-- A value held to an unsigned field of `n` bytes. -/
def natField (n v : Nat) : List Byte := leBytes n (min v (256 ^ n - 1))

/-- A value held to a signed field of `n` bytes. -/
def intField (n : Nat) (v : Int) : List Byte := sleBytes n (clampInt (-(256 ^ n / 2 : Nat)) ((256 ^ n / 2 : Nat) - 1) v)

/-- RFLAGS of a shot (R350). -/
def ShotResult.flags (r : ShotResult) (delayed : Bool) : Byte :=
  byteOf [r.cause != 0, r.multipath, r.noisy, delayed, r.trunc, r.trackReset]

/-- The SHOT record of a shot (R350). A valid shot of a learn has no stated TOF, since the path has no template yet. -/
def ShotResult.fields (r : ShotResult) (learning : Bool) (gain : Nat) (snum : Word) : List (Nat × Option (List Byte)) :=
  [(6, if learning && r.cause == 0 then none else some (leBytes 6 r.tof.toNat)),
   given [BitVec.ofNat 8 (r.idx % 4 + (if r.up then 4 else 0) + (if r.swapped then 8 else 0)), BitVec.ofNat 8 r.cause],
   (2, r.a1.map fun v => natField 2 v), given (natField 2 r.a2), given [BitVec.ofNat 8 gain],
   (1, r.snr.map fun v => natField 1 v), (1, r.rho.map fun v => natField 1 v), (1, r.mu.map fun v => natField 1 v),
   (2, r.launch.map fun v => intField 2 v), given (leBytes 4 snum.toNat)]

/-- The sounding's result: TOF_MEAN and DTOF where every shot is valid (R349). -/
def soundingResult (rs : List ShotResult) : Option (Int × Int) :=
  if rs.all fun r => r.cause == 0 then
    match rs.map (·.tof) with
    | [d, u] => some (divRound (u + d) 2, u - d)
    | [d1, u2, u3, d4] => some (divRound (d1 + u2 + u3 + d4) 4, divRound ((u2 - d1) + (u3 - d4)) 2)
    | _ => none
  else none

/-- The first invalid cause of a sounding, or 0 (R349). -/
def firstCause (rs : List ShotResult) : Nat := ((rs.find? fun r => r.cause != 0).map (·.cause)).getD 0

/-- The lowest SNR among the shots that have one. -/
def lowestSnr (rs : List ShotResult) : Option Nat := (rs.filterMap (·.snr)).min?

/-- The TOF record of a sounding (R351). -/
def Sounding.tofFields (x : Sounding) (res : Option (Int × Int)) : List (Nat × Option (List Byte)) :=
  [(6, res.map fun r => leBytes 6 r.1.toNat), (4, res.map fun r => intField 4 r.2),
   given [BitVec.ofNat 8 ((x.shots.filter fun r => r.cause == 0).length + (if acqMatched x.acq then 16 else 0)),
     BitVec.ofNat 8 x.gain],
   (1, (lowestSnr x.shots).map fun v => natField 1 v), given [BitVec.ofNat 8 (firstCause x.shots)],
   given (leBytes 4 x.snum.toNat), given [0, 0, 0, 0]]

/-- Flags combined over the shots (R351). -/
def Sounding.flags (x : Sounding) : Byte := x.shots.foldl (fun f r => f ||| r.flags x.delayed) 0

/-! ## Gain (R324, R325) -/

/-- Δ in 0.5 dB (R325). DESIGN CHOICE (log 25): A_max is taken as it is recorded, in whole codes. -/
def gainStep (rs : List ShotResult) : Int :=
  if rs.any fun r => r.cause == 7 then -12
  else
    let best := ((rs.filter fun r => r.cause == 0).filterMap (·.a1)).foldl max 0
    if best = 0 then 12 else clampInt (-12) 12 (truncRat (2 * dB 4096 best))

/-- The gain of the path's next sounding, unless a command has set another, or AGC to 0, meanwhile (R324, R325). -/
def PathSt.agc (x : Sounding) (t : PathSt) : PathSt :=
  if acqAgc x.acq ∧ acqAgc t.acq ∧ t.gain = x.gain then { t with gain := (clampInt 0 132 (x.gain + gainStep x.shots)).toNat } else t

/-! ## Rate states (R357, R358) -/

/-- A valid sounding with |v̄| above V_DET, or one with |v̄| at or below it; none for an invalid sounding. The third in a row
sets the next due time from its own, `due` (R357). -/
def PathSt.rate (due : Rat) (above : Option Bool) (t : PathSt) : PathSt :=
  match above with
  | none => { t with detCount := 0 }
  | some true =>
    if t.flowing then { t with quietOpen := false }
    else if t.detCount + 1 = 3 then
      { t with flowing := true, detCount := 0, quietOpen := false, lastDue := due, nextDue := due + flowRateInt t.flow }
    else { t with detCount := t.detCount + 1 }
  | some false => if t.flowing then { t with quietOpen := true } else { t with detCount := 0 }

/-! ## Hold and credit (R368 to R371) -/

/-- What crediting a sounding answers: the path, whether the interval was held, and EV71 and EV72. -/
structure Credited where
  path : PathSt
  held : Bool := false
  starts : Bool := false
  expires : Bool := false

/-- The interval that ends at `t`, credited with `q` and Φ, or missing; the next one begins at `t` (R368, R371). What the close
of a hold window has credited already stays as it is. -/
def PathSt.until_ (t : Inst) (q phi : Option Int) (p : PathSt) : PathSt :=
  match p.tPrev with
  | some f =>
    if f.edge < t.edge then
      { (p.credit f t q).creditHeat (flowHeat p.flow) (t.units - f.units) (if q.isSome then phi else none) with tPrev := some t }
    else p
  | none => { p with tPrev := some t }

/-- A valid sounding with reported flow `q` and velocity; in INVALID its own interval is missing, and so is that of every
sounding of a leeway calibration (R366, R369, R370). -/
def PathSt.valid (leeway : Bool) (t : Inst) (q vel : Int) (phi : Option Int) (p : PathSt) : Credited :=
  let lost := leeway || p.hold == .invalid
  { path := { p.until_ t (if lost then none else some q) phi with hold := .normal, lastQ := q, lastVel := vel, lastValid := some t } }

/-- An invalid sounding (R366, R369, R370). DEDUCED (log 28): with no valid sounding before it the path is INVALID, without
events; a held interval has no valid Φ. -/
def PathSt.invalid (leeway : Bool) (t : Inst) (p : PathSt) : Credited :=
  let starts := p.hold == .normal && p.lastValid.isSome
  let p := if starts then { p with hold := .hold } else if p.hold == .normal then { p with hold := .invalid } else p
  if p.hold == .hold then
    if t.edge < p.holdClose.edge then
      { path := p.until_ t (if leeway then none else some p.lastQ) none, held := !leeway, starts }
    else { path := (p.holdEnd leeway).until_ t none none, starts, expires := true }
  else { path := p.until_ t none none, starts }

/-! ## The end of a sounding -/

/-- RFLAGS of a FLOW record (R391). -/
def flowFlags (invalid held delayed flowing clamped tfall : Bool) : Byte :=
  byteOf [invalid, held, delayed, flowing, clamped, tfall]

/-- The state code of R391. -/
def HoldState.code : HoldState → Byte
  | .normal => 0 | .hold => 1 | .invalid => 2

/-- The FLOW record, and the HEAT record that follows it (R391, R392). RE is Re/100 rounded down, as in the manual's
example. -/
def State.flowRecords (x : Sounding) (r : FlowRes) (heat : HeatRes) (held tfall : Bool) (s : State) : State :=
  let t := s.log.path x.path
  let known := r.cause = 0 ∨ held
  let rec1 := s.pathRecord x.path x.firstStamp 0x12 (flowFlags (r.cause != 0) held x.delayed t.flowing r.clamped tfall)
    [(4, if known then some (intField 4 t.lastVel) else none), (4, if known then some (intField 4 t.lastQ) else none),
     given (intField 4 (if r.cause = 0 then r.vline else 0)), (2, r.re.map fun v => natField 2 (v / 100).floor.toNat),
     (2, r.k.map fun v => natField 2 (roundRat (v * 65536)).toNat), given [t.hold.code, BitVec.ofNat 8 r.cause],
     given (leBytes 4 x.snum.toNat)]
  if flowHeat x.flow then
    rec1.pathRecord x.path x.firstStamp 0x14 0
      [(4, heat.phi.map (intField 4)), (4, heat.dT.map (intField 4)), given (natField 8 t.totals.eHeat.val),
       (2, heat.rho.map fun v => natField 2 (roundRat (10 * v)).toNat), given [BitVec.ofNat 8 heat.cause, 0, 0, 0]]
  else rec1

/-- The instant of a sounding: its TIME, and the edge of that TIME (R350, R368). -/
def Sounding.inst (x : Sounding) : Inst := ⟨stampUnits x.firstStamp, x.firstEdge⟩

/-- The velocity of a sounding, or why it has none (R349, R360 to R363). -/
def State.flowOfSounding (s : State) (x : Sounding) (res : Option (Int × Int)) : FlowRes :=
  match res with
  | some (tof, dtof) => flowOf x.flow x.card x.fluid x.leeway (s.meterTemp x.path x.flow).1 tof dtof
  | none => { cause := firstCause x.shots }

/-- Velocity, totals, hold, rate and records of a sounding (R357 to R371, R391). DEDUCED (log 28): a sounding of a leeway
calibration, whose path's schedule is suspended, leaves the rate state. -/
def State.flowResult (x : Sounding) (r : FlowRes) (s : State) : State :=
  let tfall := (s.meterTemp x.path x.flow).2
  let leeway := x.cal == some .leeway
  let ok := r.cause == 0
  let first := (s.log.path x.path).missSince (flowHeat x.flow) x.firstStamp
  let late := ok && first.hold == .hold && first.holdClose.edge ≤ x.firstEdge
  let first := if late then first.holdEnd leeway else first
  let hist := if ok then (r.vbar :: first.history).take (flowMedN x.flow) else first.history
  let v := median hist
  let q := volumeFlow x.flow v
  let heat := s.heatOf x.path x.flow x.fluid (if ok then some q else none)
  let before := { first with history := hist }
  let c := if ok then before.valid leeway x.inst (roundRat (q * 1000000000)) (roundRat (v * 1000000)) heat.phi
    else before.invalid leeway x.inst
  let above := if ok then some (decide ((flowVDet x.flow : Rat) < (if r.vbar < 0 then -r.vbar else r.vbar) * 1000000)) else none
  let after := if leeway then c.path else c.path.rate x.due above
  let detect := after.flowing && !c.path.flowing
  let s := s.onPath x.path fun _ => after
  let s := (((s.when c.starts (State.raise 71)).when (late || c.expires) (State.raise 72)).when detect (State.raise 73)).raise
    (64 + pathNo x.path)
  s.when (acqDeliver x.acq 2) (State.flowRecords x r heat c.held tfall)

/-- A sounding of the calibration that runs is counted, and the DTOF of a valid one is kept (R365). -/
def Calibration.take (p : Path) (valid : Bool) (res : Option (Int × Int)) (c : Calibration) : Calibration :=
  if c.kind = .leeway ∧ c.path = p then
    { c with made := c.made + 1, dtofs := match res with | some r => if valid then r.2 :: c.dtofs else c.dtofs | none => c.dtofs }
  else c

/-- The last shot completes the sounding (R325, R349, R351). -/
def State.finishSounding (x : Sounding) (s : State) : State :=
  let res := soundingResult x.shots
  let s := s.onLog fun l => { l with cur := none }
  let s := s.onPath x.path fun t => { t.agc x with lastDtof := res.map (·.2), lastTof := res.map (·.1) }
  let s := s.when (acqDeliver x.acq 1) (State.pathRecord x.path x.firstStamp 0x11 x.flags (x.tofFields res))
  let r := s.flowOfSounding x res
  let s := s.when (x.cal == some .leeway) (State.onLog fun l => { l with cal := l.cal.map (Calibration.take x.path (r.cause == 0) res) })
  (s.flowResult x r).startNext

/-- A pair of a learn is made: no sounding, so it has no result (R343). -/
def State.finishPair (s : State) : State := (s.onLog fun l => { l with cur := none }).startNext

/-- A shot of the learn that runs is counted, and the capture of a valid one is kept (R343). -/
def Calibration.learnt (p : Path) (r : ShotResult) (samples : List (BitVec 14)) (c : Calibration) : Calibration :=
  if c.kind = .learn ∧ c.path = p then
    { c with made := c.made + 1, learned := if r.cause = 0 then samples :: c.learned else c.learned }
  else c

/-- The tracking estimate of a shot's direction and arrangement, if it is young enough (R346). -/
def State.trackOf (s : State) (x : Sounding) : Option Rat :=
  ((s.log.path x.path).tracks.find? fun k =>
    k.1 == x.plan.up && k.2.1 == x.plan.swapped && decide (s.trim.raw < k.2.2.2 + acqTrackAge x.acq * 32768)).map
    fun k => mkRat k.2.2.1 65536

/-- A valid shot becomes the tracking estimate (R346). -/
def PathSt.track (r : ShotResult) (edge : Nat) (t : PathSt) : PathSt :=
  if r.cause = 0 then
    { t with tracks := (r.up, r.swapped, r.ta, edge) :: t.tracks.filter fun k => !(k.1 == r.up && k.2.1 == r.swapped) }
  else t

/-- The shot is judged: its events, its record, and the next shot or the end of the sounding (R350, R353). -/
def State.endShot (r : ShotResult) (samples : List (BitVec 14)) (s : State) : State :=
  match s.log.cur with
  | none => s
  | some x =>
    let learning := x.cal == some .learn
    let s := ((((s.when (r.cause == 1) (State.raise 79)).when (r.cause != 0) (State.raise 66)).when (r.cause == 10)
      (State.raise 68)).when r.multipath (State.raise 67)).when r.noisy (State.raise 69)
    let s := s.when (acqDeliver x.acq 0)
      (State.pathRecord x.path x.shot.stamp 0x10 (r.flags x.delayed) (r.fields learning x.gain x.snum))
    let s := if learning then s.onLog fun l => { l with cal := l.cal.map (Calibration.learnt x.path r samples) }
      else s.onPath x.path (PathSt.track r x.shot.edge)
    let s := s.onLog Log.settlePorts
    let x := { x with shots := x.shots ++ [r], shot := {} }
    if x.shots.length = x.shotsPlanned.length then (if learning then s.finishPair else s.finishSounding x)
    else s.onLog fun l => { l with cur := some x }

/-! ## Soundings (R356, R376) -/

/-- The interval of the path's soundings (R356, R365). -/
def State.interval (s : State) (p : Path) : Rat :=
  let t := s.log.path p
  if t.flowing || s.leewayOn p then flowRateInt t.flow else flowIdleInt t.flow

/-- The path makes no further sounding: its leeway calibration has made them all (R365). -/
def State.leewayFull (s : State) (p : Path) : Bool :=
  match s.log.cal with
  | some c => c.kind == .leeway && c.path == p && flowLeewayN (s.log.path p).flow ≤ c.made
  | none => false

/-- SOUNDING_DUE (R356, R359, R375, R376): dropped while the path's previous sounding runs or waits; a running conversion
delays it, unless it would wait for its quota in any case. -/
def execSoundingDue (p : Path) (s : State) : Out :=
  let t := s.log.path p
  if s.fw.started && (t.configured || s.leewayOn p) then
    let step := s.interval p
    let drop := t.due || s.leewayFull p || (s.log.cur.map fun x => x.path == p).getD false
    let running := (s.log.rtd.map (·.running)).getD false
    let s := s.onPath p fun t => { t with lastDue := t.nextDue, nextDue := t.nextDue + step
                                          due := t.due || !drop, dueAt := if drop then t.dueAt else t.nextDue }
    let s := s.when (!drop && running && s.startable p) (State.onPath p fun t => { t with delayed := true })
    if drop then .next s else if s.isOn .log then .next s.startNext else .next (s.bringOn .log)
  else .next s

/-- SOUNDING_DELAYED_START (R375, R376). -/
def execSoundingDelayedStart (p : Path) (s : State) : Out :=
  if s.freeSlot && s.delayedReady p && !(p == .b && s.delayedReady .a) then .next (s.startSounding p) else .next s

/-! ## A shot (R318 to R335) -/

/-- The local grant of a window, with the link DOWN: cause 2, cause 0 while one that was granted locally is still open at
that edge, or the window, which takes the place of one that closes there (R9, R13, R84, R333). QW_LAST is a register of PWR
(R86). DESIGN CHOICE (log 50): the grant needs no PWR. -/
def State.grantLocally (edge : Nat) (tag : BitVec 3) (len : BitVec 13) (s : State) : State :=
  let refuse (cause : BitVec 3) :=
    (s.when (s.isOn .pwr) (State.onLink (Link.quietAnswer tag 2 cause))).onShot fun k => { k with refused := true }
  if len = 0 ∨ 6400 < len.toNat then refuse 2
  else if s.link.windowLocal && (s.link.window.map fun w => decide (edge < w.closeEdge)).getD false then refuse 0
  else (s.onLink fun l => { l with
    window := some ⟨edge, edge + windowEdges len⟩, windowLocal := true, overrideAt := none }).chargerFollows

/-- Consecutive fire edges are at least SHOT_GAP apart (R334). -/
def State.gapOk (s : State) (x : Sounding) (fire : Nat) : Bool :=
  match s.log.lastFire with
  | some f => f + acqShotGap x.acq ≤ fire
  | none => true

/-- A QUIET frame started `ahead` PLLA edges after an edge at which LCLK reads `lclk` would fall inside the guard of R79, which
counts from the stamp of the last QA END; one PLLA period is 25/16 LCLK periods (R334). DEDUCED (log 59): with the link DOWN
no frame is exchanged, and the guard binds nothing. -/
def State.inGuard (s : State) (lclk : Word) (ahead : Nat) : Bool :=
  s.link.state != .down &&
    match s.link.quietEnd with
    | some (e, g) => (lclk - e).toNat * 16 + ahead * 25 < g * 16
    | none => false

/-- The QUIET frame starts at its edge: QLEAD before the capture. When DELAY is the shorter it precedes the fire, which it then
fixes (R331, R334). -/
def State.askAt (s : State) (x : Sounding) (edge : Nat) : Bool :=
  s.isOn .log && x.shot.asked.isNone && x.shot.capture.isNone &&
    match x.shot.fire with
    | some f => leadEdges x.acq ≤ acqDelay x.acq && edge == f + acqDelay x.acq - leadEdges x.acq
    | none => acqDelay x.acq < leadEdges x.acq && s.gapOk x (edge + leadEdges x.acq - acqDelay x.acq)

/-- SHOT_QUIET_REQUEST (R68, R78, R84, R108, R331, R333, R334): at PLLA edge `edge`, at which LCLK reads `lclk`; no frame starts
inside the guard of R79. -/
def execShotQuietRequest (edge : Nat) (lclk : Word) (s : State) : Out :=
  match s.log.cur with
  | none => .next s
  | some x =>
    if s.askAt x edge && !s.inGuard lclk 0 then
      let tag := s.log.quietTag
      let len := quietLength x.acq
      let s := (s.onShot fun k => { k with asked := some edge, tag := some tag }).onLog fun l => { l with quietTag := l.quietTag + 1 }
      if s.link.state = .down then .next (s.grantLocally edge tag len)
      else if s.link.downlinkRuns then
        .next ((s.onLink fun l => Link.send { l with
          quietQ := l.quietQ ++ [⟨tag, len⟩], quietDue := l.quietDue ++ [⟨tag, len⟩] }).chargerFollows)
      else .next s
    else .next s

/-- The shot fires at its edge: SHOT_GAP after the last one, at the edge that a request before it has fixed, and not so that
its own request would fall inside the guard, for which the fire is postponed (R331, R334). -/
def State.fireAt (s : State) (x : Sounding) (edge : Nat) (lclk : Word) : Bool :=
  x.shot.fire.isNone && s.gapOk x edge &&
    (if acqDelay x.acq < leadEdges x.acq then x.shot.asked == some (edge + acqDelay x.acq - leadEdges x.acq)
     else !s.inGuard lclk (acqDelay x.acq - leadEdges x.acq))

/-- The drive supply is out of limits (R320). -/
def driveBad (pump : Bool) (vdrv : Nat) : Bool := if pump then vdrv < 11400 || 12600 < vdrv else vdrv < 4500

/-- SHOT_FIRE (R251, R316, R318, R320, R329, R350): at PLLA edge `edge`. TIME is that of the CK32 edge at or after it (R11). A
driver under LOG's pad hold drives nothing, so the launch conversion overflows (R29, R167, R327). -/
def execShotFire (edge : Nat) (lclk : Word) (vdrv : Nat) (launch : Option Nat) (s : State) : Out :=
  match s.log.cur with
  | none => .next s
  | some x =>
    if s.isOn .log && s.fireAt x edge lclk then
      let stamp := s.nextStamp
      let raw := s.trim.raw + 1
      let s := s.onLog fun l => { l with cur := l.cur.map fun x =>
        { x with firstStamp := if x.shots.isEmpty then stamp else x.firstStamp
                 firstEdge := if x.shots.isEmpty then raw else x.firstEdge
                 shot := { x.shot with stamp := stamp, edge := raw } } }
      if driveBad s.log.pump vdrv then .next (s.endShot { x.base with cause := 1 } [])
      else
        let launch := if s.dom.padHeld.getLsbD 2 then none else launch
        let s := (s.onShot fun k => { k with fire := some edge, launch }).onLog fun l => { l.firePorts x with lastFire := some edge }
        .next (s.charge (s.pathHolder x.path) (launchTime launch))
    else .next s

/-- DRIVE_OVERCURRENT (R320): a bridge current of 2.0 A peak or more, in mA, at a PLLA edge before the end of the last braking
cycle (log 73). -/
def execDriveOvercurrent (edge ma : Nat) (s : State) : Out :=
  match s.log.cur with
  | some x =>
    match x.shot.fire with
    | some f =>
      if 2000 ≤ ma ∧ f ≤ edge ∧ (edge - f) * 64 < driveEnd x.acq ∧ x.shot.capture = none then
        .next ((s.onLog Log.endBurst).endShot { x.base with cause := 1 } [])
      else .next s
    | none => .next s
  | none => .next s

/-- The core-side window holds the edge (R9, R78). -/
def CoreWindow.holds (w : CoreWindow) (edge : Nat) : Bool := w.openEdge ≤ edge && edge < w.closeEdge

/-- CAPTURE_OPEN (R321, R330, R332, R333, R352): causes 2, 3 and 4 in their order, or the capture and its length. The burst has
ended (R336). -/
def execCaptureOpen (edge : Nat) (s : State) : Out :=
  match s.log.cur with
  | none => .next s
  | some x =>
    match x.shot.fire with
    | none => .next s
    | some f =>
      if edge = f + acqDelay x.acq ∧ x.shot.capture = none then
        let s := s.onLog Log.endBurst
        let stop (c : Nat) : Out := .next (s.endShot { x.base with cause := if badLaunch x.shot.launch then 2 else c } [])
        if x.shot.refused then stop 3
        else match s.link.window with
          | some w =>
            if w.holds edge then
              .next (s.onShot fun k => { k with capture := some (edge, min (acqSamples x.acq) ((w.closeEdge - edge) / 64 * 64)) })
            else stop 4
          | none => stop 4
      else .next s

/-- CAPTURE_CLOSE (R82, R251, R332, R335, R352). -/
def execCaptureClose (samples : List (BitVec 14)) (s : State) : Out :=
  match s.log.cur with
  | none => .next s
  | some x =>
    match x.shot.capture with
    | none => .next s
    | some (o, n) =>
      if samples.length = n then
        let noisy := match s.link.overrideAt with | some e => decide (e < o + n) | none => false
        let base := { x.base with noisy, trunc := n < acqSamples x.acq }
        let r := judgeShot (x.cal == some .learn) x.acq x.template x.plan.swapped (s.trackOf x) base samples
        .next ((s.charge (s.pathHolder x.path) (samplesTime n)).endShot r samples)
      else .next s

/-! ## Windows of a path (R358, R369, R382) -/

/-- FLOW_QUIET_EXPIRE (R358): while a leeway calibration suspends the path's schedule, its due times stay (R365). -/
def execFlowQuietExpire (p : Path) (s : State) : Out :=
  let t := s.log.path p
  if t.flowing && t.quietOpen then
    .next ((s.onPath p fun t => { t with flowing := false, quietOpen := false, detCount := 0
                                         nextDue := if s.leewayOn p then t.nextDue else t.lastDue + flowIdleInt t.flow }).raise 74)
  else .next s

/-- HOLD_EXPIRE (R364, R366, R369). -/
def execHoldExpire (p : Path) (s : State) : Out :=
  if (s.log.path p).hold = .hold then .next ((s.onPath p (PathSt.holdEnd (s.leewayOn p))).raise 72) else .next s

/-- RTD_SET_STALE (R382). -/
def execRtdSetStale (p : Path) (s : State) : Out := .next (s.onPath p fun t => { t with rtdFresh := false })

/-! ## Calibrations (R343, R365) -/

/-- A calibration ends (R429, R451). -/
def State.calEnds (p : Path) (o : CalOutcome) (s : State) : State :=
  (s.onLog fun l => { l with cal := none }).onPath p fun t => { t with lastCal := some o }

/-- ARRIVAL_LEARN_DONE (R297, R343, R344): N_LEARN shots in each direction are made. -/
def execArrivalLearnDone (s : State) : Out :=
  match s.log.cal with
  | some ⟨.learn, p, b, _, made, learned⟩ =>
    let a := (s.log.path p).acq
    if made = 2 * acqLearnShots a then
      let found := learnTemplate a learned.reverse
      let ds := (found.map (·.2)).getD []
      let valid := (found.map (·.2.length)).getD learned.length
      let bad := learnRejected a made learned.length ds
      let s := s.calEnds p ⟨.learn, !bad, valid, (found.map (·.1.dEnv)).getD 0⟩
      match (if bad then none else found) with
      | none => .next s.startNext
      | some (t, _) =>
        .next (((s.onPath p fun x => { x with template := some t }).storeWrite b false none
          (StoreImage.onPath p fun i => { i with template := some (b, t) })).startNext)
    else .next s
  | _ => .next s

/-- The mean of DTOF in 2⁻¹⁶ ns, and the square of its standard error (R365). -/
def leewayStats (ds : List Int) : Option Rat × Option Rat :=
  let n := ds.length
  if n = 0 then (none, none)
  else
    let m := mkRat ds.sum n
    let q : Rat := ds.foldl (fun (a : Rat) (d : Int) => a + ((d : Rat) - m) * ((d : Rat) - m)) 0
    (some m, if n = 1 then none else some (q / ((n - 1) * n : Nat)))

/-- 50 fs squared, and 2 ns, in units of 2⁻¹⁶ ns (R365). -/
def leewayRejected (n : Nat) (ds : List Int) : Bool :=
  10 * ds.length < 9 * n ||
    match leewayStats ds with
    | (some m, some v) => mkRat 1073741824 100000000 < v || m < -131072 || 131072 < m
    | _ => true

/-- A square root of a rational to the nearest integer. -/
def roundSqrt (x : Rat) : Nat := (isqrt (4 * x).floor.toNat + 1) / 2

/-- The end of a leeway calibration, complete or aborted: its record and EV77 in either case (R365, R440). -/
def State.leewayEnds (c : Calibration) (aborted : Bool) (s : State) : State :=
  let bad := aborted || leewayRejected (flowLeewayN (s.log.path c.path).flow) c.dtofs
  let (m, v) := leewayStats c.dtofs
  let off := (m.map roundRat).getD 0
  let s := s.calEnds c.path ⟨.leeway, !bad, c.dtofs.length, off⟩
  let s := (s.pathRecord c.path s.cal.stamp 0x16 0
    [(4, m.map fun x => intField 4 (roundRat x)), (4, v.map fun x => natField 4 (roundSqrt (65536 * x))),
     given (natField 2 c.dtofs.length ++ natField 2 (c.made - c.dtofs.length) ++ [if bad then 1 else 0] ++ List.replicate 9 0)]).raise 77
  s.when (!bad) fun s => (s.onPath c.path fun t => { t with leeway := off }).storeWrite c.berth false none
    (StoreImage.onPath c.path fun i => { i with leeway := some (c.berth, off) })

/-- LEEWAY_CAL_DONE (R365). -/
def execLeewayCalDone (s : State) : Out :=
  match s.log.cal with
  | some c => if s.leewayFull c.path && s.log.cur.isNone then .next (s.leewayEnds c false) else .next s
  | none => .next s

/-! ## RTD sets (R372 to R376) -/

/-- RTD_SET_DUE (R373). DESIGN CHOICE (log 29): a set that falls due while the last one is unfinished is dropped. -/
def execRtdSetDue (s : State) : Out :=
  let ins := rtdInputs s.log.rtdBlk
  if s.fw.started && !ins.isEmpty && s.log.rtd.isNone then
    let now := s.trim.raw
    let s := s.onLog fun l => { l with rtd := some {
      blk := l.rtdBlk, left := 4 :: ins.map Fin.castSucc ++ [4], since := now } }
    if s.isOn .log then .next s else .next (s.bringOn .log)
  else .next s

/-- The berth a conversion is charged to: the input's holder; TREF's, the first enabled input's (log 29). -/
def State.rtdHolder (s : State) (blk : List Byte) (c : Fin 5) : Option (Fin 4) :=
  if c.val < 4 then s.holderOf (2 + c.val)
  else match rtdInputs blk with
    | n :: _ => s.holderOf (2 + n.val)
    | [] => none

/-- RTD_CONVERSION_START (R251, R328, R375, R377): in a free slot that no sounding takes; it asks for no quiet window. -/
def execRtdConversionStart (s : State) : Out :=
  match s.log.rtd with
  | none => .next s
  | some r =>
    match r.left with
    | [] => .next s
    | c :: _ =>
      let due := s.startable .a || s.startable .b || s.learnReady.isSome
      if s.freeSlot && !s.delayedReady .a && !s.delayedReady .b && (s.rtdAged || !due) &&
          s.fitsQuota (s.rtdHolder r.blk c) 153600000 then
        let mark (p : Path) (s : State) := s.onPath p fun t => { t with delayed := t.delayed || s.startable p }
        .next ((mark .b (mark .a s)).onLog fun l => { l with rtd := some { r with running := true } })
      else .next s

/-- The set's results, records, events, and its freshness window (R373, R374, R382, R383, R392). -/
def State.rtdComplete (r : RtdSet) (s : State) : State :=
  let refs := (r.done.filter fun d => d.1 == 4).map (·.2)
  let pair : Option (Nat × Nat) := match refs with
    | [some a, some b] => some (a, b)
    | _ => none
  let ok := match pair with | some (a, b) => refOk a b | none => false
  let tref2 := pair.map fun v => v.1 + v.2
  let res := (rtdInputs r.blk).map fun n =>
    (n, rtdInput r.blk ok tref2 n ((r.done.find? fun d => d.1 == n.castSucc).bind (·.2)))
  let s := s.onLog fun l => { l with rtd := none, rtdLast := res, rtdSetNo := l.rtdSetNo + 1
                                     a := { l.a with rtdFresh := true }, b := { l.b with rtdFresh := true } }
  let s := res.foldl (fun s x =>
    match s.holderOf (2 + x.1.val) with
    | some b =>
      let (bs, s) := s.fill [(4, x.2.temp.map (intField 4)), (4, x.2.res.map (intField 4)), (4, x.2.t.map (natField 4)),
        (4, x.2.tref.map (natField 4)), given ([BitVec.ofNat 8 x.2.cause, 0] ++ leBytes 4 s.log.rtdSetNo.toNat)]
      s.record b s.cal.stamp 0x13 (BitVec.ofNat 8 x.1.val) 0 bs
    | none => s) s
  (s.raise 75).when (res.any fun x => x.2.cause != 0) (State.raise 76)

/-- Time of a conversion in TDC LSB: 300 µs of charge and its discharge, or 1.2 ms (R251, R372). -/
def rtdTime (t : Option Nat) : Nat :=
  match t with
  | some t => 38400000 + t
  | none => 153600000

/-- A conversion ends with its time, or without one. -/
def State.rtdEnds (r : RtdSet) (c : Fin 5) (rest : List (Fin 5)) (t : Option Nat) (s : State) : State :=
  let r := { r with left := rest, done := r.done ++ [(c, t)], running := false, since := s.trim.raw }
  let s := (s.charge (s.rtdHolder r.blk c) (rtdTime t)).onLog fun l => { l with rtd := some r }
  (if rest.isEmpty then s.rtdComplete r else s).startNext

/-- RTD_CONVERSION_DONE (R9, R372): before the closing of the 900 µs, 115,200,000 TDC LSB. -/
def execRtdConversionDone (t : Nat) (s : State) : Out :=
  match s.log.rtd with
  | some r =>
    match r.left with
    | c :: rest => if r.running && t < 115200000 then .next (s.rtdEnds r c rest (some t)) else .next s
    | [] => .next s
  | none => .next s

/-- RTD_DISCHARGE_TIMEOUT (R372). -/
def execRtdDischargeTimeout (s : State) : Out :=
  match s.log.rtd with
  | some r =>
    match r.left with
    | c :: rest => if r.running then .next (s.rtdEnds r c rest none) else .next s
    | [] => .next s
  | none => .next s

/-! ## Saves of totals and the quota window (R251, R384, R385) -/

/-- TOTALS_PERIODIC_SAVE (R384). -/
def execTotalsPeriodicSave (s : State) : Out :=
  if s.fw.started && s.cal.lsec.toNat % 900 == 0 then .next (s.saveTotals 0x01) else .next s

/-- The gauge reports a discharge state at or below WARN, or has no valid state (R385). -/
def State.packLow (s : State) : Bool := !s.gauge.stateValid || 1 ≤ s.gauge.dstate

/-- POWERFAIL_SAVE (R385). DESIGN CHOICE (log 57). -/
def execPowerfailSave (s : State) : Out :=
  if s.fw.started && s.fw.pfArmed && s.fw.pfLoss && s.packLow then
    .next ((s.saveTotals 0x02).onFw fun f => { f with pfArmed := false, pfLoss := false })
  else .next s

/-- LOG_QUOTA_WINDOW (R251, R300): LOG_USED of the window that closes, and waiting work resumes. -/
def execLogQuotaWindow (s : State) : Out :=
  let up := s.isOn .memB
  .next ((List.finRange 4).foldl (fun s b => s.onBerth b fun k =>
    { k with logUsed := if up then BitVec.ofNat 16 (divRound k.logTime 128000000).toNat else k.logUsed, logTime := 0 }) s).startNext

end Sys2Proof.Machine
end

