-- ==== Sys2Proof/Machine/Store.lean ====
section
/-! DEFINITION. What firmware keeps in flash and loads at a start: charters and grants (R246 to R256), epochs (R270), the
completion of interrupted seals and unseals (R259 to R262), the configuration store (R296, R297), totals (R387), the banks
(R287 to R290), durable entries (R294), and the scheduled reset (R289, R434). -/

namespace Sys2Proof.Machine

/-! ## Charters (R246 to R256) -/

/-- An entry's 64 bytes, with 32 bytes in KEY's place (R248). -/
def Entry.bytes (key : List Byte) (e : Entry) : List Byte :=
  [e.port.setWidth 8, byteOf [e.sealed, e.pecReq]] ++ leBytes 2 e.rights.toNat ++ leBytes 2 e.logQuota.toNat ++
    [e.memQuota, 0] ++ leBytes 8 e.sealStamp.toNat ++ leBytes 4 e.sealAudit.toNat ++ [0, 0, 0, 0] ++ slice key 0 32 ++
    List.replicate 8 0

/-- The entry that 64 bytes hold (R248). -/
def Entry.ofBytes (p : List Byte) : Entry where
  port := BitVec.ofNat 2 (leAt p 0 1)
  sealed := bitAt p 1 0
  pecReq := bitAt p 1 1
  rights := BitVec.ofNat 16 (leAt p 2 2)
  logQuota := BitVec.ofNat 16 (leAt p 4 2)
  memQuota := p.getD 6 0
  sealStamp := BitVec.ofNat 64 (leAt p 8 8)
  sealAudit := BitVec.ofNat 32 (leAt p 16 4)
  key := slice p 24 32

/-- MAGIC, FORMAT and LENGTH of a charter image (R248). -/
def charterHead : List Byte := [0x43, 0x48, 0x52, 0x31] ++ leBytes 2 0x0001 ++ leBytes 2 276

/-- A charter's image of 276 bytes (R248). -/
def Charter.image (c : Charter) : List Byte :=
  let body := charterHead ++ leBytes 4 c.serial.toNat ++ [0, 0, 0, 0] ++ c.entries.toList.flatMap fun e => e.bytes e.key
  body ++ leBytes 4 (crc32 body).toNat

/-- A copy is valid when its CRC, MAGIC, FORMAT and LENGTH are right (R254). -/
def charterValid (p : List Byte) : Bool := slice p 0 8 == charterHead && leAt p 272 4 == (crc32 (slice p 0 272)).toNat

/-- The charter that a valid copy holds (R248, R254). -/
def Charter.ofImage (p : List Byte) : Option Charter :=
  if charterValid p then
    some { serial := BitVec.ofNat 32 (leAt p 8 4), entries := Vector.ofFn fun n : Fin 4 => Entry.ofBytes (slice p (16 + 64 * n.val) 64) }
  else none

/-- The valid copy with the higher SERIAL, and whether it is copy B (R254). -/
def Flash.best (f : Flash) : Option (Charter × Bool) :=
  match Charter.ofImage f.charterA, Charter.ofImage f.charterB with
  | some a, some b => if a.serial.toNat < b.serial.toNat then some (b, true) else some (a, false)
  | some a, none => some (a, false)
  | none, some b => some (b, true)
  | none, none => none

/-- The ports of the bound berths that hold a right, as a grant field (R98, R155, R246). -/
def Charter.grant (c : Charter) (bit : Nat) : BitVec 3 :=
  (List.finRange 4).foldl (fun g n =>
    let e : Entry := c.entries[n]
    if e.rights.getLsbD bit && e.port != 0b11 then g ||| (1#3 <<< e.port.toNat) else g) (0 : BitVec 3)

/-- BIND of a charter (R185, R246). -/
def Charter.bind (c : Charter) : Byte :=
  BitVec.ofNat 8 ((List.finRange 4).map fun n => c.entries[n].port.toNat * 4 ^ n.val).sum

/-- The RO fields of a berth's control block that come from the active charter (R300). -/
def Berth.charterFields (e : Entry) (pend : Bool) (b : Berth) : Berth :=
  { b with sealed := e.sealed, pecReq := e.pecReq, rights := e.rights, charterPend := pend }

/-- The active charter takes effect: bindings, grants and control blocks (R246, R255, R300). -/
def State.applyCharter (s : State) : State :=
  let c := s.fw.charter
  let s := s.onDom fun d => { d with bind := c.bind }
  let s := s.onBin fun b => { b with rtcGrant := c.grant 8, sysonGrant := c.grant 9, chgGrant := c.grant 7 }
  (List.finRange 4).foldl (fun s n => s.onBerth n (Berth.charterFields c.entries[n] s.fw.committed.isSome)) s

/-- Choose the charter at a start other than wake-from-off (R254 to R256). -/
def State.chooseCharter (s : State) : State :=
  s.onFw fun f => match s.flash.best with
    | some (c, copyB) => { f with charter := c, isDefault := false, activeCopyB := copyB, committed := none }
    | none => { f with charter := defaultCharter, isDefault := true, activeCopyB := false, committed := none }

/-- The copy that does not hold the active charter is B (R254). DESIGN CHOICE (log 31): copy A while the default charter is
active, which no copy holds. -/
def Firmware.spareIsB (f : Firmware) : Bool := !f.isDefault && !f.activeCopyB

/-- Write the copy that does not hold the active charter. -/
def State.writeSpare (c : Charter) (s : State) : State :=
  let b := s.fw.spareIsB
  s.onFlash fun f => if b then { f with charterB := c.image } else { f with charterA := c.image }

/-- A charter with a changed entry and SERIAL one above the active one is written and is active at once (R259, R260). -/
def State.replaceCharter (n : Fin 4) (e : Entry) (s : State) : State :=
  let c : Charter := { serial := s.fw.charter.serial + 1, entries := s.fw.charter.entries.set n e }
  let b := s.fw.spareIsB
  let s := (s.writeSpare c).onFw fun f => { f with charter := c, isDefault := false, activeCopyB := b }
  s.onBerth n (Berth.charterFields e s.fw.committed.isSome)

/-! ## Epochs (R270) -/

/-- The highest epoch issued for a berth under a key, 0 under a key it has not had. -/
def Flash.topEpoch (f : Flash) (n : Fin 4) (key : List Byte) : Nat :=
  ((f.epochs[n].find? fun x => x.1 == key).map (·.2)).getD 0

/-- Record an epoch in flash. -/
def Flash.setEpoch (n : Fin 4) (key : List Byte) (e : Nat) (f : Flash) : Flash :=
  { f with epochs := f.epochs.set n ((key, e) :: f.epochs[n].filter fun x => x.1 != key) }

/-- A new epoch for a berth: one above the highest issued under its present key; none is left past 0xFFFF. -/
def State.newEpoch (n : Fin 4) (s : State) : State :=
  let key := (s.entry n).key
  let e := s.flash.topEpoch n key + 1
  if 0xFFFF < e then s.onBerth n fun b => { b with noEpoch := true }
  else
    (s.onFlash (Flash.setEpoch n key e)).onBerth n fun b => { b with macCtr := BitVec.ofNat 32 (e * 0x10000), noEpoch := false }

/-- MAC_CTR advances by 2 after a verified request (R269, R270). -/
def State.macAdvance (n : Fin 4) (s : State) : State :=
  let c := (s.berth n).macCtr
  if 0xFFFE < c.toNat % 0x10000 + 2 then s.newEpoch n else s.onBerth n fun b => { b with macCtr := c + 2 }

/-! ## Seal and unseal (R259 to R262, R388) -/

/-- A path as an unseal leaves it: totals, template, LEEWAY and card erased (R388). DESIGN CHOICE (log 54). -/
def PathSt.erase (p : PathSt) : PathSt :=
  { p.clearCal with totals := {}, card := cardReset, tPrev := none, spans := [], missFrom := none }

/-- An RTD block with the offsets of the given inputs at 0 (R388). -/
def rtdErase (ins : List (Fin 4)) (blk : List Byte) : List Byte :=
  ins.foldl (fun b n => (b.set (8 + 2 * n.val) 0).set (9 + 2 * n.val) 0) blk

/-- The store's items of a path after an unseal (R260, R388). -/
def PathItems.erase (i : PathItems) : PathItems := { i with card := none, template := none, leeway := none }

/-- The inputs whose right a berth holds. -/
def Entry.inputs (e : Entry) : List (Fin 4) := (List.finRange 4).filter fun n => e.rights.getLsbD (2 + n.val)

/-- The erasure in the Log engine of everything a berth's unseal takes (R388). -/
def State.eraseLog (n : Fin 4) (s : State) : State :=
  let e := s.entry n
  let s := s.when (e.rights.getLsbD 0) (State.onPath .a PathSt.erase)
  let s := s.when (e.rights.getLsbD 1) (State.onPath .b PathSt.erase)
  s.onLog fun l => { l with rtdBlk := rtdErase e.inputs l.rtdBlk }

/-- The same erasure in an image of the store (R260). -/
def StoreImage.erase (e : Entry) (i : StoreImage) : StoreImage :=
  let i := if e.rights.getLsbD 0 then { i with a := i.a.erase } else i
  let i := if e.rights.getLsbD 1 then { i with b := i.b.erase } else i
  { i with rtd := i.rtd.map fun x => { x with bytes := rtdErase e.inputs x.bytes } }

/-- An image becomes durable in the copy that does not hold the latest valid one (R297). -/
def Flash.saveStore (i : StoreImage) (f : Flash) : Flash :=
  match f.storeA, f.storeB with
  | some a, some b => if a.seq < b.seq then { f with storeA := some i } else { f with storeB := some i }
  | some _, none => { f with storeB := some i }
  | _, _ => { f with storeA := some i }

/-- Step 2 and 3 of a seal, from its SEAL entry (R259, R262). -/
def State.sealBerth (e : LogEntry) (s : State) : State :=
  let n : Fin 4 := Fin.ofNat 4 e.berth.toNat
  let entry := { s.entry n with sealed := true, sealStamp := e.stamp, sealAudit := BitVec.ofNat 32 (leAt e.data 0 4) }
  (s.replaceCharter n entry).raise 88

/-- Step 4 of an unseal (R260). -/
def State.unsealBerth (n : Fin 4) (s : State) : State := s.replaceCharter n { s.entry n with sealed := false }

/-- The latest entry of a kind that concerns a berth. -/
def lastEntry (book : List LogEntry) (kind : Byte) (n : Fin 4) : Option LogEntry :=
  (book.filter fun e => e.kind == kind && e.berth.toNat == n.val).getLast?

/-- ESEQ of an entry, 0 where there is none. -/
def eseqOf (e : Option LogEntry) : Nat := (e.map (·.eseq.toNat)).getD 0

/-- The entries that wait become durable (R294). -/
def State.flushLog (s : State) : State :=
  (s.onFlash fun f => { f with logbook := s.fw.logQ.foldl bookAdd f.logbook }).onFw fun f => { f with logQ := [] }

/-- An unseal that a reset interrupted is completed: steps 3 to 5, each written before a request is taken (R261). -/
def State.completeUnseal (s : State) : State :=
  match (s.flash.logbook.filter fun e => e.kind == 4).getLast? with
  | none => s
  | some e =>
    if s.flash.logbook.any fun x => x.kind == 5 && e.eseq.toNat < x.eseq.toNat then s
    else
      let n : Fin 4 := Fin.ofNat 4 e.berth.toNat
      let i := s.flash.store
      let s := s.onFlash (Flash.saveStore ({ i with seq := i.seq + 1 } |>.erase (s.entry n)))
      let s := s.when (s.entry n).sealed (State.unsealBerth n)
      (s.logWrite 5 e.berth s.cal.stamp (e.data.take 4)).flushLog

/-- Seals that a reset interrupted are completed: steps 2 and 3 (R262). -/
def State.completeSeals (s : State) : State :=
  (List.finRange 4).foldl (fun s n =>
    match lastEntry s.flash.logbook 3 n with
    | some e =>
      if eseqOf (lastEntry s.flash.logbook 4 n) < e.eseq.toNat && !(s.entry n).sealed then s.sealBerth e else s
    | none => s) s

/-! ## The configuration store and totals at a start (R297, R387) -/

/-- A stored item loads when its berth holds the item's right under the active charter (R297). -/
def State.holds (s : State) (b : Fin 4) (bit : Nat) : Bool := (s.entry b).rights.getLsbD bit

/-- A path with the items of an image that load; an item that does not load takes its reset value (R297). -/
def PathSt.load (i : PathItems) (ok : Fin 4 → Bool) (portA portB : Fin 4) (p : PathSt) : PathSt :=
  let get (x : Option Item) : Option (List Byte) := (x.filter fun x => ok x.berth).map (·.bytes)
  let ports := get i.ports
  { p with
    portA := (ports.map fun b => Fin.ofNat 4 (leAt b 0 1)).getD portA
    portB := (ports.map fun b => Fin.ofNat 4 (leAt b 1 1)).getD portB
    acq := (get i.acq).getD acqReset, acqOk := (get i.acq).isSome
    flow := (get i.flow).getD flowReset, flowOk := (get i.flow).isSome
    card := (get i.card).getD cardReset, fluid := (get i.fluid).getD fluidReset
    template := (i.template.filter fun x => ok x.1).map (·.2)
    leeway := ((i.leeway.filter fun x => ok x.1).map (·.2)).getD 0 }

/-- The RTD block loads when its berth holds the right of every input it enables (log 32). -/
def State.rtdLoads (s : State) (x : Item) : Bool := (rtdInputs x.bytes).all fun n => s.holds x.berth (2 + n.val)

/-- Load the store (R297). -/
def State.loadStore (s : State) : State :=
  let i := s.flash.store
  let rtd := i.rtd.filter s.rtdLoads
  s.onLog fun l => { l with
    a := l.a.load i.a (fun b => s.holds b 0) 0 1, b := l.b.load i.b (fun b => s.holds b 1) 2 3
    rtdBlk := (rtd.map (·.bytes)).getD rtdReset, rtdOwner := rtd.map (·.berth) }

/-- The totals entry a path restores from (R387). -/
def totalsFrom (book : List LogEntry) (p : Path) (n : Fin 4) : Option LogEntry :=
  let after := eseqOf (lastEntry book 5 n)
  (book.filter fun e => e.isTotals && e.berth.toNat == n.val && leAt e.data 0 1 == pathNo p && decide (after < e.eseq.toNat)).getLast?

/-- Restore a path's totals (R386, R387). -/
def PathSt.restore (e : Option LogEntry) (p : PathSt) : PathSt :=
  match e with
  | none => { p with totals := {}, missFrom := none }
  | some e =>
    let t (off len : Nat) : Total := { val := leAt e.data off len }
    { p with totals := ⟨t 4 8, t 12 8, t 20 8, t 28 8, t 36 4, t 40 4⟩, missFrom := some e.stamp }

/-- Totals of both paths (R387). -/
def State.restoreTotals (s : State) : State :=
  let one (p : Path) (s : State) :=
    s.onPath p (PathSt.restore ((s.pathHolder p).bind fun n => totalsFrom s.flash.logbook p n))
  one .b (one .a s)

/-- The gain in force is the PGA of the block in force (R324, R325). -/
def PathSt.takePga (p : PathSt) : PathSt := { p with gain := acqPga p.acq }

/-- A configured path's first sounding falls due at once (log 28). -/
def PathSt.dueNow (raw : Nat) (p : PathSt) : PathSt := { p with lastDue := raw, nextDue := raw }

/-! ## Trim policy (R446) -/

/-- Apply a trim policy; DEDUCED (log 33): a source other than 0 starts a measurement. -/
def State.applyTrim (p : List Byte) (s : State) : State :=
  let src := leAt p 0 1
  if src = 0 then s.trRun false
  else
    let s := s.onTrim fun t => { t with src := src == 2, fnom := bitAt p 1 0, auto := bitAt p 1 1, cont := bitAt p 1 2
                                        k := BitVec.ofNat 5 (min 22 (leAt p 2 1)) }
    (s.when (src == 2) (State.onBin fun b => { b with evts := b.evts.set 3 { b.evts[3] with pps := true } })).trRun true

/-- The policy a start puts in force: the stored one when its berth holds RTC_WRITE, which is applied, else the reset values
(R297, R446). -/
def State.loadTrim (s : State) : State :=
  match s.flash.store.trim.filter fun x => s.holds x.berth 8 with
  | some x => (s.onFw fun f => { f with trimPolicy := x.bytes }).applyTrim x.bytes
  | none => s.onFw fun f => { f with trimPolicy := trimReset }

/-! ## Banks (R287 to R290) -/

/-- The active bank, and the other one. -/
def Flash.active (f : Flash) : Bank := if f.activeB then f.bankB else f.bankA
def Flash.inactive (f : Flash) : Bank := if f.activeB then f.bankA else f.bankB

/-- Change the inactive bank. -/
def Flash.onInactive (g : Bank → Bank) (f : Flash) : Flash :=
  if f.activeB then { f with bankA := g f.bankA } else { f with bankB := g f.bankB }

/-- The berth that holds FW_UPDATE, as an entry names it (R293). -/
def State.updateBerth (s : State) : Byte :=
  match s.holderOf 11 with
  | some n => BitVec.ofNat 8 n.val
  | none => 0

/-- FW_ROLLBACK: the release abandoned, and the one returned to (R290, R293). -/
def State.rolledBack (old new : Bank) (s : State) : State :=
  s.logWrite 8 s.updateBerth s.cal.stamp (slice old.release 0 4 ++ slice new.release 0 4)

/-- The bank a start runs: back to the previous one after a watchdog or lockup reset in probation, else the one chosen
(R289, R290). A start that such a reset cut short before firmware ran was a start of the image chosen. -/
def State.chooseBank (s : State) : State :=
  let f := s.flash
  if s.fw.badReset && f.trial then
    (s.onFlash fun f => { f with activeB := !f.activeB, nextB := !f.activeB, trial := false }).rolledBack f.active f.inactive
  else if f.nextB != f.activeB then
    if s.fw.badReset then (s.onFlash fun f => { f with nextB := f.activeB }).rolledBack f.inactive f.active
    else s.onFlash fun g => { g with activeB := g.nextB, trial := true, prior := g.active.release }
  else s

/-! ## The start (R246, R255, R261, R262, R270, R290, R297, R385, R387) -/

/-- What a start after a reset other than wake-from-off does first. DESIGN CHOICE (log 9): with a fresh Log engine. DESIGN
CHOICE (log 57). -/
def State.coldLoad (s : State) : State :=
  let s := s.chooseCharter.applyCharter
  let s := s.chooseBank
  let s := (List.finRange 4).foldl (fun s n => s.newEpoch n) s
  let s := s.completeUnseal.completeSeals
  let s := (s.onLog fun _ => Log.fresh).loadStore.restoreTotals
  let raw := s.trim.raw
  let s := s.onLog fun l => { l with a := (l.a.dueNow raw).takePga, b := (l.b.dueNow raw).takePga }
  let s := (s.onDom Domains.losePolicy).onEv fun e => { e with wakeEn := 0 }
  s.onFw fun f => { f with coldStart := false, badReset := false, pfArmed := true, pfLoss := false, probation := s.flash.trial }

/-- FIRMWARE_START (R246 and its sub-steps): the policies return to their reset values after any reset but wake-from-off
(R442). DESIGN CHOICE (log 34): firmware brings PWR ON after a reset and after a beacon wake, and MEM_M while a path is
configured. DESIGN CHOICE (log 19): it requests PLLC (R170, R171). -/
def execFirmwareStart (s : State) : Out :=
  if s.isOn .cpu && !s.fw.started then
    let cold := s.fw.coldStart
    let s := if cold then s.coldLoad else s.applyCharter.loadStore
    let s := s.loadTrim.onFw fun f => { f with started := true }
    let beacon := s.dom.wakePend.getLsbD 0
    let s := s.onDom fun d => { d with wakePend := d.wakePend &&& d.bellBits, pllcReq := true }
    let s := s.when (cold || beacon) (State.bringOn .pwr)
    let s := s.when (s.log.a.configured || s.log.b.configured) (State.bringOn .memM)
    let s := s.when (s.isOn .hif) State.restoreHif
    .next (s.memUsed.sysReset.flushRecords.when s.trim.src State.trimResume)
  else .next s

/-! ## Durable writes (R259, R260, R294, R297, R434, R452) -/

/-- The berth whose request of this code waits. -/
def State.waiter (s : State) (cmd : Half) : Option (Fin 4) := (List.finRange 4).find? fun n => (s.berth n).waitsFor cmd

/-- Answer the berth whose request of this code waits. -/
def State.answerWaiter (cmd : Half) (rest : List Byte) (s : State) : State :=
  match s.waiter cmd with
  | some n => s.answer n .ok rest
  | none => s

/-- Answers that wait for totals entries: TOTALS_RESET, and RESET with its scheduled reset (R434, R452, R488). -/
def State.answerTotals (s : State) : State :=
  if s.totalsPending then s
  else
    let s := s.answerWaiter 0x060F []
    match s.fw.resetWait with
    | some n => (s.answer n .ok []).onFw fun f => { f with resetWait := none, resetDue := true }
    | none => s

/-- What follows a durable entry (R259, R260, R386). -/
def State.afterEntry (e : LogEntry) (s : State) : State :=
  let n : Fin 4 := Fin.ofNat 4 e.berth.toNat
  let s := s.when e.isTotals (State.raise 78)
  if e.kind = 3 then
    (s.sealBerth e).answerWaiter 0x0204 (leBytes 8 e.stamp.toNat ++ slice e.data 0 4)
  else if e.kind = 4 then
    let b := (s.waiter 0x0205).getD n
    let entry := s.entry n
    (s.eraseLog n).storeWrite b false (some n) (StoreImage.erase entry)
  else if e.kind = 5 then (s.raise 88).answerWaiter 0x0205 (slice e.data 0 4)
  else s

/-- LOGBOOK_ENTRY_DURABLE (R292, R294, R386). -/
def execLogbookEntryDurable (s : State) : Out :=
  match s.fw.logQ with
  | [] => .next s
  | e :: rest =>
    let s := (s.onFw fun f => { f with logQ := rest }).onFlash fun f => { f with logbook := bookAdd f.logbook e }
    .next (s.afterEntry e).answerTotals

/-- CONFIG_STORE_DURABLE (R260, R297). -/
def execConfigStoreDurable (s : State) : Out :=
  match s.fw.storeQ with
  | [] => .next s
  | w :: rest =>
    let s := (s.onFw fun f => { f with storeQ := rest }).onFlash (Flash.saveStore w.image)
    let s := s.when (w.answer && ((s.berth w.berth).cur.map (·.waiting)).getD false) fun s => s.answer w.berth .ok []
    .next (match w.erases with
      | some n => (s.unsealBerth n).logWrite 5 (BitVec.ofNat 8 n.val) s.cal.stamp (leBytes 4 s.flash.auditCtr.toNat)
      | none => s)

/-! ## Scheduled resets and probation (R289, R290, R434) -/

/-- FIRMWARE_REQUEST_RESET (R289, R434): after the totals entries of R384 are durable. -/
def execFirmwareRequestReset (s : State) : Out :=
  if s.fw.resetDue && s.isOn .cpu && !s.totalsPending then .next (s.resetSwitched 0x6) else .next s

/-- FW_PROBATION_END (R290). DESIGN CHOICE (log 35): the image counts as activated from its confirmation. -/
def execFwProbationEnd (s : State) : Out :=
  if s.fw.probation && s.fw.started then
    let f := s.flash
    let v := f.active.secVer
    let berth := s.updateBerth
    .next (((s.onFlash fun f => { f with trial := false, topSecVer := if f.topSecVer.toNat < v.toNat then v else f.topSecVer }).onFw
      fun x => { x with probation := false }).logWrite 7 berth s.cal.stamp
        (slice f.prior 0 4 ++ slice f.active.release 0 4 ++ leBytes 2 v.toNat))
  else .next s

end Sys2Proof.Machine
end

