-- ==== Sys2Proof/Machine/Mailbox.lean ====
section
/-! DEFINITION. Requests: the checks that firmware makes as it takes one (R264 to R278), MAC lockout (R272), ring indexes
(R282), and what the commands of chapter 13 share (R250, R273, R427 to R431). -/

namespace Sys2Proof.Machine

/-! ## Taking a request (R273) -/

/-- The command codes of chapter 13. -/
def commandCodes : List Half :=
  [0x0100, 0x0101, 0x0102, 0x0103, 0x0104, 0x0105, 0x0106, 0x0200, 0x0201, 0x0202, 0x0203, 0x0204, 0x0205,
   0x0300, 0x0301, 0x0302, 0x0303, 0x0400, 0x0401, 0x0402, 0x0403, 0x0500, 0x0501, 0x0502, 0x0503, 0x0504] ++
  [0x0600, 0x0601, 0x0602, 0x0603, 0x0604, 0x0605, 0x0606, 0x0607, 0x0608, 0x0609, 0x060A, 0x060B, 0x060C, 0x060D,
   0x060E, 0x060F, 0x0700, 0x0701, 0x0800, 0x0801, 0x0802, 0x0803, 0x0804, 0x0900, 0x0901, 0x0902]

/-- The header of a frame is malformed: check 1 of R273. -/
def headBad (h : List Byte) : Bool :=
  leAt h 6 2 != (crc16 (slice h 0 6)).toNat || 240 < leAt h 4 2 || h.getD 3 0 &&& 0xF8 != 0

/-- Set MAC_LOCK after eight consecutive MAC_FAIL answers (R272). -/
def State.macLockout (n : Fin 4) (s : State) : State :=
  if 8 ≤ (s.berth n).macFails then
    ((s.onBerth n fun b => { b with macLock := true, macFails := 0 }).logWrite 9 (BitVec.ofNat 8 n.val) s.cal.stamp
      (leBytes 4 (s.berth n).macCtr.toNat)).raise 91
  else s

/-- Answer MAC_FAIL with the present MAC_CTR; `counted` under R272 (R269). -/
def State.macFail (n : Fin 4) (counted : Bool) (s : State) : State :=
  let s := s.answer n .macFail (leBytes 4 (s.berth n).macCtr.toNat)
  s.when counted fun s => (s.onBerth n fun b => { b with macFails := b.macFails + 1 }).macLockout n

/-- Hold a request as the berth's current one. -/
def State.hold (n : Fin 4) (rq : Request) (s : State) : State := s.onBerth n fun b => { b with cur := some rq }

/-- Checks 4 to 7 on a request that is not a repeat, MAC_LOCK being 0 (R270, R271, R273). DEDUCED (log 51). -/
def State.takeChecked (n : Fin 4) (rq : Request) (mac : List Byte) (s : State) : State :=
  let b := s.berth n
  let key := (s.entry n).key
  let hasMac := rq.flags.getLsbD 0
  let no := { rq with accepted := false }
  let late (rq : Request) (s : State) : State :=
    if b.seqKnown && rq.seq == b.lastSeq then (s.hold n { rq with accepted := false }).answer n .seqError []
    else
      let s := (s.hold n rq).onBerth n fun b => { b with lastSeq := rq.seq, seqKnown := true }
      if commandCodes.contains rq.cmd then s else s.answer n .unknownCmd []
  if b.noEpoch && (hasMac || b.sealed) then (s.hold n no).macFail n false
  else if b.sealed && !hasMac then (s.hold n no).macFail n true
  else if b.sealed && b.seqKnown && rq.seq != b.lastSeq + 1 then (s.hold n no).answer n .seqError []
  else if hasMac then
    let head := slice rq.frame 0 8
    if noKey key || macOf key n b.macCtr head rq.payload != mac then (s.hold n no).macFail n true
    else late { rq with mac := true, ctr := b.macCtr } ((s.macAdvance n).onBerth n fun b => { b with macFails := 0 })
  else late rq s

/-- Checks 1 to 7 of R273 on the bytes of the request mailbox. -/
def State.checkRequest (n : Fin 4) (bytes : List Byte) (s : State) : State :=
  let len := leAt bytes 4 2
  let flags := bytes.getD 3 0
  if headBad bytes then
    (s.hold n { cmd := 0, seq := 0, flags, payload := [], mac := false, ctr := 0, frame := [], accepted := false }).answer n .badLen []
  else
    let size := 8 + len + (if flags.getLsbD 0 then 8 else 0)
    let frame := slice bytes 0 size
    let rq : Request := { cmd := BitVec.ofNat 16 (leAt bytes 0 2), seq := bytes.getD 2 0, flags, payload := slice bytes 8 len
                          mac := false, ctr := 0, frame, turn := s.fw.turns }
    let b := s.berth n
    match (if frame = b.lastFrame then b.stored else none) with
    | some r => s.postFrame n r
    | none =>
      if b.macLock then (s.hold n { rq with accepted := false }).macFail n false
      else s.takeChecked n rq (slice bytes (8 + len) 8)

/-- The ring that firmware takes next: the oldest of a berth that has no request in hand (R278). -/
def State.nextRing (s : State) : Option (Fin 4) := s.dom.ringOrder.find? fun n => (s.berth n).cur.isNone

/-- FIRMWARE_TAKE_REQUEST (R181, R183, R273, R277, R278): none is taken while a reset is scheduled (log 36). -/
def execFirmwareTakeRequest (b : Fin 4) (s : State) : Out :=
  if s.isOn .cpu && s.fw.started && s.isOn .memB && !s.fw.resetDue && s.nextRing == some b then
    let bytes := memReadAll s.berths.mem (windowBase b.val) 256
    let s := s.onDom fun d => { d with
      bells := d.bells.set b { d.bells[b] with pend := false, ack := true }, ringOrder := d.ringOrder.erase b
      wakePend := d.wakePend &&& ~~~(1#32 <<< (12 + b.val)) }
    .next ((s.onFw fun f => { f with turns := f.turns + 1 }).checkRequest b bytes)
  else .next s

/-- MAC_LOCK_EXPIRE (R272). -/
def execMacLockExpire (b : Fin 4) (s : State) : Out := .next (s.onBerth b fun k => { k with macLock := false })

/-- RING_RD_WRITE (R282). -/
def execRingRdWrite (p : Port) (b : Fin 4) (v : Byte) (s : State) : Out :=
  .next (s.portWrite p (windowBase b.val + 0x201) [v])

/-! ## Executing a command (R250, R273) -/

/-- Run a command on the berth's request, when firmware runs and that request is of this code and not yet executed. -/
def State.serve (b : Fin 4) (cmd : Half) (f : Request → State → State) (s : State) : Out :=
  match (s.berth b).cur with
  | some rq => if s.isOn .cpu && s.fw.started && rq.cmd == cmd && !rq.waiting then .next (f rq s) else .next s
  | none => .next s

/-- Checks 8 and 9 of R273: right, sealed item, length, first offending byte (R426, R427). -/
def State.checked (b : Fin 4) (denied sealedItem badLen : Bool) (bad : Option Nat) (f : State → State) (s : State) : State :=
  if denied then s.answer b .denied []
  else if sealedItem then s.answer b .sealed []
  else if badLen then s.answer b .badLen []
  else match bad with
    | some k => s.answer b .badParam [BitVec.ofNat 8 k]
    | none => f s

/-- Check 10: the first of a command's own conditions that holds, each with its status (R273). -/
def State.unless (b : Fin 4) (conds : List (Bool × Status)) (f : State → State) (s : State) : State :=
  match conds.find? fun c => c.1 with
  | some (_, st) => s.answer b st []
  | none => f s

/-- Answer OK. -/
def State.ok (b : Fin 4) (rest : List Byte) (s : State) : State := s.answer b .ok rest

/-- The request stays in hand until a later instant answers it. -/
def State.waits (b : Fin 4) (s : State) : State := s.onBerth b Berth.wait

/-- The berth lacks a right (R249, R250). -/
def State.lacks (s : State) (b : Fin 4) (bit : Nat) : Bool := !s.holds b bit

/-- The berth is sealed. -/
def State.isSealed (s : State) (b : Fin 4) : Bool := (s.entry b).sealed

/-- The commands that write flash (R429). -/
def flashCodes : List Half :=
  [0x0202, 0x0204, 0x0205, 0x060F, 0x0800, 0x0801, 0x0600, 0x0602, 0x0604, 0x0606, 0x0608, 0x060A, 0x0402]

/-- A request writes flash. -/
def Request.writes (rq : Request) : Bool := flashCodes.contains rq.cmd

/-- Another berth's flash write is in progress (R429). DEDUCED (log 36): from the take of the request that writes to its
answer, so that of two requests in hand together the one taken first writes. -/
def State.flashHeld (s : State) (b : Fin 4) : Bool :=
  match (s.berth b).cur with
  | none => false
  | some mine =>
    mine.held || (s.fw.storeQ.any fun w => w.berth != b) ||
      (List.finRange 4).any fun n => n != b &&
        match (s.berth n).cur with
        | some rq => rq.writes && (rq.waiting || decide (rq.turn < mine.turn))
        | none => false

/-- A flash write of this berth that is made and answered in one step was in progress while the other berths' requests were
in hand (R429). -/
def State.writesFlash (b : Fin 4) (s : State) : State :=
  (List.finRange 4).foldl (fun s n => if n = b then s else s.onBerth n fun k => { k with
    cur := k.cur.map fun rq => { rq with held := rq.held || (rq.writes && !rq.waiting) } }) s

/-- The offset of a reserved byte that is not 0, among those given (R428). -/
def reservedBad (p : List Byte) (offs : List Nat) : Option Nat := offs.find? fun k => p.getD k 0 != 0

/-- A block's first offending byte, counted from the start of a request that puts `n` bytes before it (R427). -/
def shiftBad (n : Nat) (k : Option Nat) : Option Nat := k.map fun k => if k = 0xFF then 0xFF else k + n

end Sys2Proof.Machine
end

