-- ==== Sys2Proof/Machine/CmdFirmware.lean ====
section
/-! DEFINITION. The commands of groups 0x08 and 0x09: firmware update and the probe channel (R287 to R289, R429, R430,
R456 to R459), and the two events of the core die that stand alone (R301). -/

namespace Sys2Proof.Machine

/-! ## Firmware update (R287 to R289, R456, R457) -/

/-- FW_BEGIN (R288, R429, R456): the inactive bank is erased. -/
def execFwBegin (b : Fin 4) (s : State) : Out :=
  s.serve b 0x0800 fun rq s =>
    let len := leAt rq.payload 0 4
    s.checked b (s.lacks b 11) false (rq.payload.length != 4) (if len = 0 ∨ 368640 < len then some 0 else none) fun s =>
      s.unless b [(s.flashHeld b, .resourceHeld)] fun s =>
        (((s.onFlash (Flash.onInactive fun k => { k with valid := false })).onFw fun f => { f with update := some { len } }
          ).writesFlash b |>.raise 90).ok b []

/-- LEN of FW_DATA (R456). -/
def dataLenBad (n : Nat) : Bool := n < 5 || 240 < n

/-- FW_DATA (R288, R429, R456, R457). -/
def execFwData (b : Fin 4) (s : State) : Out :=
  s.serve b 0x0801 fun rq s =>
    let p := rq.payload
    s.checked b (s.lacks b 11) false (dataLenBad p.length) none fun s =>
      match s.fw.update with
      | none => s.answer b .notReady []
      | some u =>
        if leAt p 0 4 ≠ u.image.length ∨ u.len < u.image.length + (p.length - 4) then s.answer b .badParam [0]
        else s.unless b [(s.flashHeld b, .resourceHeld)] fun s =>
          ((s.onFw fun f => { f with update := some { u with image := u.image ++ p.drop 4, verified := false } }
            ).writesFlash b |>.raise 90).ok b []

/-- The image passes verify: its length, its signature, its security version (R288; log 14). -/
def Update.good (u : Update) (top : Half) : Bool :=
  Config.imageLength u.image == u.len && Config.imageSigned u.image && decide (top.toNat ≤ (Config.imageSecVer u.image).toNat)

/-- FW_VERIFY (R288, R456, R457). -/
def execFwVerify (b : Fin 4) (s : State) : Out :=
  s.serve b 0x0802 fun rq s =>
    s.checked b (s.lacks b 11) false (rq.payload.length != 0) none fun s =>
      match s.fw.update with
      | none => s.answer b .notReady []
      | some u =>
        if u.image.length < u.len ∨ u.good s.flash.topSecVer = false then s.answer b .denied []
        else
          let rel := slice (Config.imageRelease u.image) 0 4
          let v := Config.imageSecVer u.image
          let s := s.onFlash (Flash.onInactive fun _ => { valid := true, release := rel, secVer := v })
          ((s.onFw fun f => { f with update := some { u with verified := true } }).raise 90).ok b (rel ++ leBytes 2 v.toNat)

/-- FW_ACTIVATE (R288, R289, R384, R456, R457). -/
def execFwActivate (b : Fin 4) (s : State) : Out :=
  s.serve b 0x0803 fun rq s =>
    s.checked b (s.lacks b 11) false (rq.payload.length != 0) none fun s =>
      if (s.fw.update.map (·.verified)).getD false then
        let s := (s.onFlash fun f => { f with nextB := !f.activeB }).saveTotals 0x01
        ((s.raise 90).ok b []).onFw fun f => { f with resetDue := true }
      else s.answer b .notReady []

/-- A bank as FW_INFO shows it (R456). -/
def Bank.bytes (k : Bank) : List Byte := [if k.valid then 1 else 0] ++ slice k.release 0 4 ++ leBytes 2 k.secVer.toNat

/-- FW_INFO (R456). -/
def execFwInfo (b : Fin 4) (s : State) : Out :=
  s.serve b 0x0804 fun rq s =>
    s.checked b false false (rq.payload.length != 0) none fun s =>
      s.ok b ([if s.flash.activeB then 1 else 0] ++ s.flash.bankA.bytes ++ s.flash.bankB.bytes ++ leBytes 2 s.flash.topSecVer.toNat)

/-! ## Probe channel (R236 to R239, R458, R459) -/

/-- A filter code that R239 refuses at the speed: codes above 5, 4, 3 and 2 at 10, 100, 200 and 400 kHz; 6 and 7 act as 5. -/
def filterBad (speed filt : Nat) : Bool := 5 - speed < min 5 filt

/-- The first offending byte of a PROBE_CFG request (R428, R458, R459). -/
def probeCfgBad (p : List Byte) : Option Nat :=
  if filterBad (bitsAt p 0 1 0) (bitsAt p 0 4 2) ∨ 0x20 ≤ leAt p 0 1 then some 0
  else if 0x10 ≤ leAt p 1 1 then some 1 else if p.getD 3 0 != 0 then some 3 else none

/-- PROBE_CFG (R239, R430, R458, R459). -/
def execProbeCfg (b : Fin 4) (s : State) : Out :=
  s.serve b 0x0900 fun rq s =>
    let p := rq.payload
    s.checked b (s.lacks b 10) false (p.length != 4) (probeCfgBad p) fun s =>
      ((s.need .hif).onTw fun t => { t with
        pbSpeed := BitVec.ofNat 2 (bitsAt p 0 1 0), pbFilt := BitVec.ofNat 3 (bitsAt p 0 4 2)
        pbWidth := BitVec.ofNat 4 (bitsAt p 1 3 0), pbPage := p.getD 2 0 }).ok b []

/-- A memory address above the head's address width (R459). -/
def Tw.addressBad (t : Tw) (head a : Nat) : Bool := !t.pbWidth.getLsbD head && 0x100 ≤ a

/-- The page size of a head in bytes (R458). -/
def Tw.pageSize (t : Tw) (head : Nat) : Nat := 8 * 2 ^ (t.pbPage.toNat / 4 ^ head % 4)

/-- The address byte of a head (R207, R238). -/
def ProbeOp.addrByte (read : Bool) (o : ProbeOp) : Byte := BitVec.ofNat 8 (2 * (0x50 + o.head) + bit read)

/-- The bytes that a transfer sends, one list after its START and one after a repeated START (R238). PRESUMED (log 82): a
2-byte memory address goes most significant byte first. -/
def ProbeOp.sends (o : ProbeOp) : List (List Byte) :=
  let at_ := if o.wide then [BitVec.ofNat 8 (o.addr / 256), BitVec.ofNat 8 o.addr] else [BitVec.ofNat 8 o.addr]
  if o.polling then [[o.addrByte false]]
  else if o.write then [o.addrByte false :: at_ ++ o.data]
  else [o.addrByte false :: at_, [o.addrByte true]]

/-- A transfer begins, with HIF brought ON (R430, R459); a START that falls inside a quiet window waits for its closing
(R240). -/
def State.probeStart (b : Fin 4) (write : Bool) (head addr count : Nat) (data : List Byte) (s : State) : State :=
  ((s.need .hif).onTw fun t => { t with
    probe := some { berth := b, write, head, addr, wide := t.pbWidth.getLsbD head, data, count, held := s.link.window.isSome } }
    ).waits b

/-- PROBE_READ (R236, R238, R458, R459). -/
def execProbeRead (b : Fin 4) (s : State) : Out :=
  s.serve b 0x0901 fun rq s =>
    let p := rq.payload
    let head := leAt p 0 1
    let n := leAt p 1 1
    let bad := if 3 < head then some 0 else if n = 0 ∨ 238 < n then some 1 else if s.tw.addressBad head (leAt p 2 2) then some 2 else none
    s.checked b (s.lacks b 10) false (p.length != 4) bad fun s =>
      s.unless b [(s.tw.probe.isSome, .resourceHeld)] (State.probeStart b false head (leAt p 2 2) n [])

/-- PROBE_WRITE (R236, R238, R458, R459). -/
def execProbeWrite (b : Fin 4) (s : State) : Out :=
  s.serve b 0x0902 fun rq s =>
    let p := rq.payload
    let head := leAt p 0 1
    let a := leAt p 2 2
    let n := p.length - 4
    let size := s.tw.pageSize head
    let bad := if 3 < head then some 0 else if p.getD 1 0 != 0 then some 1 else if s.tw.addressBad head a then some 2
      else if size < a % size + n then some 0xFF else none
    s.checked b (s.lacks b 10) false (p.length < 5 || 68 < p.length) bad fun s =>
      s.unless b [(s.tw.probe.isSome, .resourceHeld)] (State.probeStart b true head a n (p.drop 4))

/-! ## The core die (R301) -/

/-- DIE_TEMP (R301): the core die reaches 125 °C, again only after a fall below 115 °C. -/
def execDieTemp (s : State) : Out := .next (s.raise 95)

/-- FLASH_ECC (R301). -/
def execFlashEcc (s : State) : Out := .next (s.raise 94)

end Sys2Proof.Machine
end

