-- ==== Sys2Proof/Machine/GaugeCmds.lean ====
section
/-! DEFINITION. The gauge's own events: conversions, telemetry, rest and fixes, learning and the warning levels (R397 to
R416), and the check of an OCV profile (R425). Charges are in LSB of 0.5 nV·s, SoC in 0.01 %, temperatures in 0.1 °C.
DESIGN CHOICE (log 30): quotients whose rounding the manual does not state round to the nearest unit. -/

namespace Sys2Proof.Machine

/-! ## Configuration (R424) -/

def gCells (g : List Byte) : Nat := bitsAt g 0 1 0
def gProf (g : List Byte) : Bool := bitAt g 0 2
def gLearnEn (g : List Byte) : Bool := bitAt g 0 3
/-- R_SHUNT in µΩ, Q_DESIGN in mAh, I_REST in 0.1 mA, T_REST in s. -/
def gShunt (g : List Byte) : Nat := leAt g 2 2
def gDesign (g : List Byte) : Nat := leAt g 4 2
def gIRest (g : List Byte) : Nat := leAt g 6 2
def gTRest (g : List Byte) : Nat := leAt g 8 2
/-- The thresholds of level k: 0 WARN, 1 LOW, 2 CRIT; percent and per-cell mV. -/
def gLevelSoc (g : List Byte) (k : Nat) : Nat := leAt g (10 + k) 1
def gLevelV (g : List Byte) (k : Nat) : Nat := leAt g (14 + 2 * k) 2
def gEocSoc (g : List Byte) : Nat := leAt g 13 1
def gNtcB (g : List Byte) : Nat := leAt g 20 2
def gTlmInt (g : List Byte) : Nat := leAt g 22 1
/-- LEARN_MAX in s, FLAT_MIN in 0.1 mV. -/
def gLearnMax (g : List Byte) : Nat := leAt g 25 1 * 3600
def gFlatMin (g : List Byte) : Nat := leAt g 26 1

/-! ## State of charge (R400, R408) -/

/-- SOC_K for a full capacity: 720,000·R·Q_FULL (R400). -/
def Gauge.kFor (q : Nat) (g : Gauge) : Word := BitVec.ofNat 32 (divRound ((72 * gShunt g.cfg * q : Nat) : Int) 100).toNat

/-- SOC from the anchor (R400). -/
def Gauge.reckon (g : Gauge) : Gauge :=
  { g with soc := (g.socA.toNat : Int) + divRound (g.acc - g.accA) (max 1 g.socK.toNat) }

/-- SOC clamped to 0–10,000 (R400). -/
def Gauge.socClamped (g : Gauge) : Int := clampInt 0 10000 g.soc

/-- Write the anchor, with SOC_K, and recompute SOC at once (R400, R408, R419). -/
def Gauge.anchor (soc : BitVec 16) (acc : Int) (g : Gauge) : Gauge :=
  ({ g with socA := soc, accA := acc, socK := g.kFor g.qFull.toNat, stateValid := true } : Gauge).reckon

/-! ## Levels (R413 to R415) -/

/-- The events of WARN, LOW and CRIT. -/
def levelEvent (k : Nat) : Nat := 85 + k

/-- Enter a level: its event; `tlm` when a telemetry result entered it (R413, R414). -/
def State.enterLevel (k : Nat) (tlm : Bool) (s : State) : State :=
  (s.onGauge fun g => { g with levels := g.levels ||| (1#3 <<< k)
                               levelTlm := if tlm then g.levelTlm ||| (1#3 <<< k) else g.levelTlm &&& ~~~(1#3 <<< k) }).raise
    (levelEvent k)

/-- The SoC at or below a level's threshold (R413). -/
def Gauge.socLow (k : Nat) (g : Gauge) : Bool := g.stateValid && decide (g.socClamped ≤ 100 * gLevelSoc g.cfg k)

/-- VCELL at or below a level's threshold (R413). -/
def Gauge.cellLow (k : Nat) (g : Gauge) : Bool := g.vcell.toNat ≤ 10 * gLevelV g.cfg k

/-- Entries by SoC, in the order WARN, LOW, CRIT (R413). -/
def State.socLevels (s : State) : State :=
  [0, 1, 2].foldl (fun s k => if s.gauge.socLow k && !s.gauge.levels.getLsbD k then s.enterLevel k false else s) s

/-- Entries by a telemetry result (R413). -/
def State.cellLevels (s : State) : State :=
  [0, 1, 2].foldl (fun s k => if s.gauge.cellLow k && !s.gauge.levels.getLsbD k then s.enterLevel k true else s) s

/-- A level is left (R414). -/
def Gauge.leaves (k : Nat) (g : Gauge) : Bool :=
  (!g.stateValid || decide ((100 * gLevelSoc g.cfg k + 200 : Int) ≤ g.socClamped)) &&
    (!g.levelTlm.getLsbD k || decide (10 * (gLevelV g.cfg k + 50) ≤ g.vcell.toNat))

/-- Levels that are left, without an event (R414). -/
def Gauge.leaveLevels (g : Gauge) : Gauge :=
  [0, 1, 2].foldl (fun g k => if g.levels.getLsbD k && g.leaves k then { g with levels := g.levels &&& ~~~(1#3 <<< k) } else g) g

/-- EOC (R415). -/
def State.eocCheck (s : State) : State :=
  let g := s.gauge
  if !g.stateValid then s
  else if !g.eoc && decide ((100 * gEocSoc g.cfg : Int) ≤ g.socClamped) then (s.onGauge fun g => { g with eoc := true }).raise 92
  else if g.eoc && decide (g.socClamped < 100 * gEocSoc g.cfg - 500) then s.onGauge fun g => { g with eoc := false }
  else s

/-! ## Conversions (R397 to R401, R406, R409 to R411) -/

/-- The input range in LSB: ±100 mV (R399). -/
def convMax : Int := 200000000

/-- The limits of ACC (R399). -/
def accMax : Int := 2 ^ 47 - 1
def accMin : Int := -2 ^ 47

/-- The accumulation of a result, and whether it sets OVR (R397, R399, R417). -/
def Gauge.add (i : Int) (g : Gauge) : Gauge × Bool :=
  let r := clampInt (-convMax) convMax i
  let a := clampInt accMin accMax (g.acc + r)
  let hit := r != i || a == accMin || a == accMax
  let d := g.dchgRem + (if r < 0 then r.natAbs else 0)
  let per := max 1 g.perMah
  ({ g with acc := a, iLast := r, convCnt := g.convCnt + 1, ovr := g.ovr || hit
            dchgTotal := BitVec.ofNat 32 (g.dchgTotal.toNat + d / per), dchgRem := d % per }, hit)

/-- A conversion is quiet (R406). -/
def State.quietNow (s : State) : Bool :=
  let c := s.power.chg
  decide (s.gauge.iLast.natAbs * 5 < gIRest s.gauge.cfg * gShunt s.gauge.cfg) && !(c == .pre || c == .cc || c == .cv)

/-- The rest window at a conversion end (R406). -/
def Gauge.rest (quiet : Bool) (g : Gauge) : Gauge :=
  if !quiet then { g with restOpen := none, restTime := 0, lastQuiet := some false, afterFix := false }
  else if g.lastQuiet != some true || g.afterFix then
    { g with restOpen := some g.convCnt.toNat, restTime := 0, lastQuiet := some true, afterFix := false }
  else
    { g with restTime := match g.restOpen with
        | some o => BitVec.ofNat 16 (min 65535 (g.convCnt.toNat - o))
        | none => g.restTime }

/-- A temperature outside 10–45 °C (R411). -/
def learnTempBad (t : Int) : Bool := t < 100 || 450 < t

/-- A PENDING learn opens at a conversion end that is not quiet; an OPEN one counts it (R409, R411). -/
def Gauge.learnStep (quiet : Bool) (g : Gauge) : Gauge :=
  if quiet then g
  else if g.learn = .pending then
    { g with learn := .opened, openConv := g.convCnt.toNat, absSum := g.iLast.natAbs, busyConv := 1, chgStart := false }
  else if g.learn = .opened then { g with absSum := g.absSum + g.iLast.natAbs, busyConv := g.busyConv + 1 }
  else g

/-- The integrator runs: GAUGE has left OFF (R397, R402). -/
def State.gaugeRuns (s : State) : Bool := s.dom.gauge.st != .off && !s.bin.held

/-- GAUGE_CONVERSION_END (R397 to R401, R406, R409, R411, R413 to R415). -/
def execGaugeConversionEnd (i : Int) (s : State) : Out :=
  if s.gaugeRuns then
    let hit := (s.gauge.add i).2
    let s := s.onGauge fun g => (g.add i).1
    let quiet := s.quietNow
    let opens := !quiet && s.gauge.learn == .pending
    let s := s.onGauge fun g => (g.rest quiet).learnStep quiet
    let s := s.when (opens && learnTempBad s.gauge.fixTemp) (State.learnDisq 1)
    let s := s.when (s.gauge.learn == .opened && s.cal.onLrc) (State.learnDisq 10)
    let s := s.when (s.gauge.learn == .opened && hit) (State.learnDisq 11)
    let s := s.onGauge fun g => if g.stateValid then g.reckon else g
    .next (s.socLevels.eocCheck.onGauge Gauge.leaveLevels)
  else .next s

/-- REST_WINDOW_COMPLETE (R406): at a quiet conversion end at or after the window's closing. -/
def execRestWindowComplete (s : State) : Out :=
  match s.gauge.restOpen with
  | some o =>
    if s.gaugeRuns && s.gauge.lastQuiet == some true && gTRest s.gauge.cfg ≤ s.gauge.convCnt.toNat - o then
      .next (s.onGauge fun g => { g with restMet := true, restOpen := none, restAcc := g.acc })
    else .next s
  | none => .next s

/-! ## Readings (R403 to R405) -/

/-- The temperature of a resistance on TS in 0.1 °C, with TS_OPEN and TS_SHORT (R403). -/
def tsReading (b rts : Nat) : Int × Bool × Bool :=
  if 500000 < rts then (-500, true, false)
  else if rts < 100 then (1500, false, true)
  else
    let k : Rat := 1 / (20 / 5963 + ofFx (lnFx (mkRat rts 10000)) / (max 1 b : Nat))
    (clampInt (-500) 1500 (roundRat (10 * k - 5463 / 2)), false, false)

/-- VCELL in 0.1 mV of the sum of `n` BSNS results: 18 V over 14 bits, over CELLS_G cells (R402, R404). -/
def cellReading (cells n sum : Nat) : BitVec 16 := BitVec.ofNat 16 (divRound ((180000 * sum : Nat) : Int) (16384 * max 1 n * max 1 cells)).toNat

/-- Take a reading; a temperature outside 10–45 °C ends an OPEN learn (R403, R404, R411). -/
def State.takeReading (n sum rts : Nat) (s : State) : State :=
  let (t, open_, short) := tsReading (gNtcB s.gauge.cfg) rts
  let s := s.onGauge fun g => { g with vcell := cellReading (gCells g.cfg) n sum, tpack := t, tsOpen := open_, tsShort := short }
  s.when (s.gauge.learn == .opened && learnTempBad t) (State.learnDisq 1)

/-- A TS result is the latest; the charger takes its zone while PWR is ON, and otherwise when PWR is next ON (R106, R404). -/
def State.zoneResult (t : Int) (s : State) : State :=
  (s.onPower fun p => { p with tsAt := some s.trim.raw, tsTemp := t }).when (s.isOn .pwr) State.takeZone

/-- The current of the last conversion in 0.1 mA. -/
def Gauge.current (g : Gauge) : Int := divRound (g.iLast * 5) (max 1 (gShunt g.cfg))

/-- GAUGE_TELEMETRY (R404, R413, R414, R422): while telemetry is asked for. -/
def execGaugeTelemetry (bsns : BitVec 14) (rts : Nat) (s : State) : Out :=
  if s.isOn .gauge && (gTlmInt s.gauge.cfg != 0 || s.power.chgEn) then
    let s := s.takeReading 1 bsns.toNat rts
    let s := s.zoneResult s.gauge.tpack
    let s := s.onGauge fun g => { g with levelTlm := g.levelTlm ||| g.levels }
    let s := s.cellLevels.onGauge Gauge.leaveLevels
    let g := s.gauge
    .next (s.gaugeRecord 2 0x22 false (leBytes 2 g.socReg.toNat ++ leBytes 2 g.vcell.toNat ++ sleBytes 2 g.tpack ++
      sleBytes 4 g.current ++ [BitVec.ofNat 8 g.dstate, byteOf [g.eoc, g.tsOpen, g.tsShort]]))
  else .next s

/-! ## Profiles and fixes (R406 to R408, R425) -/

/-- V_i at a temperature in 0.1 °C, in 10⁻⁴ mV. -/
def profileAt (p : List Byte) (t : Int) (i : Nat) : Int := 1000 * leAt p (4 + 4 * i) 2 + sleAt p (6 + 4 * i) 2 * (t - 250)

/-- The check of an OCV profile block (R425, R428). -/
def profileBad (p : List Byte) : Option Nat :=
  if 2 ≤ leAt p 0 1 then some 0
  else match (List.range 4).find? fun k => 1 ≤ k && p.getD k 0 != 0 with
    | some k => some k
    | none =>
      let rising (t : Int) := ascending ((List.range 33).map (profileAt p t))
      if leAt p 136 4 ≠ (crc32 (slice p 0 136)).toNat ∨ !rising (-200) ∨ !rising 600 then some 0xFF else none

/-- The profile in use (R424, R425). -/
def Gauge.profile (g : Gauge) : Option (List Byte) := if gProf g.cfg then g.prof1 else g.prof0

/-- The segment that holds a cell voltage: its index, its lower and its upper end. -/
def segment (p : List Byte) (t v : Int) : Option (Nat × Int × Int) :=
  ((List.range 32).map fun i => (i, profileAt p t i, profileAt p t (i + 1))).find? fun x => x.2.1 ≤ v && v ≤ x.2.2

/-- RESULT of a fix attempt and the SoC of one that applies (R407). DESIGN CHOICE (log 30): with no profile written, no
segment holds VCELL and RESULT is 2. -/
def Gauge.judgeFix (g : Gauge) : Nat × Option (BitVec 16) :=
  let t := g.tpack
  let v : Int := 1000 * g.vcell.toNat
  if g.tsOpen || g.tsShort then (4, none)
  else if t < -200 ∨ 600 < t then (3, none)
  else match g.profile with
    | none => (2, none)
    | some p =>
      match segment p t v with
      | some (i, lo, hi) =>
        if hi - lo < 1000 * gFlatMin g.cfg then (2, none)
        else (0, some (BitVec.ofInt 16 (roundRat (625 / 2 * ((i : Rat) + (if hi = lo then 0 else mkRat (v - lo) (hi - lo).toNat))))))
      | none => (1, some (if v < profileAt p t 0 then 0 else 10000))

/-- C_meas in mAh (R412). -/
def measured (g : Gauge) (dAcc dSoc : Int) : Rat := mkRat ((dAcc.natAbs * 10000 : Nat) : Int) (max 1 (g.perMah * dSoc.natAbs))

/-- The new full capacity (R412). -/
def newFull (q : Nat) (c : Rat) : Nat :=
  let n : Rat := q + (c - q) / 4
  (roundRat (max (mkRat (9 * q : Nat) 10) (min (mkRat (11 * q : Nat) 10) n))).toNat

/-- The first cause that a close finds (R411). -/
def closeCause (g : Gauge) (dSoc : Int) (c : Rat) : Option Nat :=
  if g.qFull.toNat * g.perMah * g.busyConv < g.absSum * 7200 then some 2
  else if g.chgStart && decide (dSoc < 0) then some 8
  else if c < mkRat (gDesign g.cfg) 2 ∨ mkRat (3 * gDesign g.cfg : Nat) 2 < c then some 12
  else none

/-- The learn closes on an applied fix: disqualified, or the new capacity (R410 to R412). -/
def State.closeLearn (dSoc dAcc : Int) (s : State) : State :=
  let g := s.gauge
  let c := measured g dAcc dSoc
  let q := newFull g.qFull.toNat c
  let now := g.convCnt.toNat
  let found := some ((roundRat c).toNat, q)
  match closeCause g dSoc c with
  | some k =>
    let (p, s) := s.fill (g.learnFields k dSoc dAcc found now)
    ((s.gaugeRecord 1 0x21 false p).onGauge fun g => { g with learn := .none, lastDisq := BitVec.ofNat 4 k }).raise 84
  | none =>
    let (p, s) := s.fill (({ g with learnCnt := g.learnCnt + 1 } : Gauge).learnFields 0 dSoc dAcc found now)
    ((s.gaugeRecord 1 0x21 false p).onGauge fun g =>
      { g with learn := .none, learnCnt := g.learnCnt + 1, qFull := BitVec.ofNat 16 q, socK := g.kFor q }).raise 83

/-- What an applied fix does to the learn (R409, R410, R412). -/
def State.learnFix (s : State) : State :=
  let g := s.gauge
  let dSoc : Int := (g.socA.toNat : Int) - g.anchorSoc
  let s := s.when (g.learn == .opened && 5000 ≤ dSoc.natAbs) (State.closeLearn dSoc (g.accA - g.anchorAcc))
  let again := s.gauge.learn == .pending || (s.gauge.learn == .none && gLearnEn g.cfg)
  s.onGauge fun g => if again then { g with learn := .pending, anchorSoc := g.socA.toNat, anchorAcc := g.accA } else g

/-- FIX_ATTEMPT (R405, R407, R408, R422): 16 BSNS results and one TS result. -/
def execFixAttempt (bsns : List (BitVec 14)) (rts : Nat) (s : State) : Out :=
  if s.fw.started && s.isOn .gauge && s.gauge.restMet && bsns.length == 16 then
    let s := s.takeReading 16 ((bsns.map BitVec.toNat).sum) rts
    let before := if s.gauge.stateValid then some s.gauge.socClamped else none
    let (res, fix) := s.gauge.judgeFix
    let rest := s.gauge.restTime
    let s := s.onGauge fun g => { g with restMet := false, restOpen := none, restTime := 0, afterFix := true }
    let s := match fix with
      | none => s
      | some v =>
        ((s.onGauge fun g => { g.anchor v g.restAcc with restored := false }).onGauge fun g =>
          { g with fixLsec := BitVec.ofNat 32 s.cal.lsec.toNat, fixSoc := v, fixTemp := g.tpack }).learnFix.raise 82
    let g := s.gauge
    let (p, s) := s.fill [given (leBytes 2 g.socReg.toNat),
      (2, if fix.isNone then some [0, 0] else before.map fun b => sleBytes 2 (g.socClamped - b)),
      given (leBytes 2 g.vcell.toNat ++ sleBytes 2 g.tpack ++ [BitVec.ofNat 8 res, if gProf g.cfg then 1 else 0] ++
        sleBytes 6 g.accA ++ leBytes 2 rest.toNat)]
    .next (s.gaugeRecord 0 0x20 (res == 1) p)
  else .next s

/-- LEARN_AGE_EXPIRE (R411). -/
def execLearnAgeExpire (s : State) : Out :=
  if s.gauge.learn == .opened && gLearnMax s.gauge.cfg ≤ s.gauge.convCnt.toNat - s.gauge.openConv then .next (s.learnDisq 9)
  else .next s

end Sys2Proof.Machine
end

