-- ==== Sys2Proof/Machine/CmdGauge.lean ====
section
/-! DEFINITION. The commands of group 0x05: gauge configuration, profiles, save and restore (R417 to R420, R424, R425,
R430, R447). -/

namespace Sys2Proof.Machine

/-- Write the configuration block; a change of CELLS_G, PROF or R_SHUNT ends a learn (R411, R424). -/
def State.gaugeConfig (p : List Byte) (s : State) : State :=
  let old := s.gauge.cfg
  let changed := gCells old != gCells p || gProf old != gProf p || gShunt old != gShunt p
  let s := s.when changed (State.learnDisq 13)
  s.onGauge fun g => let g := { g with cfg := p }; if g.stateValid then { g with socK := g.kFor g.qFull.toNat } else g

/-- GAUGE_CFG_WRITE (R424, R430, R447). -/
def execGaugeCfgWrite (b : Fin 4) (s : State) : Out :=
  s.serve b 0x0500 fun rq s =>
    s.checked b (s.lacks b 6) false (rq.payload.length != 32) (gaugeCfgBad rq.payload) fun s =>
      s.unless b [(!s.isOn .gauge, .notReady)] fun s => (s.gaugeConfig rq.payload).ok b []

/-- GAUGE_CFG_READ (R447): NOT_READY only while GAUGE is OFF. DEDUCED (log 76): open to every berth. -/
def execGaugeCfgRead (b : Fin 4) (s : State) : Out :=
  s.serve b 0x0501 fun rq s =>
    s.checked b false false (rq.payload.length != 0) none fun s =>
      s.unless b [(s.dom.gauge.st == .off, .notReady)] fun s => s.ok b (slice s.gauge.cfg 0 32)

/-- Write a profile; the one in use clears STATE_VALID (R425). -/
def Gauge.writeProfile (p : List Byte) (g : Gauge) : Gauge :=
  let one := leAt p 0 1 == 1
  let g := if one then { g with prof1 := some p } else { g with prof0 := some p }
  if one == gProf g.cfg then { g with stateValid := false } else g

/-- GAUGE_PROFILE (R425, R430, R447). -/
def execGaugeProfile (b : Fin 4) (s : State) : Out :=
  s.serve b 0x0502 fun rq s =>
    s.checked b (s.lacks b 6) false (rq.payload.length != 140) (profileBad rq.payload) fun s =>
      s.unless b [(!s.isOn .gauge, .notReady)] fun s => (s.onGauge (Gauge.writeProfile rq.payload)).ok b []

/-- CFG_CRC (R417). -/
def cfgCrc (cfg : List Byte) : Nat := (crc16 (slice cfg 0 6)).toNat

/-- The state block (R417). -/
def State.gaugeBlock (s : State) : List Byte :=
  let g := s.gauge
  let body := [0x01, 0x00, if gProf g.cfg then 1 else 0, BitVec.ofNat 8 (gCells g.cfg)] ++ leBytes 4 g.saveSeq.toNat ++
    leBytes 8 s.cal.stamp.toNat ++ leBytes 2 g.socReg.toNat ++ leBytes 2 g.qFull.toNat ++ leBytes 2 g.learnCnt.toNat ++
    leBytes 2 (cfgCrc g.cfg) ++ leBytes 4 g.dchgTotal.toNat ++ leBytes 4 g.fixLsec.toNat ++ leBytes 2 g.fixSoc.toNat ++
    sleBytes 2 g.fixTemp ++ List.replicate 24 0
  body ++ leBytes 4 (crc32 body).toNat

/-- GAUGE_SAVE (R417, R447). -/
def execGaugeSave (b : Fin 4) (s : State) : Out :=
  s.serve b 0x0503 fun rq s =>
    s.checked b (s.lacks b 6) false (rq.payload.length != 0) none fun s =>
      s.unless b [(!s.isOn .gauge || !s.gauge.stateValid, .notReady)] fun s =>
        let s := s.onGauge fun g => { g with saveSeq := g.saveSeq + 1 }
        s.ok b s.gaugeBlock

/-- The reason a block is refused (R418). -/
def Gauge.refuses (p : List Byte) (g : Gauge) : Option Byte :=
  if leAt p 60 4 != (crc32 (slice p 0 60)).toNat then some 1
  else if leAt p 0 2 != 1 || (slice p 36 24).any (· != 0) then some 2
  else if leAt p 4 4 ≤ g.saveSeq.toNat then some 3
  else if leAt p 22 2 != cfgCrc g.cfg || leAt p 2 1 != (if gProf g.cfg then 1 else 0) || leAt p 3 1 != gCells g.cfg then some 4
  else none

/-- An accepted restore (R411, R413, R419). -/
def State.gaugeRestore (p : List Byte) (s : State) : State :=
  let s := s.learnDisq 5
  let s := s.onGauge fun g =>
    { (({ g with qFull := BitVec.ofNat 16 (leAt p 18 2), learnCnt := BitVec.ofNat 16 (leAt p 20 2)
                 saveSeq := BitVec.ofNat 32 (leAt p 4 4), dchgTotal := BitVec.ofNat 32 (leAt p 24 4) } : Gauge).anchor
        (BitVec.ofNat 16 (leAt p 16 2)) g.acc) with restored := true }
  s.socLevels

/-- GAUGE_RESTORE (R418, R419, R427, R447). -/
def execGaugeRestore (b : Fin 4) (s : State) : Out :=
  s.serve b 0x0504 fun rq s =>
    s.checked b (s.lacks b 6) false (rq.payload.length != 64) none fun s =>
      s.unless b [(!s.isOn .gauge, .notReady)] fun s =>
        match s.gauge.refuses rq.payload with
        | some r => s.answer b .restoreRejected [r]
        | none => (s.gaugeRestore rq.payload).ok b []

end Sys2Proof.Machine
end

