-- ==== Sys2Proof/Machine/CmdLog.lean ====
section
/-! DEFINITION. The commands of groups 0x06 and 0x07: the Log engine's blocks, calibrations and totals, wire-to-water and
fluid properties (R355, R383, R389, R390, R393 to R396, R429 to R431, R448 to R455). -/

namespace Sys2Proof.Machine

/-! ## What the commands share -/

/-- The path a request names; none without a path byte or with one above 1 (R448). -/
def pathOf (p : List Byte) : Option Path :=
  match p with
  | 0 :: _ => some .a
  | 1 :: _ => some .b
  | _ => none

/-- The berth lacks the right of the path named; a request that names no path is judged by its length and its path byte. -/
def State.lacksPath (s : State) (b : Fin 4) (p : List Byte) : Bool :=
  match pathOf p with
  | some x => s.lacks b (pathNo x)
  | none => false

/-- The path byte is above 1: offset 0; else the offence of what follows it (R427, R448). -/
def pathBad (p : List Byte) (rest : Option Nat) : Option Nat := if (pathOf p).isNone then some 0 else shiftBad 1 rest

/-- A command of one path: checks 8 and 9, then `f` on that path. -/
def State.pathCmd (b : Fin 4) (cmd : Half) (need : Bool) (sealedItem : Request → State → Bool) (len : Nat)
    (bad : List Byte → Option Nat) (f : Path → Request → State → State) (s : State) : Out :=
  s.serve b cmd fun rq s =>
    let p := rq.payload
    s.checked b (need && s.lacksPath b p) (sealedItem rq s) (p.length != len) (pathBad p (bad (p.drop 1))) fun s =>
      match pathOf p with
      | some x => f x rq s
      | none => s

/-- A command of one path that only reads. -/
def State.pathRead (b : Fin 4) (cmd : Half) (f : Path → State → List Byte) (s : State) : Out :=
  s.pathCmd b cmd false (fun _ _ => false) 1 (fun _ => none) (fun x _ s => s.ok b (f x s))

/-- A sealed item (R258, R389). -/
def sealedItem (b : Fin 4) : Request → State → Bool := fun _ s => s.isSealed b

/-- A calibration of this berth runs on the path (R453). -/
def State.calBusy (s : State) (b : Fin 4) (x : Path) : Bool :=
  match s.log.cal with
  | some c => c.path == x && c.berth == b
  | none => false

/-- A calibration of this berth runs on one of the inputs (R453). -/
def State.calBusyInputs (s : State) (b : Fin 4) (ins : List (Fin 4)) : Bool :=
  match s.log.cal with
  | some c => c.berth == b && ins.any fun n => s.calInputs.contains n
  | none => false

/-- Log time a path's blocks declare, in TDC LSB per second (R431). -/
def pathSchedule (t : PathSt) : Nat := bitsAt t.flow 24 7 0 * acqShots t.acq * samplesTime (acqSamples t.acq)

/-- The declared schedule of a berth in TDC LSB per second, times RTD_INT of the block (R431). DEDUCED (log 38): a berth with no
enabled input of its own declares no conversions. -/
def State.schedule (s : State) (b : Fin 4) (la lb : PathSt) (rtd : List Byte) : Nat :=
  let paths := (if s.holds b 0 then pathSchedule la else 0) + (if s.holds b 1 then pathSchedule lb else 0)
  let ins := ((rtdInputs rtd).filter fun n => s.holds b (2 + n.val)).length
  paths * rtdInt rtd + (if ins = 0 then 0 else (ins + 2) * rtdTime none)

/-- The declared schedule would pass LOG_QUOTA (R251, R431). -/
def State.overQuota (s : State) (b : Fin 4) (la lb : PathSt) (rtd : List Byte) : Bool :=
  s.quotaTime b * rtdInt rtd < s.schedule b la lb rtd

/-- The same with one path's state replaced. -/
def State.overQuotaWith (s : State) (b : Fin 4) (x : Path) (t : PathSt) : Bool :=
  match x with
  | .a => s.overQuota b t s.log.b s.log.rtdBlk
  | .b => s.overQuota b s.log.a t s.log.rtdBlk

/-- The MEM_M allocation of a berth in KiB with one path's state replaced would pass MEM_QUOTA (R251, R431). -/
def State.overMem (s : State) (b : Fin 4) (x : Path) (t : PathSt) : Bool :=
  let other := match x with | .a => Path.b | .b => Path.a
  let k := (if t.configured then 4 else 0) +
    (if s.holds b (pathNo other) && (s.log.path other).configured then 4 else 0)
  (s.entry b).memQuota.toNat < k

/-- The conditions of a block write, lasting refusals first (R429, R431, R453; log 36). -/
def State.writeConds (s : State) (b : Fin 4) (x : Path) (t : PathSt) : List (Bool × Status) :=
  [(s.overQuotaWith b x t || s.overMem b x t, .outOfQuota), (s.calBusy b x, .busy), (s.flashHeld b, .resourceHeld)]

/-- Accept a path's new state: a path that becomes configured has its first sounding due; the image is written, and the
command waits for it (R297). -/
def State.acceptPath (b : Fin 4) (x : Path) (t : PathSt) (f : PathItems → PathItems) (s : State) : State :=
  let fresh := t.configured && !(s.log.path x).configured
  let t := if fresh then t.dueNow s.trim.raw else t
  let s := (s.need .memM).onPath x fun _ => t
  (s.memUsed.storeWrite b true none (StoreImage.onPath x f)).waits b

/-! ## Blocks (R355, R393 to R396, R448) -/

/-- DELIVER set apart, a block equals the present one (R448). -/
def sameButDeliver (a c : List Byte) : Bool := a.set 26 0 == c.set 26 0

/-- ACQ_WRITE is a sealed item unless it changes DELIVER only (R448). -/
def acqSealed (b : Fin 4) (rq : Request) (s : State) : Bool :=
  s.isSealed b && !(match pathOf rq.payload with
    | some x => rq.payload.length == 33 && sameButDeliver (rq.payload.drop 1) (s.log.path x).acq
    | none => false)

/-- A path with a new acquisition block: a change of a firing field clears the calibration, and PGA is the gain of the next
sounding (R324, R344, R450). -/
def PathSt.withAcq (blk : List Byte) (t : PathSt) : PathSt :=
  let fires := acqFiring blk != acqFiring t.acq
  let t := if fires then t.clearCal else t
  { t with acq := blk, acqOk := true, gain := acqPga blk }

/-- ACQ_WRITE (R297, R336, R355, R429, R431, R448, R450, R453). -/
def execAcqWrite (b : Fin 4) (s : State) : Out :=
  s.pathCmd b 0x0600 true (acqSealed b) 33 acqBad (fun x rq s =>
    let blk := rq.payload.drop 1
    let old := s.log.path x
    let t := old.withAcq blk
    let fires := acqFiring blk != acqFiring old.acq
    s.unless b (s.writeConds b x t) (State.acceptPath b x t fun i =>
      { i with acq := some ⟨b, blk⟩, template := if fires then none else i.template, leeway := if fires then none else i.leeway }))

/-- ACQ_READ (R448). -/
def execAcqRead (b : Fin 4) (s : State) : Out :=
  s.pathRead b 0x0601 (fun x s =>
    let t := s.log.path x
    slice t.acq 0 32 ++ [BitVec.ofNat 8 t.portA.val, BitVec.ofNat 8 t.portB.val])

/-- A path with a new flow block: a change clears the history, and the next sounding credits nothing (R364, R368). -/
def PathSt.withFlow (blk : List Byte) (t : PathSt) : PathSt :=
  if t.flowOk ∧ blk = t.flow then t
  else { t with flow := blk, flowOk := true, history := [], tPrev := none, spans := [] }

/-- The block as it is kept: LEEWAY is ignored on write (R428). -/
def flowKept (blk : List Byte) : List Byte := flowBytes blk 0

/-- FLOW_WRITE (R297, R383, R393, R429, R431, R448, R453). -/
def execFlowWrite (b : Fin 4) (s : State) : Out :=
  s.serve b 0x0602 fun rq s =>
    let p := rq.payload
    let blk := flowKept (p.drop 1)
    let denied := s.lacksPath b p ||
      (p.length == 49 && (pathOf p).isSome && (flowInputs blk).any fun n => s.lacks b (2 + n.val))
    s.checked b denied (s.isSealed b) (p.length != 49) (pathBad p (flowBad (p.drop 1))) fun s =>
      match pathOf p with
      | none => s
      | some x =>
        let t := (s.log.path x).withFlow blk
        s.unless b (s.writeConds b x t) (State.acceptPath b x t fun i => { i with flow := some ⟨b, blk⟩ })

/-- FLOW_READ (R393, R448). -/
def execFlowRead (b : Fin 4) (s : State) : Out :=
  s.pathRead b 0x0603 (fun x s => flowBytes (s.log.path x).flow (s.log.path x).leeway)

/-- The inputs whose rights an RTD_WRITE needs (R449). -/
def rtdNeeds (old new : List Byte) : List (Fin 4) :=
  let shared := rtdRef old != rtdRef new || rtdInt old != rtdInt new || leAt old 7 1 != leAt new 7 1
  (List.finRange 4).filter fun n =>
    rtdEn old n.val != rtdEn new n.val || rtdType old n.val != rtdType new n.val || rtdOffset old n.val != rtdOffset new n.val ||
      (shared && (rtdEn old n.val || rtdEn new n.val))

/-- RTD_WRITE (R297, R394, R429, R431, R448, R449, R453). -/
def execRtdWrite (b : Fin 4) (s : State) : Out :=
  s.serve b 0x0604 fun rq s =>
    let p := rq.payload
    let denied := p.length == 16 && (rtdNeeds s.log.rtdBlk p).any fun n => s.lacks b (2 + n.val)
    s.checked b denied (s.isSealed b) (p.length != 16) (rtdBad p) fun s =>
      s.unless b [(s.overQuota b s.log.a s.log.b p, .outOfQuota), (s.calBusyInputs b (rtdNeeds s.log.rtdBlk p), .busy),
          (s.flashHeld b, .resourceHeld)] fun s =>
        ((s.onLog fun l => { l with rtdBlk := p, rtdOwner := some b }).storeWrite b true none fun i =>
          { i with rtd := some ⟨b, p⟩ }).waits b

/-- RTD_READ (R448). -/
def execRtdRead (b : Fin 4) (s : State) : Out :=
  s.serve b 0x0605 fun rq s => s.checked b false false (rq.payload.length != 0) none fun s => s.ok b (slice s.log.rtdBlk 0 16)

/-- CARD_WRITE (R297, R395, R429, R448, R453). -/
def execCardWrite (b : Fin 4) (s : State) : Out :=
  s.pathCmd b 0x0606 true (sealedItem b) 73 cardBad (fun x rq s =>
    let blk := rq.payload.drop 1
    s.unless b [(s.calBusy b x, .busy), (s.flashHeld b, .resourceHeld)]
      (State.acceptPath b x { s.log.path x with card := blk } fun i => { i with card := some ⟨b, blk⟩ }))

/-- CARD_READ (R448). -/
def execCardRead (b : Fin 4) (s : State) : Out := s.pathRead b 0x0607 (fun x s => slice (s.log.path x).card 0 72)

/-- FLUID_WRITE (R297, R396, R429, R448, R453). -/
def execFluidWrite (b : Fin 4) (s : State) : Out :=
  s.pathCmd b 0x0608 true (sealedItem b) 53 fluidBad (fun x rq s =>
    let blk := rq.payload.drop 1
    s.unless b [(s.calBusy b x, .busy), (s.flashHeld b, .resourceHeld)]
      (State.acceptPath b x { s.log.path x with fluid := blk } fun i => { i with fluid := some ⟨b, blk⟩ }))

/-- FLUID_READ (R448). -/
def execFluidRead (b : Fin 4) (s : State) : Out := s.pathRead b 0x0609 (fun x s => slice (s.log.path x).fluid 0 52)

/-- The offence of a port pair of its own: a port above 3 (R448). -/
def portsBad (p : List Byte) : Option Nat := if 3 < leAt p 0 1 then some 0 else if 3 < leAt p 1 1 then some 1 else none

/-- The ports are equal, or the pair is the other path's in either order (R316, R450). -/
def State.portsClash (s : State) (x : Path) (a c : Fin 4) : Bool :=
  let o := s.log.path (match x with | .a => .b | .b => .a)
  a == c || (o.portA == a && o.portB == c) || (o.portA == c && o.portB == a)

/-- PATH_PORTS (R297, R316, R429, R450, R453). -/
def execPathPorts (b : Fin 4) (s : State) : Out :=
  s.pathCmd b 0x060A true (sealedItem b) 3 portsBad (fun x rq s =>
    let p := rq.payload
    let pa : Fin 4 := Fin.ofNat 4 (leAt p 1 1)
    let pb : Fin 4 := Fin.ofNat 4 (leAt p 2 1)
    if s.portsClash x pa pb then s.answer b .badParam [0xFF]
    else
      let t := s.log.path x
      let moved := t.portA != pa || t.portB != pb
      let t' := { (if moved then t.clearCal else t) with portA := pa, portB := pb }
      s.unless b [(s.calBusy b x, .busy), (s.flashHeld b, .resourceHeld)] (State.acceptPath b x t' fun i =>
        { i with ports := some ⟨b, p.drop 1⟩, template := if moved then none else i.template
                 leeway := if moved then none else i.leeway }))

/-! ## Calibrations (R343, R365, R429, R451) -/

/-- A calibration runs: of this berth, or of another (R429). -/
def State.calConds (s : State) (b : Fin 4) : List (Bool × Status) :=
  match s.log.cal with
  | some c => [(c.berth == b, .busy), (c.berth != b, .resourceHeld)]
  | none => []

/-- ARRIVAL_LEARN (R343, R429, R430, R451): answered at acceptance. -/
def execArrivalLearn (b : Fin 4) (s : State) : Out :=
  s.pathCmd b 0x060B true (sealedItem b) 1 (fun _ => none) (fun x _ s =>
    s.unless b ((!(s.log.path x).acqOk, .notReady) :: s.calConds b) fun s =>
      (((s.onLog fun l => { l with cal := some { kind := .learn, path := x, berth := b } }).need .log).startNext).ok b [])

/-- LEEWAY_CAL (R365, R429, R430, R451): the path's schedule is suspended. -/
def execLeewayCal (b : Fin 4) (s : State) : Out :=
  s.pathCmd b 0x060C true (sealedItem b) 1 (fun _ => none) (fun x _ s =>
    let t := s.log.path x
    s.unless b ((t.template.isNone || !t.flowOk, .notReady) :: s.calConds b) fun s =>
      let s := s.onLog fun l => { l with cal := some { kind := .leeway, path := x, berth := b } }
      let raw := s.trim.raw
      ((s.onPath x fun t => { t.dueNow raw with due := false, delayed := false }).need .log).ok b [])

/-- The eight bytes of CAL_RESULT (R451). -/
def CalOutcome.bytes (o : CalOutcome) : List Byte :=
  [match o.kind with | .learn => (1 : Byte) | .leeway => 2] ++ natField 2 o.valid ++ intField 4 o.value ++ [0]

/-- CAL_RESULT (R427, R451). -/
def execCalResult (b : Fin 4) (s : State) : Out :=
  s.pathCmd b 0x060D false (fun _ _ => false) 1 (fun _ => none) (fun x _ s =>
    if (s.log.cal.map fun c => c.path == x).getD false then s.answer b .busy []
    else match (s.log.path x).lastCal with
      | none => s.answer b .notReady []
      | some o => s.answer b (if o.stored then .ok else .calRejected) o.bytes)

/-! ## Totals (R368, R448, R452) -/

/-- TOTALS_READ (R430, R448): the totals live in MEM_M. -/
def execTotalsRead (b : Fin 4) (s : State) : Out :=
  s.pathCmd b 0x060E false (fun _ _ => false) 1 (fun _ => none) (fun x _ s =>
    let s := s.need .memM
    s.ok b <|
    let t := (s.log.path x).totals
    leBytes 8 t.volFwd.val ++ leBytes 8 t.volRev.val ++ leBytes 8 t.eHeat.val ++ leBytes 8 t.eCool.val ++
      leBytes 4 t.missFlow.val ++ leBytes 4 t.missHeat.val ++ leBytes 8 s.cal.stamp.toNat)

/-- TOTALS_RESET (R389, R429, R452): answered once the zero totals are durable. DESIGN CHOICE (log 54). -/
def execTotalsReset (b : Fin 4) (s : State) : Out :=
  s.pathCmd b 0x060F true (sealedItem b) 1 (fun _ => none) (fun x _ s =>
    s.unless b [(s.flashHeld b, .resourceHeld)] fun s =>
      let s := (s.need .memM).onPath x fun t => { t with totals := {}, tPrev := none, spans := [], missFrom := none }
      (s.totalsEntry 0x01 x).waits b)

/-! ## Wire-to-water and fluid properties (R390, R454, R455) -/

/-- Edges of a span that lie in [lo, hi). -/
def Span.within (lo hi : Nat) (x : Span) : Nat := min hi x.toEdge - max lo x.fromEdge

/-- Q̄ in µL/s: the time-weighted mean of the credited Q over the `n` edges that end at the edge `now`, when the command is
taken; none if any part of them is missing flow time, or none of them is credited yet (R390). DEDUCED (log 39): the time since
the last sounding instant is neither, until the next one credits it. -/
def PathSt.meanFlow (now n : Nat) (t : PathSt) : Option Rat :=
  match t.tPrev with
  | none => none
  | some last =>
    let lo := now - n
    let parts := t.spans.map fun x => (x.q, x.within lo now)
    let m := last.edge - lo
    if 0 < m ∧ n ≤ now ∧ (parts.map (·.2)).sum = m ∧ parts.all (fun x => x.1.isSome || x.2 == 0) then
      some (mkRat ((parts.map fun x => x.1.getD 0 * (x.2 : Int)).sum) m)
    else none

/-- P_HYD in mW (R390). -/
def hydraulic (rho : Rat) (h : Int) (q : Rat) : Rat := rho * (980665 / 100000) * h * q / 1000000000

/-- The first offending byte of a W2W request, its path byte apart (R428, R454). -/
def w2wBad (p : List Byte) : Option Nat :=
  if leAt p 0 1 = 0 ∨ 60 < leAt p 0 1 then some 0 else if p.getD 1 0 != 0 then some 1 else if p.getD 2 0 != 0 then some 2
  else if leAt p 3 4 = 0 then some 3 else none

/-- W2W (R267, R390, R392, R430, R432, R454, R455): the credited flow lives in MEM_M. -/
def execW2w (b : Fin 4) (s : State) : Out :=
  s.pathCmd b 0x0700 false (fun _ _ => false) 12 w2wBad (fun x rq s =>
    let p := rq.payload
    let t := s.log.path x
    let pel := leAt p 4 4
    let h := sleAt p 8 4
    let s := s.need .memM
    match t.configured, t.meanFlow s.trim.raw (leAt p 1 1 * 32768), fluidAt t.flow t.fluid (s.meterTemp x t.flow).1 with
    | true, some q, some f =>
      let w := hydraulic f.rho h q
      let eta := roundRat (w / pel * 10000)
      if 32767 < eta.natAbs then s.answer b .badParam [0xFF]
      else
        let body := intField 4 (roundRat w) ++ sleBytes 2 eta ++ intField 4 (roundRat q)
        let s := s.when (rq.flags.getLsbD 2) fun s =>
          s.record b s.cal.stamp 0x15 (BitVec.ofNat 8 (pathNo x)) 0
            (leBytes 4 pel ++ body ++ sleBytes 4 h ++ [p.getD 1 0])
        s.ok b body
    | _, _, _ => s.answer b .notReady [])

/-- FLUID_PROPS (R379, R380, R454, R455). -/
def execFluidProps (b : Fin 4) (s : State) : Out :=
  s.pathCmd b 0x0701 false (fun _ _ => false) 4 (fun p => reservedBad p [0]) (fun x rq s =>
    let t := s.log.path x
    match (fluidAt t.flow t.fluid (mkRat (sleAt rq.payload 2 2) 100)).bind fun f => f.mu.map fun mu => (f, mu) with
    | none => s.answer b .badParam [2]
    | some (f, mu) =>
      s.ok b (natField 2 (roundRat (10 * f.rho)).toNat ++ natField 2 (roundRat f.cp).toNat ++ intField 4 (roundRat f.h) ++
        natField 4 (roundRat (mu * 1000000)).toNat))

end Sys2Proof.Machine
end

