-- ==== Sys2Proof/Machine/CmdPolicy.lean ====
section
/-! DEFINITION. The commands of groups 0x03 and 0x04: domain and wake policy, the converter, time and trim (R441 to
R446). -/

namespace Sys2Proof.Machine

/-! ## Domain and wake policy (R441, R442) -/

/-- The first offending byte of a PD_POLICY request: a domain field of 0b10 or 0b11, or a reserved bit (R428, R441). -/
def pdBad (p : List Byte) : Option Nat :=
  if (p.getD 0 0) &&& 0xAA != 0 then some 0 else if (p.getD 1 0) &&& 0xFA != 0 then some 1
  else if (p.getD 8 0) &&& 0xF8 != 0 then some 8 else none

/-- Bring ON the domains a HOLD_ON mask keeps (R442). DEDUCED (log 44). -/
def State.holdDomains (v : BitVec 3) (s : State) : State :=
  let s := s.when (v.getLsbD 0) (State.need .memM)
  let s := s.when (v.getLsbD 1) (State.need .gauge)
  s.when (v.getLsbD 2) (State.need .pwr)

/-- PD_POLICY (R441, R442). -/
def execPdPolicy (b : Fin 4) (s : State) : Out :=
  s.serve b 0x0300 fun rq s =>
    let p := rq.payload
    s.checked b (s.lacks b 13) false (p.length != 9) (pdBad p) fun s =>
      let hold : BitVec 3 := (p.getD 8 0).setWidth 3
      (((s.onDom fun d => { d with pdLow := BitVec.ofNat 12 (leAt p 0 2), idle := Vector.ofFn fun k : Fin 6 => p.getD (2 + k.val) 0 }).onBerth b
        fun k => { k with holdOn := hold }).holdDomains hold).ok b []

/-- The first offending byte of a WAKE_POLICY request (R428, R441). -/
def wakeBad (p : List Byte) : Option Nat :=
  if (p.getD 1 0) &&& 0xF0 != 0 then some 1 else if (p.getD 14 0) &&& 0xFC != 0 then some 14 else none

/-- A 96-bit mask from its twelve bytes. -/
def mask96 (p : List Byte) (off : Nat) : BitVec 96 := BitVec.ofNat 96 (leAt p off 12)

/-- WAKE_POLICY (R441, R442). -/
def execWakePolicy (b : Fin 4) (s : State) : Out :=
  s.serve b 0x0301 fun rq s =>
    let p := rq.payload
    s.checked b (s.lacks b 13) false (p.length != 15) (wakeBad p) fun s =>
      let s := (s.need .hif).onDom fun d => { d with wakeEn := (d.wakeEn &&& 0xFFFFF000) ||| BitVec.ofNat 32 (leAt p 0 2) }
      let s := s.onEv fun e => { e with wakeEn := mask96 p 2 }
      (s.onEv fun e => { e with irqModeA := bitAt p 14 0, irqModeB := bitAt p 14 1 }).onFw (fun f =>
        { f with hifSave := f.hifSave.map fun k => { k with irqModeA := bitAt p 14 0, irqModeB := bitAt p 14 1 } }) |>.ok b []

/-- The union of the berths' HOLD_ON masks (R441). -/
def State.holdUnion (s : State) : BitVec 3 := (List.finRange 4).foldl (fun v n => v ||| (s.berth n).holdOn) 0

/-- POLICY_GET (R441). -/
def execPolicyGet (b : Fin 4) (s : State) : Out :=
  s.serve b 0x0303 fun rq s =>
    s.checked b false false (rq.payload.length != 0) none fun s =>
      s.ok b (leBytes 2 s.dom.pdLow.toNat ++ s.dom.idle.toList ++ [s.holdUnion.setWidth 8] ++
        leBytes 2 (s.dom.wakeEn.toNat % 0x1000) ++ leBytes 12 s.ev.wakeEn.toNat ++ [byteOf [s.ev.irqModeA, s.ev.irqModeB]])

/-! ## The converter (R443) -/

/-- CONV_CTL with the given action, which the two rows share; an action above 1 is answered BAD_PARAM by either. -/
def State.convCtl (b : Fin 4) (action : Nat) (f : Link → Link) (s : State) : Out :=
  s.serve b 0x0302 fun rq s =>
    let a := leAt rq.payload 0 1
    if rq.payload.length = 1 ∧ a < 2 ∧ a ≠ action then s
    else
      s.checked b (s.lacks b 13) false (rq.payload.length != 1) (if 1 < a then some 0 else none) fun s =>
        s.unless b [(!s.isOn .pwr || s.link.state != .up, .notReady)] fun s => (s.onLink f).ok b []

/-- CONV_CTL_STOP (R52, R53, R64, R443). -/
def execConvCtlStop (b : Fin 4) (s : State) : Out := s.convCtl b 0 fun l => { l.sendStop with stopHost := true }

/-- CONV_CTL_RESTART (R443): a stop for VAUX stays in force (R50). -/
def execConvCtlRestart (b : Fin 4) (s : State) : Out :=
  s.convCtl b 1 fun l => { l with stopHost := false, regMode := if l.stopVaux then .softStop else .run }

/-! ## Time (R444, R445) -/

/-- COMMIT_PEND or SHIFT_PEND is 1 (R131, R445). -/
def Cal.busy (c : Cal) : Bool := c.commit.isSome || c.shift.isSome

/-- TIME_SET (R126, R127, R445): the response waits for the load. -/
def execTimeSet (b : Fin 4) (s : State) : Out :=
  s.serve b 0x0400 fun rq s =>
    let p := rq.payload
    let mode := leAt p 0 1
    s.checked b (s.lacks b 8) false (p.length != 8) (if mode = 1 ∨ mode = 2 then none else some 0) fun s =>
      s.unless b [(s.cal.busy, .busy)] fun s =>
        let s := s.onCal fun c => { c with
          secS := p.getD 1 0, minS := p.getD 2 0, hourS := p.getD 3 0, dayS := p.getD 4 0, monthS := p.getD 5 0
          yearS := p.getD 6 0, centS := p.getD 7 0 }
        let ok := s.cal.stagedOk
        let s := s.calCmd (p.getD 0 0)
        if ok then s.waits b else s.answer b .badParam [0xFF]

/-- TIME_SHIFT (R130, R131, R445): the response waits for SHIFT_PEND to clear. -/
def execTimeShift (b : Fin 4) (s : State) : Out :=
  s.serve b 0x0401 fun rq s =>
    s.checked b (s.lacks b 8) false (rq.payload.length != 2) none fun s =>
      s.unless b [(s.cal.busy, .busy)] fun s => (s.shiftCmd (BitVec.ofNat 16 (leAt rq.payload 0 2))).waits b

/-! ## Trim (R444, R446) -/

/-- The first offending byte of a TRIM_POLICY request (R428, R444). -/
def trimBad (p : List Byte) : Option Nat :=
  if 2 < leAt p 0 1 then some 0 else if (p.getD 1 0) &&& 0xF0 != 0 then some 1 else none

/-- TRIM_POLICY (R297, R429, R446): applied at once, answered when the image is durable. -/
def execTrimPolicy (b : Fin 4) (s : State) : Out :=
  s.serve b 0x0402 fun rq s =>
    let p := rq.payload
    s.checked b (s.lacks b 8) false (p.length != 3) (trimBad p) fun s =>
      s.unless b [(s.flashHeld b, .resourceHeld)] fun s =>
        let s := s.onFw fun f => { f with trimPolicy := p, trimRestart := false }
        ((s.applyTrim p).storeWrite b true none fun i => { i with trim := some ⟨b, p⟩ }).waits b

/-- TRIM_GET (R444). DESIGN CHOICE (log 56). -/
def execTrimGet (b : Fin 4) (s : State) : Out :=
  s.serve b 0x0403 fun rq s =>
    s.checked b false false (rq.payload.length != 0) none fun s => s.ok b (slice s.fw.trimPolicy 0 3)

end Sys2Proof.Machine
end

