-- ==== Sys2Proof/Machine/CmdSystem.lean ====
section
/-! DEFINITION. The commands of groups 0x01 and 0x02: system, routing, the logbook and charters (R252 to R262, R433 to
R440). -/

namespace Sys2Proof.Machine

/-! ## System (R433 to R436) -/

/-- A command that is open and takes no payload: LEN is checked, and the answer is a function of the state. -/
def State.openRead (b : Fin 4) (rq : Request) (rest : State → List Byte) (s : State) : State :=
  s.checked b false false (rq.payload.length != 0) none fun s => s.ok b (rest s)

/-- NOP (R433). -/
def execNop (b : Fin 4) (s : State) : Out := s.serve b 0x0100 fun rq s => s.openRead b rq fun _ => []

/-- VERSION (R433); DEVID and REV as R206 gives them. -/
def execVersion (b : Fin 4) (s : State) : Out :=
  s.serve b 0x0101 fun rq s => s.openRead b rq fun s =>
    let k := s.flash.active
    slice k.release 0 4 ++ leBytes 2 k.secVer.toNat ++
      [if s.flash.activeB then 1 else 0, if s.fw.probation then 1 else 0, 0x20, 0x46, 0xB1]

/-- The SERIAL of a committed charter that awaits activation, or 0 (R433). -/
def Firmware.pendSerial (f : Firmware) : Word := (f.committed.map (·.serial)).getD 0

/-- STATUS (R433). -/
def execStatus (b : Fin 4) (s : State) : Out :=
  s.serve b 0x0102 fun rq s => s.openRead b rq fun s =>
    [BitVec.ofNat 8 b.val] ++ leBytes 4 s.flash.auditCtr.toNat ++ leBytes 4 s.fw.charter.serial.toNat ++
      leBytes 4 s.fw.pendSerial.toNat ++ [byteOf ((List.finRange 4).map s.isSealed)] ++
      leBytes 2 (s.entry b).rights.toNat ++ [s.dom.rstCause.setWidth 8, if s.fw.isDefault then 1 else 0]

/-- RESET (R384, R434, R488): the answer waits for the totals entries, then a reset is scheduled. -/
def execReset (b : Fin 4) (s : State) : Out :=
  s.serve b 0x0103 fun rq s =>
    s.checked b (s.lacks b 13) false (rq.payload.length != 1) (if rq.payload.getD 0 0 = 0xA5 then none else some 0) fun s =>
      (((s.saveTotals 0x01).waits b).onFw fun f => { f with resetWait := some b }).answerTotals

/-- The events that ROUTE_SET may route: all but EV48 to EV63 (R308, R435). -/
def routable (e : Nat) : Bool := !(48 ≤ e && e < 64)

/-- ROUTE with a berth's mask in place (R435). -/
def routeSet (route : Vector (BitVec 4) 96) (n : Fin 4) (mask : List Byte) : Vector (BitVec 4) 96 :=
  Vector.ofFn fun e : Fin 96 =>
    let old := route[e]
    if routable e.val then (old &&& ~~~(1#4 <<< n.val)) ||| (if bitAt mask (e.val / 8) (e.val % 8) then 1#4 <<< n.val else 0)
    else old

/-- IRQ_SEL with a berth's field in place (R310, R435). -/
def irqSelSet (sel : Byte) (n : Fin 4) (v : Nat) : Byte :=
  (sel &&& ~~~(3#8 <<< (2 * n.val))) ||| BitVec.ofNat 8 (v % 4 * 4 ^ n.val)

/-- Change the event controller, and the copy that firmware restores it from while HIF is not ON (R168, R430). -/
def State.onCtl (f : HifSave → HifSave) (s : State) : State :=
  let s := s.onFw fun x => { x with hifSave := x.hifSave.map f }
  s.onEv fun e =>
    let k := f e.save
    { e with route := k.route, irqModeA := k.irqModeA, irqModeB := k.irqModeB, irqSel := k.irqSel }

/-- ROUTE_SET (R308, R430, R435). -/
def execRouteSet (b : Fin 4) (s : State) : Out :=
  s.serve b 0x0104 fun rq s =>
    let p := rq.payload
    s.checked b false false (p.length != 13) (if 3 < (p.getD 12 0).toNat then some 12 else none) fun s =>
      ((s.need .hif).onCtl fun k =>
        { k with route := routeSet k.route b p, irqSel := irqSelSet k.irqSel b (leAt p 12 1) }).ok b []

/-- The mask of a berth as ROUTE_GET shows it (R433, R435). -/
def routeMask (route : Vector (BitVec 4) 96) (n : Fin 4) : List Byte :=
  (List.range 12).map fun k => byteOf ((List.range 8).map fun j => (route.toList.getD (8 * k + j) 0).getLsbD n.val)

/-- ROUTE_GET (R433). -/
def execRouteGet (b : Fin 4) (s : State) : Out :=
  s.serve b 0x0105 fun rq s => s.openRead b rq fun s => routeMask s.ev.route b ++ [BitVec.ofNat 8 (s.irqSelOf b)]

/-- An entry a berth may read: an audit entry, or a totals entry that names it (R295). -/
def LogEntry.readable (b : Fin 4) (e : LogEntry) : Bool := !e.isTotals || e.berth.toNat == b.val

/-- LOG_READ (R436). -/
def execLogRead (b : Fin 4) (s : State) : Out :=
  s.serve b 0x0106 fun rq s =>
    let p := rq.payload
    let n := leAt p 4 1
    s.checked b false false (p.length != 5) (if n = 0 ∨ 3 < n then some 4 else none) fun s =>
      let es := (s.flash.logbook.filter fun e => leAt p 0 4 ≤ e.eseq.toNat && e.readable b).take n
      s.ok b ([BitVec.ofNat 8 es.length, 0, 0] ++ es.flatMap LogEntry.bytes)

/-! ## Charters (R248, R252, R257, R437 to R440) -/

/-- The key check value in KEY's place (R257). -/
def keyCheck (key : List Byte) : List Byte :=
  (if noKey key then [0, 0, 0, 0] else (hmac key (List.replicate 8 0)).take 4) ++ List.replicate 28 0

/-- An entry's 64 bytes with KEY replaced (R248, R257). -/
def Entry.shown (e : Entry) : List Byte := e.bytes (keyCheck e.key)

/-- The copy that CHARTER_READ names: SERIAL and entries. The staged charter shows the active SERIAL (log 37). -/
def Firmware.copy (f : Firmware) (k : Nat) : Option (Word × Vector Entry 4) :=
  match k with
  | 0 => some (f.charter.serial, f.charter.entries)
  | 1 => f.committed.map fun c => (c.serial, c.entries)
  | _ => f.staged.map fun x => (f.charter.serial, x.entries)

/-- CHARTER_READ (R257, R437, R439). -/
def execCharterRead (b : Fin 4) (s : State) : Out :=
  s.serve b 0x0200 fun rq s =>
    let p := rq.payload
    let bad := if 2 < leAt p 0 1 then some 0 else if 3 < leAt p 1 1 then some 1 else none
    s.checked b false false (p.length != 2) bad fun s =>
      match s.fw.copy (leAt p 0 1) with
      | none => s.answer b .notReady []
      | some (serial, es) =>
        let n : Fin 4 := Fin.ofNat 4 (leAt p 1 1)
        s.ok b (leBytes 4 serial.toNat ++ es[n].shown)

/-- The first offending byte of a CHARTER_STAGE request (R249, R252, R428, R437, R438). -/
def stageBad (p : List Byte) : Option Nat :=
  let act := leAt p 3 1
  let zeros := if act = 0 then (List.range 31).map (· + 9) else if act = 1 then [9] else (List.range 29).map (· + 11)
  let bads := (if 3 < leAt p 0 1 then [0] else []) ++ (if 3 < leAt p 1 1 then [1] else []) ++
    (if p.getD 2 0 &&& 0xFD != 0 then [2] else []) ++ (if 2 < act then [3] else []) ++
    (if 0x40 ≤ leAt p 5 1 then [5] else []) ++ (if 1000 < leAt p 6 2 then [6] else []) ++
    (if 48 < leAt p 8 1 then [8] else []) ++ (zeros.filter fun k => p.getD k 0 != 0)
  bads.min?

/-- The staged charter, made from the active one where none is staged (R439). -/
def Firmware.staging (f : Firmware) : Staged := f.staged.getD { entries := f.charter.entries }

/-- The fields a request stages in an entry (R253, R437). -/
def Entry.stage (p : List Byte) (key : List Byte) (e : Entry) : Entry :=
  { e with port := BitVec.ofNat 2 (leAt p 1 1), pecReq := bitAt p 2 1, rights := BitVec.ofNat 16 (leAt p 4 2)
           logQuota := BitVec.ofNat 16 (leAt p 6 2), memQuota := p.getD 8 0, key := key }

/-- Bytes 0 to 8 of a request, the key action apart (R438, log 37). -/
def stageHead (p : List Byte) : List Byte := slice p 0 3 ++ slice p 4 5

/-- CHARTER_STAGE (R253, R438, R439). -/
def execCharterStage (b : Fin 4) (s : State) : Out :=
  s.serve b 0x0201 fun rq s =>
    let p := rq.payload
    let n : Fin 4 := Fin.ofNat 4 (leAt p 0 1)
    s.checked b (s.lacks b 12) (leAt p 0 1 < 4 && s.isSealed n) (p.length != 40) (stageBad p) fun s =>
      let st := s.fw.staging
      let old := st.entries[n]
      let put (key : List Byte) (inc : BitVec 4) (parts : List (Fin 4 × List Byte)) : State :=
        (s.onFw fun f => { f with staged := some { entries := st.entries.set n (old.stage p key), incomplete := inc, parts } }).ok b []
      match leAt p 3 1 with
      | 0 => put old.key st.incomplete st.parts
      | 1 => put (slice p 10 30 ++ [0, 0]) (st.incomplete ||| (1#4 <<< n.val))
          ((n, stageHead p) :: st.parts.filter fun x => x.1 != n)
      | _ =>
        match st.parts.find? fun x => x.1 == n with
        | none => s.answer b .notReady []
        | some (_, head) =>
          if head != stageHead p then s.answer b .badParam [0xFF]
          else put (old.key.take 30 ++ slice p 9 2) (st.incomplete &&& ~~~(1#4 <<< n.val)) (st.parts.filter fun x => x.1 != n)

/-- An exclusive right is held by more than one berth: every right but RTC_WRITE, SYSON and POWER (R249, R252). -/
def shared (es : Vector Entry 4) : Bool :=
  [0, 1, 2, 3, 4, 5, 6, 7, 10, 11, 12].any fun k => 1 < (es.toList.filter fun e => e.rights.getLsbD k).length

/-- The staged charter breaks a rule of R252. -/
def charterBad (es : Vector Entry 4) : Bool :=
  (es.toList.any fun e => e.rights &&& 0xC000 != 0) || shared es ||
    (es.toList.filter fun e => e.rights.getLsbD 12 && e.port != 0b11).length != 1 ||
    decide (1000 < (es.toList.map fun e => e.logQuota.toNat).sum) || decide (48 < (es.toList.map fun e => e.memQuota.toNat).sum)

/-- A sealed berth's entry would change (R252, R439). -/
def sealedChange (active staged : Vector Entry 4) : Bool :=
  (List.finRange 4).any fun n =>
    let a := active[n]
    let e := staged[n]
    a.sealed && !(a.port == e.port && a.pecReq == e.pecReq && a.rights == e.rights && a.logQuota == e.logQuota &&
      a.memQuota == e.memQuota && a.key == e.key)

/-- The entries a commit writes: the staged fields, the sealing of the active charter (R253). -/
def commitEntries (active staged : Vector Entry 4) : Vector Entry 4 :=
  Vector.ofFn fun n : Fin 4 =>
    { staged[n] with sealed := active[n].sealed, sealStamp := active[n].sealStamp, sealAudit := active[n].sealAudit }

/-- The commit itself (R254). -/
def State.commitCharter (b : Fin 4) (es : Vector Entry 4) (s : State) : State :=
  let c : Charter := { serial := s.fw.charter.serial + 1, entries := commitEntries s.fw.charter.entries es }
  let s := (s.writeSpare c).logWrite 6 (BitVec.ofNat 8 b.val) s.cal.stamp (leBytes 4 c.serial.toNat)
  let s := s.onFw fun f => { f with committed := some c, staged := none }
  let s := (List.finRange 4).foldl (fun s n => s.onBerth n fun k => { k with charterPend := true }) s
  ((s.writesFlash b).raise 89).ok b (leBytes 4 c.serial.toNat)

/-- CHARTER_COMMIT (R252 to R254, R429, R438, R439). DEDUCED (log 37): SEALED is judged before BAD_PARAM, as in R273. -/
def execCharterCommit (b : Fin 4) (s : State) : Out :=
  s.serve b 0x0202 fun rq s =>
    s.checked b (s.lacks b 12) false (rq.payload.length != 0) none fun s =>
      match s.fw.staged with
      | none => s.answer b .notReady []
      | some st =>
        if sealedChange s.fw.charter.entries st.entries then s.answer b .sealed []
        else if charterBad st.entries then s.answer b .badParam [0xFF]
        else s.unless b [(st.incomplete != 0, .notReady), (s.flashHeld b, .resourceHeld)] (State.commitCharter b st.entries)

/-- CHARTER_DISCARD (R437, R439). -/
def execCharterDiscard (b : Fin 4) (s : State) : Out :=
  s.serve b 0x0203 fun rq s =>
    s.checked b (s.lacks b 12) false (rq.payload.length != 0) none fun s => (s.onFw fun f => { f with staged := none }).ok b []

/-- SEAL (R259, R440): its SEAL entry, then the sealed copy and the answer once that entry is durable.
DEDUCED (log 52). -/
def execSeal (b : Fin 4) (s : State) : Out :=
  s.serve b 0x0204 fun rq s =>
    let e := s.entry b
    s.checked b false (s.isSealed b) (rq.payload.length != 0) (if e.port = 0b11 ∨ noKey e.key then some 0xFF else none) fun s =>
      if !rq.mac then s.macFail b true
      else
        s.unless b [(s.fw.committed.isSome, .notReady), (s.flashHeld b, .resourceHeld)] fun s =>
          (s.logWrite 3 (BitVec.ofNat 8 b.val) s.cal.stamp (leBytes 4 s.flash.auditCtr.toNat)).waits b

/-- A calibration that runs on a path or an input of the berth is aborted: it stores nothing (R440). -/
def State.abortCal (n : Fin 4) (s : State) : State :=
  match s.log.cal with
  | some c =>
    if s.pathHolder c.path = some n || s.calInputs.any fun k => s.holds n (2 + k.val) then
      match c.kind with
      | .learn => (s.calEnds c.path ⟨.learn, false, c.learned.length, 0⟩).onLog fun l =>
          { l.settlePorts with cur := l.cur.filter fun x => x.cal != some .learn }
      | .leeway => s.leewayEnds c true
    else s
  | none => s

/-- UNSEAL (R260, R263, R440): AUDIT_CTR and UNSEAL_BEGIN, the other steps as each write becomes durable. -/
def execUnseal (b : Fin 4) (s : State) : Out :=
  s.serve b 0x0205 fun rq s =>
    let t := leAt rq.payload 0 1
    let n : Fin 4 := Fin.ofNat 4 t
    let own := t == b.val
    s.checked b (if own then !rq.mac else s.lacks b 12) false (rq.payload.length != 1)
      (if 3 < t ∨ s.isSealed n = false then some 0 else none) fun s =>
      s.unless b [(s.fw.committed.isSome, .notReady), (s.flashHeld b, .resourceHeld)] fun s =>
        let ctr := s.flash.auditCtr + 1
        let s := s.onFlash fun f => { f with auditCtr := ctr }
        ((s.logWrite 4 (BitVec.ofNat 8 t) s.cal.stamp (leBytes 4 ctr.toNat ++ [BitVec.ofNat 8 b.val])).abortCal n).waits b

end Sys2Proof.Machine
end

