-- ==== Sys2Proof/Machine/Pads.lean ====
section
/-! DEFINITION. The host pads: a register write, the address strap, VDDIO and NRST (R1, R22 to R32, R177, R493). -/

namespace Sys2Proof.Machine

/-- An SPI transfer ends where it stands: no flag is set, and a low chip select is ignored until it rises (R27). -/
def Spi.cut (x : Spi) : Spi :=
  { x with miso := match x.xfer with | some t => t.sent | none => x.miso
           xfer := none, deafA := x.deafA || x.csA, deafB := x.deafB || x.csB }

/-- A two-wire transaction is ignored until STOP (R27). -/
def Tw.cut (t : Tw) : Tw := { t with phase := if t.phase == .idle then .idle else .ignored }

/-- REGISTER_WRITE (R1, R7). -/
def execRegisterWrite (p : Port) (a : Half) (bytes : List Byte) (s : State) : Out := .next (s.portWrite p a.toNat bytes)

/-- The address that a strap voltage selects (R32). -/
def strapAddress (mv : Nat) : BitVec 7 :=
  if mv < 100 then 0x4B else if mv < 500 then 0x4C else if mv < 1400 then 0x4D else 0x4E

/-- ADDR_STRAP_LATCH (R32): once after each power-on reset of the Binnacle. -/
def execAddrStrapLatch (mv : Nat) (s : State) : Out :=
  if s.bin.strapBusy && !s.bin.held then
    .next ((s.onTw fun t => { t with addr := strapAddress mv }).onBin fun b => { b with strapBusy := false })
  else .next s

/-- VDDIO_LOSS (R27). DEDUCED (log 55). -/
def execVddioLoss (s : State) : Out := .next (s.onSpi fun x => { x.cut with vddio := false })

/-- VDDIO_RETURN (R493): held levels reappear, and the port serves the next fall it sees. -/
def execVddioReturn (s : State) : Out := .next (s.onSpi fun x => { x with vddio := true })

/-- NRST_RESET (R27, R177, R178): NRST has been low for 1 µs, and stays low. -/
def execNrstReset (s : State) : Out :=
  if s.bin.held then .next s
  else .next ((((s.onSpi Spi.cut).onTw Tw.cut).resetSwitched 0x2).onDom fun d => { d with nrstLow := true })

end Sys2Proof.Machine
end

