-- ==== Sys2Proof/Machine/PowerPath.lean ====
section
/-! DEFINITION. The power path, the synchronous rectifier, the charger and the always-on supply (R87 to R115).
Voltages are in mV, currents in mA. -/

namespace Sys2Proof.Machine

/-! ## Selector (R87 to R93) -/

/-- The valid source of the highest priority (R88). -/
def Power.best (p : Power) : Option Source :=
  if p.adpValid then some .adp else if p.auxValid then some .aux else if p.batValid then some .bat else none

/-- Set the validity of a source. -/
def Power.setValid (src : Source) (v : Bool) (p : Power) : Power :=
  match src with
  | .adp => { p with adpValid := v } | .aux => { p with auxValid := v } | .bat => { p with batValid := v }

/-- The validity of a source. -/
def Power.isValid (src : Source) (p : Power) : Bool :=
  match src with
  | .adp => p.adpValid | .aux => p.auxValid | .bat => p.batValid

/-- N for the pack's thresholds: CELLS, and 1 while it is 0b00 (R87). -/
def Power.nPack (p : Power) : Nat := max 1 p.cells.toNat

/-- V_CUT per cell: 2.50 V + 0.05 V·n, values above 12 acting as 12 (R115). -/
def Power.vCut (p : Power) : Nat := 2500 + 50 * min 12 p.batcut.toNat

/-- The rising threshold of a source (R87). -/
def Power.rising (src : Source) (p : Power) : Nat :=
  match src with
  | .adp => 8600 | .aux => 12000 | .bat => p.nPack * (p.vCut + 300)

/-- The falling threshold of a source (R87). -/
def Power.falling (src : Source) (p : Power) : Nat :=
  match src with
  | .adp => 8200 | .aux => 11000 | .bat => p.nPack * p.vCut

/-- A level at which the deglitch time of a source runs (R87). -/
def Power.deglitches (src : Source) (mv : Nat) (p : Power) : Bool :=
  decide (p.rising src ≤ mv) && (src != .adp || decide (mv < 21000))

/-- A level at which a source is invalid (R87). -/
def Power.fails (src : Source) (mv : Nat) (p : Power) : Bool :=
  decide (mv < p.falling src) || (src == .adp && decide (21500 < mv))

/-- SOURCE_VALID (R87): the source has held `mv` for its deglitch time. -/
def execSourceValid (src : Source) (mv : Nat) (s : State) : Out :=
  if s.power.deglitches src mv then
    .next (s.onPower fun p => { p.setValid src true with adpOv := p.adpOv && src != .adp })
  else .next s

/-- A change of the selected source from `old` to `new` is counted (R91, R150, R411); the Binnacle records nothing while it
is held in reset (R111). -/
def State.sourceChange (old new : Option Source) (s : State) : State :=
  let s := s.onPower fun p => { p with src := new, before := none }
  (s.when (!s.bin.held) fun s =>
    ((s.onPower fun p => { p with srcChanged := true, srcCount := satInc p.srcCount }).raise 7).when
      (new == some .bat && (old == some .adp || old == some .aux)) (State.stampFso .bat)).learnDisq 7

/-- The source that the selector last had: the selected one, or in the gap of R89 the one before it. -/
def Power.held (p : Power) : Option Source := p.before <|> p.src

/-- SOURCE_INVALID (R87, R89, R91, R93, R115): at a failing level the switch of a selected source opens; for VBAT that is
BAT_CUT. With no valid source left, the opening is a change to none. ADP_OV follows the level of an invalid VADP. -/
def execSourceInvalid (src : Source) (mv : Nat) (s : State) : Out :=
  if s.power.fails src mv then
    let cut := src == .bat && s.power.src == some .bat && !s.bin.held
    let s := s.onPower fun p => { p.setValid src false with
      adpOv := if src = .adp then decide (21500 < mv) else p.adpOv
      src := if p.src = some src then none else p.src
      before := if p.src = some src then some src else p.before }
    let s := s.when cut fun s => (s.onPower fun p => { p with batCutSeen := true }).raise 12
    .next (s.when (s.power.before.isSome && s.power.best.isNone) (State.sourceChange s.power.before none))
  else .next (s.onPower fun p =>
    { p with adpOv := if src = .adp ∧ p.adpValid = false then decide (21500 < mv) else p.adpOv })

/-- SOURCE_SWITCH_CLOSE (R88, R89, R91): the switch of the best valid source closes. -/
def execSourceSwitchClose (s : State) : Out :=
  match s.power.best with
  | some b => if s.power.src = some b then .next s else .next (s.sourceChange s.power.held (some b))
  | none => .next s

/-! ## Synchronous rectifier (R94) -/

/-- SR_TURN_ON (R94, R167): SRG is high only with PWR ON, SR_EN and VAUX at 8.0 V or above; a hold in force keeps it low. -/
def execSrTurnOn (vaux : Nat) (s : State) : Out :=
  .next (s.onPower fun p =>
    { p with srg := s.isOn .pwr && p.srEn && !s.dom.padHeld.getLsbD 0 && decide (8000 ≤ vaux) })

/-- SR_TURN_OFF (R94). -/
def execSrTurnOff (s : State) : Out := .next (s.onPower fun p => { p with srg := false })

/-- SR_MAX_ON_TIME (R94). -/
def execSrMaxOnTime (s : State) : Out := .next (s.onPower fun p => { p with srg := false })

/-! ## Charger (R96 to R108) -/

/-- CHG_EN_WRITE (R96, R101). -/
def execChgEnWrite (p : Port) (v : Byte) (s : State) : Out := .next (s.portWrite p 0x0382 [v])

/-- N, the cells of the profile. -/
def Power.n (p : Power) : Nat := p.cells.toNat

/-- V_REG per cell (R100, R115). -/
def Power.vRegCell (p : Power) : Nat := if p.chem then 3400 + 10 * min p.vreg.toNat 25 else 4000 + 10 * min p.vreg.toNat 35

/-- The regulation voltage of the present zone, at the pack (R100, R106). -/
def Power.vZone (p : Power) : Nat :=
  p.n * (p.vRegCell - (if p.zone = .warm then (if p.chem then 50 else 100) else 0))

/-- The precharge threshold at the pack (R100). -/
def Power.vPre (p : Power) : Nat := p.n * (if p.chem then 2600 else 3000)

/-- The recharge threshold at the pack (R100). -/
def Power.vRecharge (p : Power) : Nat := p.n * (p.vRegCell - (if p.chem then 50 else 100))

/-- The overvoltage threshold at the pack (R100). -/
def Power.vOver (p : Power) : Nat := p.n * (p.vRegCell + 120)

/-- A current code held to its range, 25 mA a step (R115). -/
def currentOf (lo hi : Nat) (n : Byte) : Nat := 25 * max lo (min hi n.toNat)

/-- ITERM in mA (R115). -/
def Power.iTerm (p : Power) : Nat := currentOf 2 16 p.iterm

/-- The regulated current in mA: IPRE in PRE, ICHG in CC, ICHG/2 there in the COOL zone; none where current is not regulated
(R102, R106, R115). -/
def Power.iReg (p : Power) : Option Nat :=
  match p.chg with
  | .pre => some (currentOf 2 16 p.ipre)
  | .cc => some (if p.zone = .cool then currentOf 4 80 p.ichg / 2 else currentOf 4 80 p.ichg)
  | _ => none

/-- The regulated voltage at the pack: that of the present zone in CV (R102). -/
def Power.vReg (p : Power) : Option Nat := if p.chg = .cv then some p.vZone else none

/-- The limit of a safety timer in 1 ms tests, 0 acting as 1 (R103, R115). -/
def Power.timerLimit (t : ChgTimer) (p : Power) : Nat :=
  match t with
  | .pre => 600000 * max 1 p.tpre.toNat
  | .fast => 3600000 * max 1 p.tfast.toNat

/-- The zone permits charging (R106). -/
def TsZone.charges : TsZone → Bool
  | .cold => false | .hot => false | _ => true

/-- PRE, CC or CV. -/
def ChgState.charging : ChgState → Bool
  | .pre => true | .cc => true | .cv => true | _ => false

/-- The transition that a 1 ms test finds. DESIGN CHOICE (log 17): where several hold at one test, FAULT comes first, then
SUSPEND, then the loss of input, then the charge's own progress (R101). -/
def State.chgNext (s : State) (vbat vsys : Nat) : ChgState :=
  let p := s.power
  let bad := s.noTs || !p.zone.charges
  match p.chg with
  | .off => .off
  | .fault => .fault
  | .suspend => if bad then .suspend else .wait
  | .wait =>
    if bad then .suspend
    else if (p.src = some .adp ∨ p.src = some .aux) ∧ vbat + 1500 ≤ vsys then (if vbat < p.vPre then .pre else .cc)
    else .wait
  | .done => if bad then .suspend else if vbat < p.vRecharge then .wait else .done
  | c =>
    if p.vOver < vbat then .fault
    else if bad then .suspend
    else if p.src = some .bat ∨ vsys < vbat + 800 then .wait
    else if c = .pre then (if p.vPre + p.n * 100 ≤ vbat then .cc else .pre)
    else if c = .cc then (if p.vZone ≤ vbat then .cv else .cc)
    else c

/-- The charger switches: PRE, CC or CV, not paused for a window, not stopped for temperature, CHSW not held (R29, R104,
R108). -/
def Power.switches (p : Power) : Bool := p.chg.charging && !p.paused && !p.hotStop && !p.chswZ

/-- Enter a charger state: the timers and events of R103 and R105. A pause for a window goes on (R82, R108). -/
def State.chgEnter (goal : ChgState) (s : State) : State :=
  let c := s.power.chg
  if goal = c then s
  else
    let zero := goal == .done || goal == .off || (goal == .wait && c.charging)
    let s := s.onPower fun p => { p with chg := goal, preMs := if zero then 0 else p.preMs, fastMs := if zero then 0 else p.fastMs
                                         lowMs := 0 }
    let start := (goal == .pre || goal == .cc) && !c.charging
    let s := (s.when start (State.raise 8)).when start (State.onGauge fun g => { g with chgStart := g.chgStart || g.learn == .opened })
    (s.when (goal == .done) (State.raise 9)).when (goal == .fault) (State.raise 10)

/-- CHG_STATE_TEST (R100 to R103, R105, R108): 1 ms of a running timer passes, then the transition found is made. `imeas` is
the mean of the last 1 s without the paused time. -/
def execChgStateTest (vbat vsys : Nat) (imeas : Half) (s : State) : Out :=
  if s.chargerMayRun then
    let s := s.onPower fun p => { p with
      ichgMeas := imeas, preMs := if p.chg = .pre then p.preMs + 1 else p.preMs
      fastMs := if p.chg = .cc ∨ p.chg = .cv then p.fastMs + 1 else p.fastMs
      lowMs := if p.chg = .cv ∧ imeas.toNat < p.iTerm then p.lowMs + 1 else 0 }
    let goal := s.chgNext vbat vsys
    let high := s.power.chg.charging && goal == .fault
    .next ((s.when high (State.onPower fun p => { p with chgFault := p.chgFault ||| 0b00100 })).chgEnter goal)
  else .next s.chargerGate

/-- CHG_TERMINATION (R101): below ITERM for 60 s in CV, which is 60,000 tests. -/
def execChgTermination (s : State) : Out :=
  if s.power.chg = .cv ∧ 60000 ≤ s.power.lowMs then .next (s.chgEnter .done) else .next s

/-- CHG_SAFETY_TIMER_EXPIRE (R101, R103): the timer has reached its limit. -/
def execChgSafetyTimerExpire (t : ChgTimer) (s : State) : Out :=
  match t with
  | .pre =>
    if s.power.chg = .pre ∧ s.power.timerLimit .pre ≤ s.power.preMs then
      .next ((s.onPower fun p => { p with chgFault := p.chgFault ||| 0b00001 }).chgEnter .fault)
    else .next s
  | .fast =>
    if (s.power.chg = .cc ∨ s.power.chg = .cv) ∧ s.power.timerLimit .fast ≤ s.power.fastMs then
      .next ((s.onPower fun p => { p with chgFault := p.chgFault ||| 0b00010 }).chgEnter .fault)
    else .next s

/-- CHG_OVERCURRENT (R104): the state does not change. -/
def execChgOvercurrent (s : State) : Out :=
  if s.power.chg.charging then .next ((s.onPower fun p => { p with chgFault := p.chgFault ||| 0b01000 }).raise 10) else .next s

/-- CHG_OVERTEMP (R104): the state does not change. -/
def execChgOvertemp (s : State) : Out :=
  if s.power.chg != .off && !s.power.hotStop then
    .next ((s.onPower fun p => { p with chgFault := p.chgFault ||| 0b10000, hotStop := true }).raise 10)
  else .next s

/-- CHG_OVERTEMP_RESUME (R104). -/
def execChgOvertempResume (s : State) : Out := .next (s.onPower fun p => { p with hotStop := false })

/-! ## Always-on supply (R109, R110, R114) -/

/-- VAON_TO_VBAK (R109, R110, R150, R411). -/
def execVaonToVbak (s : State) : Out :=
  if s.power.onVbak then .next s
  else .next (((s.onPower fun p => { p with onVbak := true }).when (!s.bin.held) (State.stampFso .bak)).learnDisq 6)

/-- VAON_TO_VSYS (R109, R110): VSYS is at 3.1 V, so that the switched domains are powered again (R176). -/
def execVaonToVsys (s : State) : Out :=
  if s.power.onVbak then
    let s := (s.onPower fun p => { p with onVbak := false }).when (!s.bin.held) fun s =>
      (s.onPower fun p => { p with aonWasBak := true }).raise 14
    .next (s.onDom fun d => { d with vsysUp := true }).startWanted
  else .next s

/-- VBAK is charged, to 3.30 V at no more than 3 mA: with BAK_MODE 1, while VAON follows VSYS (R112). -/
def State.chargesVbak (s : State) : Bool := s.power.bakMode && !s.power.onVbak && !s.bin.held

/-- VBAK_CHECK (R114): made at each second whose LSEC is a multiple of 64. -/
def execVbakCheck (mv : Nat) (s : State) : Out :=
  if s.cal.lsec.toNat % 64 = 0 ∧ mv < 2200 ∧ s.bin.held = false then .next ((s.onPower fun p => { p with bakLow := true }).raise 13) else .next s

end Sys2Proof.Machine
end

