-- ==== Sys2Proof/Machine/SpiPort.lean ====
section
/-! DEFINITION. The SPI port byte by byte: chip selects, opcodes, data bytes, clashes (R186 to R203). A transfer's `sent`
holds the bytes the port drives on MISO, oldest first; a transfer that ends leaves them in `miso`. DESIGN CHOICE (log 7): a
byte is one command. -/

namespace Sys2Proof.Machine

/-- The port of a chip select: CS_A, or CS_B when `second`. -/
def csPort (second : Bool) : Port := if second then .csB else .csA

/-- A snapshot of LIVE and EVSUM (R189). -/
def State.triplet (s : State) (p : Port) : List Byte := s.live p :: leBytes 2 (s.evsum p).toNat

/-- Set the level of a chip select. -/
def Spi.setCs (second low : Bool) (x : Spi) : Spi := if second then { x with csB := low } else { x with csA := low }

/-- Flag bits of the identity page: PARTIAL is bit 4 and BADOP bit 6, one higher for CS_B (R206). -/
def portFlag (base : Nat) (p : Port) : Byte := 1#8 <<< (base + portCode p)

/-- The transfer in progress ends as at a rise of its chip select (R187, R202); EV42 with PARTIAL (R301). -/
def State.endXfer (partialBits : Fin 8) (s : State) : State :=
  match s.spi.xfer with
  | none => s
  | some x =>
    let s := s.onSpi fun y => { y with xfer := none, miso := x.sent }
    if partialBits = 0 then s
    else (s.onSpi fun y => { y with flags := y.flags ||| portFlag 4 x.port }).raise 42

/-- Both chip selects are low: counted once until both are high (R202). -/
def State.csClash (partialBits : Fin 8) (s : State) : State :=
  if s.spi.clash then s
  else ((s.endXfer partialBits).onSpi fun x =>
    { x with clash := true, flags := x.flags ||| 0x08, clashCnt := satInc x.clashCnt }).raise 41

/-- Ask what holds in the transfer in progress, and change it. -/
def State.withXfer (f : Xfer → State → State) (s : State) : State :=
  match s.spi.xfer with
  | some x => f x s
  | none => s

/-- Put the transfer back. -/
def State.putXfer (x : Xfer) (s : State) : State := s.onSpi fun y => { y with xfer := some x }

/-- SPI_CS_FALL (R27, R186, R189, R202): `sck` is the level of SCK. -/
def execSpiCsFall (second sck : Bool) (s : State) : Out :=
  let p := csPort second
  if (if second then s.spi.csB else s.spi.csA) then .next s
  else
    let other := if second then s.spi.csA && !s.spi.deafA else s.spi.csB && !s.spi.deafB
    let s := s.onSpi (Spi.setCs second true)
    if !s.portUp p then
      .next (s.onSpi fun x => if second then { x with deafB := true } else { x with deafA := true })
    else if s.spi.clash then .next s
    else if other then .next (s.csClash 0)
    else .next (s.putXfer { port := p, mode3 := sck, sent := s.triplet p })

/-- SPI_LIVE (R188, R189): one more fresh triplet of a transfer that is no READ. -/
def execSpiLive (s : State) : Out :=
  .next (s.withXfer fun x s =>
    if x.opcode = some 0x0B ∨ x.opcode = some 0x02 then s
    else s.putXfer { x with opcode := some (x.opcode.getD 0x00), sent := x.sent ++ s.triplet x.port })

/-- SPI_WRITE_BYTE (R188, R191, R198): `a` is the address the transfer gave; a later byte goes to the next address. -/
def execSpiWriteByte (a : Half) (b : Byte) (s : State) : Out :=
  .next (s.withXfer fun x s =>
    if x.opcode = none ∨ x.opcode = some 0x02 then
      let cur := x.cursor.getD a
      let snap := if x.snap.isEmpty then s.triplet x.port else x.snap
      let (x, s) := s.xferWrite { x with opcode := some 0x02, sent := x.sent ++ snap.take 1, snap := snap.drop 1 } cur.toNat b
      s.putXfer { x with cursor := some (cur + 1) }
    else s)

/-- SPI_READ_BYTE (R188, R189, R192, R198): before the first data byte comes the turnaround LIVE. -/
def execSpiReadByte (a : Half) (complete : Bool) (s : State) : Out :=
  .next (s.withXfer fun x s =>
    if x.opcode = none ∨ x.opcode = some 0x0B then
      let cur := x.cursor.getD a
      let sent := if x.cursor.isSome then x.sent else x.sent ++ [s.live x.port]
      let (v, x, s) := s.xferRead { x with opcode := some 0x0B, sent } cur.toNat complete
      s.putXfer { x with cursor := some (cur + 1), sent := x.sent ++ [v] }
    else s)

/-- SPI_RING (R181, R182, R190): at the completion of the opcode byte. -/
def execSpiRing (n : Fin 4) (s : State) : Out :=
  .next (s.withXfer fun x s =>
    if x.opcode = none then
      (s.putXfer { x with opcode := some (0x20 + BitVec.ofNat 8 n.val) }).ring x.port n
    else s)

/-- SPI_BAD_OPCODE (R188, R301): BADOP for the port, and EV42. -/
def execSpiBadOpcode (op : Byte) (s : State) : Out :=
  .next (s.withXfer fun x s =>
    if x.opcode = none ∧ op ≠ 0x00 ∧ op ≠ 0x02 ∧ op ≠ 0x0B ∧ (op &&& 0xFC) ≠ 0x20 then
      ((s.putXfer { x with opcode := some op }).onSpi fun y =>
        { y with flags := y.flags ||| portFlag 6 x.port }).raise 42
    else s)

/-- SPI_CS_RISE (R187, R201, R202). -/
def execSpiCsRise (second : Bool) (partialBits : Fin 8) (s : State) : Out :=
  let s := if (s.spi.xfer.map (·.port)) = some (csPort second) then s.endXfer partialBits else s
  .next (s.onSpi fun x =>
    let x := Spi.setCs second false (if second then { x with deafB := false } else { x with deafA := false })
    { x with clash := x.clash && (x.csA || x.csB) })

/-- SPI_CS_CLASH (R202): the second chip select falls while the first is low. -/
def execSpiCsClash (partialBits : Fin 8) (s : State) : Out :=
  if s.portUp .csA && !(s.spi.csA && s.spi.deafA) && !(s.spi.csB && s.spi.deafB) then
    .next ((s.csClash partialBits).onSpi fun x => { x with csA := true, csB := true })
  else .next s

end Sys2Proof.Machine
end

