-- ==== Sys2Proof/Machine/TwoWire.lean ====
section
/-! DEFINITION. The two-wire channels: the host channel as target (R207 to R227), as controller for the smart battery
(R228 to R235, R421), and the probe channel (R236 to R241). Each command of the host channel is the rest of one
transaction after its first address byte, up to the STOP or repeated START that ends it. DESIGN CHOICE (log 7): it is one
command. -/

namespace Sys2Proof.Machine

/-! ## Address recognition (R219, R223 to R227) -/

/-- Set a bit of TW_STAT (R244). -/
def State.twStat (k : Nat) (s : State) : State := s.onTw fun t => { t with stat := t.stat ||| (1#8 <<< k) }

/-- TW_ADDRESS_MATCH (R27, R219, R223, R224, R226): a START and an address byte; to another address the bus is just busy
(R208). While the module is the controller no other START comes (R229). -/
def execTwAddressMatch (addr : BitVec 7) (read : Bool) (s : State) : Out :=
  if !s.portUp .tw || s.tw.sbsActive then .next s
  else
    let s := s.onTw fun t => { t with
      busy := true, hscl := true, hsda := true, startHeld := false, readFirst := read, sent := [], phase := .idle, acked := false }
    if s.bin.strapBusy || addr != s.tw.addr then .next s
    else
      let on := s.isOn .hif
      let s := s.wake 16 [.hif, .memB]
      if on then .next (s.onTw fun t => { t with phase := .active, acked := true })
      else if s.tw.sleepAsync then .next (s.onTw fun t => { t with phase := .stretched, acked := true })
      else .next (((s.onTw fun t => { t with phase := .ignored }).twStat 7).raise 43)

/-- TW_ASYNC_TAKEOVER (R226): HSCL is released as the stretch ends. -/
def execTwAsyncTakeover (s : State) : Out :=
  if s.tw.phase == .stretched && s.isOn .hif then .next (s.onTw fun t => { t with phase := .active }) else .next s

/-- TW_WAKE_FAIL (R31, R227). -/
def execTwWakeFail (s : State) : Out :=
  if s.tw.phase == .stretched && !s.isOn .hif then
    .next (((s.onTw fun t => { t with phase := .ignored, acked := false }).twStat 3).raiseWhenHif 37)
  else .next s

/-! ## Transactions addressed to the module (R209 to R221) -/

/-- The transaction ends; `sent` is what the module sent, `acked` whether it acknowledged every byte. -/
def Tw.done (sent : List Byte) (acked : Bool) (t : Tw) : Tw :=
  { t with phase := .idle, busy := false, sent, acked }

/-- Run the rest of a transaction that began with the given direction; one that is ignored just ends (R27, R224). -/
def State.transaction (readFirst : Bool) (f : State → State) (s : State) : State :=
  match s.tw.phase with
  | .active => if s.tw.readFirst = readFirst then f s else s
  | .ignored => s.onTw (Tw.done [] false)
  | _ => s

/-- A malformed transaction (R216). -/
def State.twProto (cause : BitVec 3) (s : State) : State :=
  (((s.onTw fun t => { t with protoCause := cause }).twStat 6).onTw (Tw.done [] (cause == 6))).raise 38

/-- A wrong PEC byte (R221). -/
def State.twPecErr (s : State) : State :=
  (((s.onTw fun t => { t with pecCnt := satInc t.pecCnt }).twStat 4).onTw (Tw.done [] false)).raise 33

/-- A required PEC byte is missing (R221). -/
def State.twPecMiss (s : State) : State := ((s.twStat 5).onTw (Tw.done [] true)).raise 33

/-- The address byte with its direction bit (R220). -/
def Tw.addrByte (t : Tw) (read : Bool) : Byte := BitVec.ofNat 8 (2 * t.addr.toNat + bit read)

/-- The end of a write-only transaction whose first `n` bytes after the code are well formed: cut short, without PEC, with
PEC, or too long (R215, R216, R221). -/
def State.twWriteEnd (code : Byte) (bytes : List Byte) (n : Nat) (pecReq : Bool) (effect : State → State) (s : State) :
    State :=
  match bytes.drop n with
  | [] =>
    if bytes.length < n then s.twProto 6
    else if pecReq then s.twPecMiss
    else (effect s).onTw (Tw.done [] true)
  | p :: more =>
    if p ≠ pec (s.tw.addrByte false :: code :: bytes.take n) then s.twPecErr
    else if more.isEmpty then (effect s).onTw (Tw.done [] true)
    else s.twProto 5

/-- The bytes of a read phase: the command's own, the PEC, then 0xFF (R217, R220, R221). -/
def Tw.readPhase (t : Tw) (head own : List Byte) (complete : Bool) (n : Nat) : List Byte :=
  if complete then (own ++ [pec (head ++ [t.addrByte true] ++ own)] ++ List.replicate n 0xFF).take n else own.take n

/-- TW_RECEIVE_BYTE (R210, R212). -/
def execTwReceiveByte (n : Nat) (s : State) : Out :=
  .next (s.transaction true fun s => s.onTw (Tw.done (List.replicate n (s.live .tw)) true))

/-- The read phase of a command whose write phase has no byte after the code, beside the PEC byte that ends it without a read
phase (R210, R216, R221). DESIGN CHOICE (log 81): a byte between such a code and a read phase is beyond the count, cause 5. -/
def State.twRead (code : Byte) (extra : List Byte) (n : Nat) (f : State → State) (s : State) : State :=
  s.transaction false fun s =>
    if n = 0 then s.twWriteEnd code extra 0 false id else if extra.isEmpty then f s else s.twProto 5

/-- TW_READ_BYTE (R210, R212): `n` bytes of the read phase; with none the transaction is write-only. -/
def execTwReadByte (extra : List Byte) (n : Nat) (s : State) : Out :=
  .next (s.twRead 0x01 extra n fun s =>
    s.onTw fun t => t.done (t.readPhase [t.addrByte false, 0x01] [s.live .tw] true n) true)

/-- TW_READ_WORD (R210, R212). -/
def execTwReadWord (extra : List Byte) (n : Nat) (s : State) : Out :=
  .next (s.twRead 0x02 extra n fun s =>
    s.onTw fun t => t.done (t.readPhase [t.addrByte false, 0x02] (leBytes 2 (s.evsum .tw).toNat) true n) true)

/-- Address and length of a fixed block (R211). -/
def fixedBlock (k : Fin 8) : Nat × Nat :=
  ([(0x0100, 32), (0x0120, 16), (0x0130, 16), (0x0140, 32), (0x0160, 16), (0x0170, 8), (0x0180, 32), (0x01A0, 32)] :
    List (Nat × Nat)).getD k.val (0, 0)

/-- `n` begun bytes of a read from `a` onward, of which the last completes or not: the completed bytes (R192, R214). -/
def State.twServe (a n : Nat) (complete : Bool) (s : State) : List Byte × State :=
  if complete || n = 0 then
    let (vs, _, s) := s.xferReads { port := .tw } a n
    (vs, s)
  else
    let (vs, x, s) := s.xferReads { port := .tw } a (n - 1)
    (vs, (s.xferRead x ((a + (n - 1)) % 0x10000) false).2.2)

/-- The completed bytes of `n` begun ones. -/
def completed (n : Nat) (complete : Bool) : Nat := if complete then n else n - 1

/-- A read phase of `n` begun bytes, after the bytes `head`: the count byte if there is one, then `len` bytes from `a` onward
(R210, R214, R217, R221). -/
def State.twBlock (head count : List Byte) (a len n : Nat) (complete : Bool) (s : State) : State :=
  let c := count.length
  let m := completed n complete
  let (vs, s) := s.twServe a (min (n - c) len) (complete || decide (c + len < n))
  s.onTw fun t => t.done (t.readPhase head (count ++ vs) (decide (c + len ≤ m)) m) true

/-- TW_FIXED_READ (R210, R211, R214): each byte as if it were read at its address. -/
def execTwFixedRead (block : Fin 8) (extra : List Byte) (n : Nat) (complete : Bool) (s : State) : Out :=
  let code : Byte := 0x10 + BitVec.ofNat 8 block.val
  let (a, len) := fixedBlock block
  .next (s.twRead code extra n fun s => s.twBlock [s.tw.addrByte false, code] [] a len n complete)

/-- Berth of a berth byte (R210). -/
def berthOf (b : Byte) : Fin 4 := Fin.ofNat 4 b.toNat

/-- Any of bits 7:2 of a berth byte is set (R216). -/
def badBerth (b : Byte) : Bool := b &&& 0xFC != 0

/-- The write phase of 0x20 (R181, R182, R210). -/
def State.twRingWrite (bytes : List Byte) (s : State) : State :=
  match bytes with
  | [] => s.twProto 6
  | b :: _ =>
    if badBerth b then s.twProto 3
    else s.twWriteEnd 0x20 bytes 1 (s.berth (berthOf b)).pecReq fun s => s.ring .tw (berthOf b)

/-- The write phase of 0x40 (R210, R214 to R216, R276). -/
def State.twMailWrite (bytes : List Byte) (s : State) : State :=
  match bytes with
  | [] => s.twProto 6
  | n :: rest =>
    if n.toNat < 3 then s.twProto 2
    else match rest with
      | [] => s.twProto 6
      | b :: rest =>
        if badBerth b then s.twProto 3
        else match rest with
          | [] => s.twProto 6
          | o :: data =>
            if 256 < o.toNat + (n.toNat - 2) then s.twProto 4
            else s.twWriteEnd 0x40 bytes (n.toNat + 1) (s.berth (berthOf b)).pecReq fun s =>
              (s.xferWrites { port := .tw } (windowBase (berthOf b).val + o.toNat) (data.take (n.toNat - 2))).2

/-- The write phase of 0x41, and its read phase of `n` begun bytes; with none the transaction is write-only and has no effect
but its checks (R210, R214, R216). -/
def State.twCall (bytes : List Byte) (n : Nat) (complete : Bool) (s : State) : State :=
  match bytes with
  | [] => s.twProto 6
  | c :: rest =>
    if c ≠ 3 then s.twProto 2
    else match rest with
      | [] => s.twProto 6
      | b :: rest =>
        if badBerth b then s.twProto 3
        else match rest with
          | o :: l :: more =>
            if l = 0 then s.twProto 2
            else if 256 < o.toNat + l.toNat then s.twProto 4
            else if n = 0 then s.twWriteEnd 0x41 bytes 4 (s.berth (berthOf b)).pecReq id
            else if !more.isEmpty then s.twProto 5
            else s.twBlock ([s.tw.addrByte false, 0x41] ++ bytes) [l] (windowBase (berthOf b).val + 0x100 + o.toNat) l.toNat n
              complete
          | _ => s.twProto 6

/-- The write phase of 0x60 (R210, R213, R216). -/
def State.twPtrWrite (bytes : List Byte) (s : State) : State :=
  if 3 ≤ bytes.length ∧ bytes.getD 2 0 = 0 then s.twProto 7
  else s.twWriteEnd 0x60 bytes 3 s.tw.pecReq fun s =>
    s.onTw fun t => { t with ptr := BitVec.ofNat 16 (leAt bytes 0 2), rlen := bytes.getD 2 0 }

/-- The write phase of 0x61 (R210, R213 to R216). -/
def State.twPtrData (bytes : List Byte) (s : State) : State :=
  match bytes with
  | [] => s.twProto 6
  | n :: data =>
    if n = 0 then s.twProto 2
    else s.twWriteEnd 0x61 bytes (n.toNat + 1) s.tw.pecReq fun s =>
      (s.xferWrites { port := .tw } s.tw.ptr.toNat (data.take n.toNat)).2.onTw fun t =>
        { t with ptr := t.ptr + BitVec.ofNat 16 n.toNat }

/-- The codes of R210 that only read. -/
def twReadCodes : List Byte := [0x01, 0x02, 0x10, 0x11, 0x12, 0x13, 0x14, 0x15, 0x16, 0x17]

/-- A write-only transaction with any command code (R210, R215, R216). -/
def State.twWrite (code : Byte) (bytes : List Byte) (s : State) : State :=
  if code = 0x20 then s.twRingWrite bytes
  else if code = 0x40 then s.twMailWrite bytes
  else if code = 0x41 then s.twCall bytes 0 true
  else if code = 0x60 then s.twPtrWrite bytes
  else if code = 0x61 then s.twPtrData bytes
  else if twReadCodes.contains code then s.twWriteEnd code bytes 0 false id
  else s.twProto 1

/-- TW_RING (R181, R182, R210): at the end of a valid transaction. -/
def execTwRing (bytes : List Byte) (s : State) : Out := .next (s.transaction false (State.twRingWrite bytes))

/-- TW_BLOCK_WRITE (R210, R214 to R216, R276): a write-only transaction with its code, 0x40 for the mailbox. -/
def execTwBlockWrite (code : Byte) (bytes : List Byte) (s : State) : Out := .next (s.transaction false (State.twWrite code bytes))

/-- TW_PROCESS_CALL (R210, R214, R216). -/
def execTwProcessCall (bytes : List Byte) (n : Nat) (complete : Bool) (s : State) : Out :=
  .next (s.transaction false (State.twCall bytes n complete))

/-- TW_POINTER_WRITE (R210, R213, R216). -/
def execTwPointerWrite (bytes : List Byte) (s : State) : Out := .next (s.transaction false (State.twPtrWrite bytes))

/-- TW_PTR_BLOCK_WRITE (R210, R213 to R216). -/
def execTwPtrBlockWrite (bytes : List Byte) (s : State) : Out := .next (s.transaction false (State.twPtrData bytes))

/-- TW_PTR_BLOCK_READ (R210, R213, R214): `n` begun bytes, the count included; PTR moves by the data bytes sent. -/
def execTwPtrBlockRead (n : Nat) (complete : Bool) (s : State) : Out :=
  .next (s.transaction false fun s =>
    let len := s.tw.rlen
    (s.twBlock [s.tw.addrByte false, 0x61] [len] s.tw.ptr.toNat len.toNat n complete).onTw fun t =>
      { t with ptr := t.ptr + BitVec.ofNat 16 (min (completed n complete - 1) len.toNat) })

/-! ## Smart-battery reads (R228 to R232, R421) -/

/-- A smart-battery read fails (R232). -/
def State.sbsFail (cause : BitVec 3) (s : State) : State :=
  (s.onTw fun t => { t with sbsCause := cause, sbsPending := false, sbsActive := false, sbsTries := 0 }).raise 39

/-- A read is pending or in progress. -/
def Tw.sbsBusy (t : Tw) : Bool := t.sbsPending || t.sbsActive

/-- SBS_READ_DUE (R228, R421). -/
def execSbsReadDue (s : State) : Out :=
  if s.isOn .hif && s.isOn .cpu && s.fw.started && bitAt s.gauge.cfg 23 0 && !s.tw.sbsBusy then
    .next (s.onTw fun t => { t with sbsPending := true, sbsTries := 0 })
  else .next s

/-- SBS_PEC of the gauge configuration (R228, R424). -/
def State.sbsPec (s : State) : Bool := bitAt s.gauge.cfg 23 1

/-- SBS_BUS_FREE (R228 to R230, R235, R240): the pending read starts, after the recovery that STUCK asks for, and at the
closing of a quiet window that holds its START. -/
def execSbsBusFree (s : State) : Out :=
  if s.portUp .tw then
    let s := s.onTw fun t => { t with phase := .idle, busy := false, hscl := true, hsda := true }
    if s.tw.sbsPending && !s.tw.sbsActive && s.isOn .hif && s.isOn .cpu && !s.recovering then
      .next (if s.link.window.isSome then s.onTw fun t => { t with startHeld := true } else s.onTw Tw.sbsStart)
    else .next s
  else .next s

/-- SBS_READ_COMPLETE (R228, R232, R240, R421, R422): the seven words in the order of R421. A PEC byte counts only with
SBS_PEC; inside a quiet window no read ends. -/
def execSbsReadComplete (how : BusEnd) (words : List Half) (s : State) : Out :=
  if s.tw.sbsActive && s.isOn .hif && s.isOn .cpu && s.link.window.isNone then
    let pec := s.sbsPec
    let s := s.onTw fun t => { t with sbsActive := false, sbsTries := 0, busy := false }
    let good (s : State) : State :=
      let w (k : Nat) : List Byte := leBytes 2 (words.getD k 0).toNat
      (s.gaugeRecord 3 0x23 false (w 1 ++ w 2 ++ [(words.getD 3 0).setWidth 8, 0] ++ w 4 ++ w 0 ++ w 5 ++ w 6)).raise 45
    match how with
    | .ok => .next (good s)
    | .addrNack => .next (s.sbsFail 1)
    | .dataNack => .next (s.sbsFail 2)
    | .pec => .next (if pec then s.sbsFail 7 else good s)
  else .next s

/-- TW_ARB_LOST (R230, R232): `addrByte` is the other controller's address byte when the loss falls within one. -/
def execTwArbLost (addrByte : Option Byte) (s : State) : Out :=
  if s.tw.sbsActive then
    let s := s.onTw fun t => { t with arbCnt := satInc t.arbCnt, sbsActive := false, busy := true }
    match addrByte.filter fun (b : Byte) => (b >>> 1).setWidth 7 == s.tw.addr with
    | some b =>
      .next ((s.onTw fun t => { t with sbsPending := true, phase := .active, acked := true, readFirst := b.getLsbD 0
                                       sent := [] }).wake 16 [.hif, .memB])
    | none => .next (if 3 ≤ s.tw.sbsTries then s.sbsFail 3 else s.onTw fun t => { t with sbsPending := true })
  else .next s

/-- TW_ARB_SR (R231, R232). -/
def execTwArbSr (s : State) : Out :=
  if s.tw.sbsActive then .next ((((s.onTw fun t => { t with busy := true }).twStat 2).raise 36).sbsFail 4) else .next s

/-! ## Timeouts and recovery on the host channel (R233 to R235) -/

/-- TW_CLOCK_LOW_TIMEOUT (R27, R233): HSCL has been low to the closing edge. -/
def execTwClockLowTimeout (s : State) : Out :=
  if !s.portUp .tw then .next s
  else
    let s := ((s.onTw fun t => { t with
      tlowCnt := satInc t.tlowCnt, hscl := false, phase := if t.phase == .idle then .idle else .ignored }).twStat 0).raise 34
    .next (s.when s.tw.sbsActive (State.sbsFail 5))

/-- TW_STUCK_TIMEOUT (R27, R234): HSDA low with HSCL high to the closing edge. -/
def execTwStuckTimeout (s : State) : Out :=
  if !s.portUp .tw then .next s else .next (((s.onTw fun t => { t with hsda := false, hscl := true }).twStat 1).raise 35)

/-- TW_BUS_RECOVERY (R232, R235, R240): the pulse after which HSDA is high, if any of the nine. No pulse is made inside a quiet
window. -/
def execTwBusRecovery (releasedAt : Option (Fin 9)) (s : State) : Out :=
  if s.recovering && s.link.window.isNone then
    match releasedAt with
    | some _ =>
      .next ((s.onTw fun t => { t with
        recovCnt := satInc t.recovCnt, stat := t.stat &&& ~~~0x02#8, hsda := true, busy := false, sbsPending := true
        sbsActive := false }).raise 46)
    | none => .next (s.sbsFail 6)
  else .next s

/-! ## Probe channel (R236 to R241) -/

/-- The probe transfer ends without failure: EV44, and the command is answered (R301, R459). -/
def State.probeOk (data : List Byte) (s : State) : State :=
  match s.tw.probe with
  | some o =>
    ((s.onTw fun t => { t with probe := none, pbCause := 0 }).raise 44).answer o.berth .ok (0 :: data)
  | none => s

/-- The probe transfer fails: PB_FAIL, PB_CAUSE and EV40; the command is answered OK with the cause (R241, R459). -/
def State.probeFail (cause : BitVec 3) (s : State) : State :=
  match s.tw.probe with
  | some o =>
    ((s.onTw fun t => { t with probe := none, pbCause := cause, pbFail := true }).raise 40).answer o.berth .ok
      [cause.setWidth 8]
  | none => s

/-- The probe channel runs while HIF and CPU are ON (R236). -/
def State.probeUp (s : State) : Bool := s.isOn .hif && s.isOn .cpu

/-- A transfer runs. -/
def State.probeRuns (s : State) : Bool := s.probeUp && s.tw.probe.isSome

/-- A transfer runs and moves its lines: PSDA is not stuck, and no quiet window holds them (R235, R240, R241). -/
def State.probeMoves (s : State) : Bool := s.probeRuns && s.link.window.isNone && !s.tw.pbStuck

/-- PROBE_TRANSFER_DONE (R238): a write goes on to polling. -/
def execProbeTransferDone (how : BusEnd) (bytes : List Byte) (s : State) : Out :=
  if s.probeMoves then
    match how with
    | .addrNack => .next (s.probeFail 1)
    | .dataNack => .next (s.probeFail 2)
    | _ =>
      match s.tw.probe with
      | some o =>
        if o.polling then .next s
        else if o.write then .next (s.onTw fun t => { t with probe := some { o with polling := true } })
        else .next (s.probeOk (slice bytes 0 o.count))
      | none => .next s
  else .next s

/-- A write is being polled. -/
def Tw.polling (t : Tw) : Bool := (t.probe.map (·.polling)).getD false

/-- PROBE_WRITE_POLL (R238). -/
def execProbeWritePoll (acked : Bool) (s : State) : Out :=
  if s.probeMoves && s.tw.polling && acked then .next (s.probeOk []) else .next s

/-- PROBE_POLL_TIMEOUT (R238): the time limit runs on inside a quiet window. -/
def execProbePollTimeout (s : State) : Out :=
  if s.probeRuns && s.tw.polling then .next (s.probeFail 3) else .next s

/-- PROBE_BUS_CONFLICT (R237). -/
def execProbeBusConflict (s : State) : Out := if s.probeMoves then .next (s.probeFail 6) else .next s

/-- PROBE_TIMEOUT (R233 to R235, R240, R241). PSCL low for 25 ms fails the transfer; PSDA stuck is recovered whether or not a
transfer runs, and only a line that is still low after nine pulses fails one. A recovered transfer is made again; log 21. -/
def execProbeTimeout (stuck recovered : Bool) (s : State) : Out :=
  if !s.probeUp then .next s
  else if !stuck then .next (s.probeFail 4)
  else if s.link.window.isSome then .next s
  else if recovered then
    .next ((s.onTw fun t => { t with pbStuck := false, pbRecovCnt := satInc t.pbRecovCnt }).raise 46)
  else .next ((s.onTw fun t => { t with pbStuck := true }).probeFail 5)

end Sys2Proof.Machine
end

