-- ==== Sys2Proof/Machine/Dispatch.lean ====
section
/-! DEFINITION. The meaning of each command: one arm per constructor of Instr, in the order of the operations table. -/

namespace Sys2Proof.Machine

/-- The effect of a command on everything but the queue. -/
def exec (i : Instr) (s : State) : Host.Outcome State Fault Refusal :=
  match i with
  | .registerWrite p a bytes => Sys2Proof.Machine.execRegisterWrite p a bytes s
  | .addrStrapLatch mv => Sys2Proof.Machine.execAddrStrapLatch mv s
  | .vddioLoss => Sys2Proof.Machine.execVddioLoss s
  | .nrstReset => Sys2Proof.Machine.execNrstReset s
  | .lineDieStart hvin stamp => Sys2Proof.Machine.execLineDieStart hvin stamp s
  | .brownIn => Sys2Proof.Machine.execBrownIn s
  | .softStartEnd => Sys2Proof.Machine.execSoftStartEnd s
  | .lineDieStop => Sys2Proof.Machine.execLineDieStop s
  | .goodbyeSend stamp => Sys2Proof.Machine.execGoodbyeSend stamp s
  | .regFrameDue demand => Sys2Proof.Machine.execRegFrameDue demand s
  | .regRun demand => Sys2Proof.Machine.execRegRun demand s
  | .regOverride demand stamp => Sys2Proof.Machine.execRegOverride demand stamp s
  | .regSoftStop stamp => Sys2Proof.Machine.execRegSoftStop stamp s
  | .frameDiscard dir bits instant => Sys2Proof.Machine.execFrameDiscard dir bits instant s
  | .downlinkTimeout stamp => Sys2Proof.Machine.execDownlinkTimeout stamp s
  | .stopRestartTimeout => Sys2Proof.Machine.execStopRestartTimeout s
  | .stopSymbolReceived stamp => Sys2Proof.Machine.execStopSymbolReceived stamp s
  | .hvinBrownOut stamp => Sys2Proof.Machine.execHvinBrownOut stamp s
  | .hvinOvervoltage stamp => Sys2Proof.Machine.execHvinOvervoltage stamp s
  | .hvinOvResume => Sys2Proof.Machine.execHvinOvResume s
  | .switchShortCircuit stamp => Sys2Proof.Machine.execSwitchShortCircuit stamp s
  | .overloadStop stamp mw => Sys2Proof.Machine.execOverloadStop stamp mw s
  | .faultRestart => Sys2Proof.Machine.execFaultRestart s
  | .overtempStop stamp => Sys2Proof.Machine.execOvertempStop stamp s
  | .overtempResume => Sys2Proof.Machine.execOvertempResume s
  | .vldOvLatch stamp => Sys2Proof.Machine.execVldOvLatch stamp s
  | .vauxOvervoltage => Sys2Proof.Machine.execVauxOvervoltage s
  | .vauxRecover => Sys2Proof.Machine.execVauxRecover s
  | .zeroCrossing t v0 v1 peak => Sys2Proof.Machine.execZeroCrossing t v0 v1 peak s
  | .lineLossDeclare stamp v now => Sys2Proof.Machine.execLineLossDeclare stamp v now s
  | .lineLossRepeat => Sys2Proof.Machine.execLineLossRepeat s
  | .dcModeEntry now v => Sys2Proof.Machine.execDcModeEntry now v s
  | .dcLineReturn stamp => Sys2Proof.Machine.execDcLineReturn stamp s
  | .lineReturnDeclare => Sys2Proof.Machine.execLineReturnDeclare s
  | .tlmProduce vline hvin temp peak => Sys2Proof.Machine.execTlmProduce vline hvin temp peak s
  | .tlmReceived f => Sys2Proof.Machine.execTlmReceived f s
  | .zcReceived f => Sys2Proof.Machine.execZcReceived f s
  | .lineLossReceived stamp => Sys2Proof.Machine.execLineLossReceived stamp s
  | .lineReturnReceived stamp => Sys2Proof.Machine.execLineReturnReceived stamp s
  | .ldFaultReceived f => Sys2Proof.Machine.execLdFaultReceived f s
  | .beaconBurst => Sys2Proof.Machine.execBeaconBurst s
  | .linkUplinkTimeout => Sys2Proof.Machine.execLinkUplinkTimeout s
  | .linkFaultReset => Sys2Proof.Machine.execLinkFaultReset s
  | .beaconQualified => Sys2Proof.Machine.execBeaconQualified s
  | .beaconDetectorClear => Sys2Proof.Machine.execBeaconDetectorClear s
  | .cfgWrite p r v => Sys2Proof.Machine.execCfgWrite p r v s
  | .cfgReceived r v => Sys2Proof.Machine.execCfgReceived r v s
  | .quietReceived tag len stamp => Sys2Proof.Machine.execQuietReceived tag len stamp s
  | .ldQuietOpen stamp => Sys2Proof.Machine.execLdQuietOpen stamp s
  | .ldQuietGuardEnd now => Sys2Proof.Machine.execLdQuietGuardEnd now s
  | .ldQuietEnd stamp => Sys2Proof.Machine.execLdQuietEnd stamp s
  | .ldQuietVldEnd stamp => Sys2Proof.Machine.execLdQuietVldEnd stamp s
  | .qaOpenReceived tag stamp edge => Sys2Proof.Machine.execQaOpenReceived tag stamp edge s
  | .qaEndReceived tag cause stamp => Sys2Proof.Machine.execQaEndReceived tag cause stamp s
  | .qaRefusedReceived tag cause stamp => Sys2Proof.Machine.execQaRefusedReceived tag cause stamp s
  | .coreQuietClose edge => Sys2Proof.Machine.execCoreQuietClose edge s
  | .qwDroopOverride edge vaux => Sys2Proof.Machine.execQwDroopOverride edge vaux s
  | .sourceValid src mv => Sys2Proof.Machine.execSourceValid src mv s
  | .sourceInvalid src ov => Sys2Proof.Machine.execSourceInvalid src ov s
  | .sourceSwitchClose => Sys2Proof.Machine.execSourceSwitchClose s
  | .srTurnOn vaux => Sys2Proof.Machine.execSrTurnOn vaux s
  | .srTurnOff => Sys2Proof.Machine.execSrTurnOff s
  | .srMaxOnTime => Sys2Proof.Machine.execSrMaxOnTime s
  | .chgEnWrite p v => Sys2Proof.Machine.execChgEnWrite p v s
  | .chgStateTest vbat vsys imeas => Sys2Proof.Machine.execChgStateTest vbat vsys imeas s
  | .chgTermination => Sys2Proof.Machine.execChgTermination s
  | .chgSafetyTimerExpire t => Sys2Proof.Machine.execChgSafetyTimerExpire t s
  | .chgOvercurrent => Sys2Proof.Machine.execChgOvercurrent s
  | .chgOvertemp => Sys2Proof.Machine.execChgOvertemp s
  | .chgOvertempResume => Sys2Proof.Machine.execChgOvertempResume s
  | .vaonToVbak => Sys2Proof.Machine.execVaonToVbak s
  | .vaonToVsys => Sys2Proof.Machine.execVaonToVsys s
  | .binPowerOnReset => Sys2Proof.Machine.execBinPowerOnReset s
  | .vbakCheck mv => Sys2Proof.Machine.execVbakCheck mv s
  | .secondsTick => Sys2Proof.Machine.execSecondsTick s
  | .calCmdSetr p => Sys2Proof.Machine.execCalCmdSetr p s
  | .calCmdSett p => Sys2Proof.Machine.execCalCmdSett p s
  | .calCmdCancel p => Sys2Proof.Machine.execCalCmdCancel p s
  | .setrLoad => Sys2Proof.Machine.execSetrLoad s
  | .shiftWrite p v => Sys2Proof.Machine.execShiftWrite p v s
  | .trimCycleStart => Sys2Proof.Machine.execTrimCycleStart s
  | .trimCorrection => Sys2Proof.Machine.execTrimCorrection s
  | .xtalFail => Sys2Proof.Machine.execXtalFail s
  | .xtalRecover => Sys2Proof.Machine.execXtalRecover s
  | .trRunStart p => Sys2Proof.Machine.execTrRunStart p s
  | .trRunAbort p => Sys2Proof.Machine.execTrRunAbort p s
  | .trimMeasOpen => Sys2Proof.Machine.execTrimMeasOpen s
  | .trimMeasDone => Sys2Proof.Machine.execTrimMeasDone s
  | .wakeTick => Sys2Proof.Machine.execWakeTick s
  | .evtEdge pin rising samples => Sys2Proof.Machine.execEvtEdge pin rising samples s
  | .ppsEdge => Sys2Proof.Machine.execPpsEdge s
  | .stampedClear p pin => Sys2Proof.Machine.execStampedClear p pin s
  | .llValidClear p => Sys2Proof.Machine.execLlValidClear p s
  | .fsoValidClear p w => Sys2Proof.Machine.execFsoValidClear p w s
  | .sysonOnWrite p v => Sys2Proof.Machine.execSysonOnWrite p v s
  | .pwrkeyShort ms => Sys2Proof.Machine.execPwrkeyShort ms s
  | .pwrkeyLong ms => Sys2Proof.Machine.execPwrkeyLong ms s
  | .pwrkeyHardoff ms => Sys2Proof.Machine.execPwrkeyHardoff ms s
  | .cmpTrip x mv results => Sys2Proof.Machine.execCmpTrip x mv results s
  | .awakeHigh samples => Sys2Proof.Machine.execAwakeHigh samples s
  | .idleTimerExpire d edges => Sys2Proof.Machine.execIdleTimerExpire d edges s
  | .waitInstruction targets => Sys2Proof.Machine.execWaitInstruction targets s
  | .deferredEntry d => Sys2Proof.Machine.execDeferredEntry d s
  | .domainEntryDone d => Sys2Proof.Machine.execDomainEntryDone d s
  | .domainOnDone d vdrv => Sys2Proof.Machine.execDomainOnDone d vdrv s
  | .cpuResetRelease => Sys2Proof.Machine.execCpuResetRelease s
  | .padHoldRelease d => Sys2Proof.Machine.execPadHoldRelease d s
  | .xo16StartFail => Sys2Proof.Machine.execXo16StartFail s
  | .brownOutReset => Sys2Proof.Machine.execBrownOutReset s
  | .watchdogReset => Sys2Proof.Machine.execWatchdogReset s
  | .lockupReset => Sys2Proof.Machine.execLockupReset s
  | .resetRelease => Sys2Proof.Machine.execResetRelease s
  | .keepWrite p target v => Sys2Proof.Machine.execKeepWrite p target v s
  | .ringWrite p n => Sys2Proof.Machine.execRingWrite p n s
  | .fwtimerExpire => Sys2Proof.Machine.execFwtimerExpire s
  | .spiCsFall second sck => Sys2Proof.Machine.execSpiCsFall second sck s
  | .spiLive => Sys2Proof.Machine.execSpiLive s
  | .spiWriteByte a b => Sys2Proof.Machine.execSpiWriteByte a b s
  | .spiReadByte a complete => Sys2Proof.Machine.execSpiReadByte a complete s
  | .spiRing n => Sys2Proof.Machine.execSpiRing n s
  | .spiBadOpcode op => Sys2Proof.Machine.execSpiBadOpcode op s
  | .spiCsRise second partialBits => Sys2Proof.Machine.execSpiCsRise second partialBits s
  | .spiCsClash partialBits => Sys2Proof.Machine.execSpiCsClash partialBits s
  | .twAddressMatch addr read => Sys2Proof.Machine.execTwAddressMatch addr read s
  | .twAsyncTakeover => Sys2Proof.Machine.execTwAsyncTakeover s
  | .twWakeFail => Sys2Proof.Machine.execTwWakeFail s
  | .twReceiveByte n => Sys2Proof.Machine.execTwReceiveByte n s
  | .twReadByte extra n => Sys2Proof.Machine.execTwReadByte extra n s
  | .twReadWord extra n => Sys2Proof.Machine.execTwReadWord extra n s
  | .twFixedRead block extra n complete => Sys2Proof.Machine.execTwFixedRead block extra n complete s
  | .twRing bytes => Sys2Proof.Machine.execTwRing bytes s
  | .twBlockWrite code bytes => Sys2Proof.Machine.execTwBlockWrite code bytes s
  | .twProcessCall bytes n complete => Sys2Proof.Machine.execTwProcessCall bytes n complete s
  | .twPointerWrite bytes => Sys2Proof.Machine.execTwPointerWrite bytes s
  | .twPtrBlockWrite bytes => Sys2Proof.Machine.execTwPtrBlockWrite bytes s
  | .twPtrBlockRead n complete => Sys2Proof.Machine.execTwPtrBlockRead n complete s
  | .twClockLowTimeout => Sys2Proof.Machine.execTwClockLowTimeout s
  | .twStuckTimeout => Sys2Proof.Machine.execTwStuckTimeout s
  | .twBusRecovery releasedAt => Sys2Proof.Machine.execTwBusRecovery releasedAt s
  | .sbsReadDue => Sys2Proof.Machine.execSbsReadDue s
  | .sbsBusFree => Sys2Proof.Machine.execSbsBusFree s
  | .twArbLost addrByte => Sys2Proof.Machine.execTwArbLost addrByte s
  | .twArbSr => Sys2Proof.Machine.execTwArbSr s
  | .sbsReadComplete how words => Sys2Proof.Machine.execSbsReadComplete how words s
  | .probeTransferDone how bytes => Sys2Proof.Machine.execProbeTransferDone how bytes s
  | .probeWritePoll acked => Sys2Proof.Machine.execProbeWritePoll acked s
  | .probePollTimeout => Sys2Proof.Machine.execProbePollTimeout s
  | .probeBusConflict => Sys2Proof.Machine.execProbeBusConflict s
  | .probeTimeout stuck recovered => Sys2Proof.Machine.execProbeTimeout stuck recovered s
  | .firmwareStart => Sys2Proof.Machine.execFirmwareStart s
  | .firmwareTakeRequest b => Sys2Proof.Machine.execFirmwareTakeRequest b s
  | .macLockExpire b => Sys2Proof.Machine.execMacLockExpire b s
  | .ringRdWrite p b v => Sys2Proof.Machine.execRingRdWrite p b v s
  | .firmwareRequestReset => Sys2Proof.Machine.execFirmwareRequestReset s
  | .fwProbationEnd => Sys2Proof.Machine.execFwProbationEnd s
  | .logbookEntryDurable => Sys2Proof.Machine.execLogbookEntryDurable s
  | .configStoreDurable => Sys2Proof.Machine.execConfigStoreDurable s
  | .logQuotaWindow => Sys2Proof.Machine.execLogQuotaWindow s
  | .eventDeliver => Sys2Proof.Machine.execEventDeliver s
  | .pendClear p b k mask => Sys2Proof.Machine.execPendClear p b k mask s
  | .soundingDue p => Sys2Proof.Machine.execSoundingDue p s
  | .soundingDelayedStart p => Sys2Proof.Machine.execSoundingDelayedStart p s
  | .shotQuietRequest edge lclk => Sys2Proof.Machine.execShotQuietRequest edge lclk s
  | .shotFire edge lclk vdrv launch => Sys2Proof.Machine.execShotFire edge lclk vdrv launch s
  | .driveOvercurrent edge ma => Sys2Proof.Machine.execDriveOvercurrent edge ma s
  | .captureOpen edge => Sys2Proof.Machine.execCaptureOpen edge s
  | .captureClose samples => Sys2Proof.Machine.execCaptureClose samples s
  | .flowQuietExpire p => Sys2Proof.Machine.execFlowQuietExpire p s
  | .holdExpire p => Sys2Proof.Machine.execHoldExpire p s
  | .arrivalLearnDone => Sys2Proof.Machine.execArrivalLearnDone s
  | .leewayCalDone => Sys2Proof.Machine.execLeewayCalDone s
  | .rtdSetDue => Sys2Proof.Machine.execRtdSetDue s
  | .rtdConversionStart => Sys2Proof.Machine.execRtdConversionStart s
  | .rtdConversionDone t => Sys2Proof.Machine.execRtdConversionDone t s
  | .rtdDischargeTimeout => Sys2Proof.Machine.execRtdDischargeTimeout s
  | .rtdSetStale p => Sys2Proof.Machine.execRtdSetStale p s
  | .totalsPeriodicSave => Sys2Proof.Machine.execTotalsPeriodicSave s
  | .powerfailSave => Sys2Proof.Machine.execPowerfailSave s
  | .gaugeConversionEnd adc => Sys2Proof.Machine.execGaugeConversionEnd adc s
  | .restWindowComplete => Sys2Proof.Machine.execRestWindowComplete s
  | .gaugeTelemetry bsns rts => Sys2Proof.Machine.execGaugeTelemetry bsns rts s
  | .fixAttempt bsns rts => Sys2Proof.Machine.execFixAttempt bsns rts s
  | .learnAgeExpire => Sys2Proof.Machine.execLearnAgeExpire s
  | .nop b => Sys2Proof.Machine.execNop b s
  | .version b => Sys2Proof.Machine.execVersion b s
  | .status b => Sys2Proof.Machine.execStatus b s
  | .reset b => Sys2Proof.Machine.execReset b s
  | .routeSet b => Sys2Proof.Machine.execRouteSet b s
  | .routeGet b => Sys2Proof.Machine.execRouteGet b s
  | .logRead b => Sys2Proof.Machine.execLogRead b s
  | .charterRead b => Sys2Proof.Machine.execCharterRead b s
  | .charterStage b => Sys2Proof.Machine.execCharterStage b s
  | .charterCommit b => Sys2Proof.Machine.execCharterCommit b s
  | .charterDiscard b => Sys2Proof.Machine.execCharterDiscard b s
  | .seal b => Sys2Proof.Machine.execSeal b s
  | .unseal b => Sys2Proof.Machine.execUnseal b s
  | .pdPolicy b => Sys2Proof.Machine.execPdPolicy b s
  | .wakePolicy b => Sys2Proof.Machine.execWakePolicy b s
  | .convCtlStop b => Sys2Proof.Machine.execConvCtlStop b s
  | .convCtlRestart b => Sys2Proof.Machine.execConvCtlRestart b s
  | .policyGet b => Sys2Proof.Machine.execPolicyGet b s
  | .timeSet b => Sys2Proof.Machine.execTimeSet b s
  | .timeShift b => Sys2Proof.Machine.execTimeShift b s
  | .trimPolicy b => Sys2Proof.Machine.execTrimPolicy b s
  | .trimGet b => Sys2Proof.Machine.execTrimGet b s
  | .gaugeCfgWrite b => Sys2Proof.Machine.execGaugeCfgWrite b s
  | .gaugeCfgRead b => Sys2Proof.Machine.execGaugeCfgRead b s
  | .gaugeProfile b => Sys2Proof.Machine.execGaugeProfile b s
  | .gaugeSave b => Sys2Proof.Machine.execGaugeSave b s
  | .gaugeRestore b => Sys2Proof.Machine.execGaugeRestore b s
  | .acqWrite b => Sys2Proof.Machine.execAcqWrite b s
  | .acqRead b => Sys2Proof.Machine.execAcqRead b s
  | .flowWrite b => Sys2Proof.Machine.execFlowWrite b s
  | .flowRead b => Sys2Proof.Machine.execFlowRead b s
  | .rtdWrite b => Sys2Proof.Machine.execRtdWrite b s
  | .rtdRead b => Sys2Proof.Machine.execRtdRead b s
  | .cardWrite b => Sys2Proof.Machine.execCardWrite b s
  | .cardRead b => Sys2Proof.Machine.execCardRead b s
  | .fluidWrite b => Sys2Proof.Machine.execFluidWrite b s
  | .fluidRead b => Sys2Proof.Machine.execFluidRead b s
  | .pathPorts b => Sys2Proof.Machine.execPathPorts b s
  | .arrivalLearn b => Sys2Proof.Machine.execArrivalLearn b s
  | .leewayCal b => Sys2Proof.Machine.execLeewayCal b s
  | .calResult b => Sys2Proof.Machine.execCalResult b s
  | .totalsRead b => Sys2Proof.Machine.execTotalsRead b s
  | .totalsReset b => Sys2Proof.Machine.execTotalsReset b s
  | .w2w b => Sys2Proof.Machine.execW2w b s
  | .fluidProps b => Sys2Proof.Machine.execFluidProps b s
  | .fwBegin b => Sys2Proof.Machine.execFwBegin b s
  | .fwData b => Sys2Proof.Machine.execFwData b s
  | .fwVerify b => Sys2Proof.Machine.execFwVerify b s
  | .fwActivate b => Sys2Proof.Machine.execFwActivate b s
  | .fwInfo b => Sys2Proof.Machine.execFwInfo b s
  | .probeCfg b => Sys2Proof.Machine.execProbeCfg b s
  | .probeRead b => Sys2Proof.Machine.execProbeRead b s
  | .probeWrite b => Sys2Proof.Machine.execProbeWrite b s
  | .prescalerCount key => Sys2Proof.Machine.execPrescalerCount key s
  | .binPorRelease => Sys2Proof.Machine.execBinPorRelease s
  | .vddioReturn => Sys2Proof.Machine.execVddioReturn s
  | .pllcLock => Sys2Proof.Machine.execPllcLock s
  | .dieTemp => Sys2Proof.Machine.execDieTemp s
  | .flashEcc => Sys2Proof.Machine.execFlashEcc s

end Sys2Proof.Machine
end

