-- ==== Sys2Proof/Machine/PadState.lean ====
section
/-! DEFINITION. What each output pad does, read out of the state (R22 to R30, R493): the interrupt pins, MISO, the two-wire
lines, the link test pads, the Binnacle's outputs, the rectifier and charger nodes and the transducer ports. -/

namespace Sys2Proof.Machine

/-- What a pad does: high-impedance or released, low, driven high, or at rest on its PD resistor. -/
inductive PadLevel where
  | z | low | high | pd
  deriving DecidableEq, Repr

/-! ## Pads referred to VDDIO (R22, R27, R493) -/

/-- The pads referred to VDDIO can drive: VDDIO and VAON are present. DEDUCED (log 55): VAON counts as absent while the Binnacle
is held in reset. -/
def State.hostPads (s : State) : Bool := s.spi.vddio && !s.bin.held

/-- IRQ_A (0) or IRQ_B (1): low when asserted, else released or driven to VDDIO; high-impedance with NRST low (R27, R311). -/
def State.irqPad (s : State) (k : Fin 2) : PadLevel :=
  if !s.hostPads || s.dom.nrstLow then .z
  else if s.irqPins.getLsbD k.val then .low
  else if s.irqPush.getLsbD k.val then .high else .z

/-- MISO is driven: exactly one chip select that is not ignored is low (R27, R30, R201, R202). -/
def State.misoDriven (s : State) : Bool := s.hostPads && !s.dom.nrstLow && s.spi.xfer.isSome

/-- What a side of the link sends: nothing, half-bits, or a beacon burst (R62, R64, R75). -/
inductive LinkSignal where
  | silent
  | halves (bits : List Bool)
  | burst
  deriving DecidableEq, Repr

/-- The core-to-line signal: a STOP symbol, a frame, or the idle line's 1s while downlink frames run (R62 to R64, R72). -/
def Link.signal (l : Link) : LinkSignal :=
  if l.stopSymbolDue then .halves stopSymbol
  else match l.downFlight with
    | some f => .halves (manchester f.bits)
    | none => if l.downlinkRuns then .halves (manchester [true]) else .silent

/-- The line-to-core signal: beacon bursts, a frame, or the idle line's 1s while the line die runs (R62, R63, R75). -/
def LineDie.signal (l : LineDie) : LinkSignal :=
  if !l.running then .silent
  else if l.beacon then .burst
  else match l.upFlight with
    | some f => .halves (manchester f.bits)
    | none => .halves (manchester [true])

/-- The link test pads replicate while HIF is ON and LTP_EN is 1; they are released otherwise (R22, R30, R77). -/
def State.ltpOn (s : State) : Bool := s.hostPads && !s.dom.nrstLow && s.isOn .hif && s.link.ltpEn

/-- LTP0 and LTP1; none is released (R77). -/
def State.ltp0 (s : State) : Option LinkSignal := if s.ltpOn then some s.link.signal else none
def State.ltp1 (s : State) : Option LinkSignal := if s.ltpOn then some s.line.signal else none

/-- The level of LTP1 as a beacon burst passes (R77). -/
def LinkSignal.level : LinkSignal → Option PadLevel
  | .burst => some .high
  | _ => none

/-! ## Two-wire pads (R22, R24, R30, R31) -/

/-- HSCL as the module pulls it between transfers of its own: low only in the stretch of R226, which NRST ends. -/
def State.hsclPad (s : State) : PadLevel :=
  if s.tw.phase = .stretched ∧ s.bin.held = false ∧ s.dom.nrstLow = false then .low else .z

/-- The module may pull HSCL and HSDA as a controller (R228, R229). -/
def State.hostBusDriven (s : State) : Bool := s.tw.sbsActive && s.isOn .hif && s.isOn .cpu

/-- The module may pull PSCL and PSDA: a transfer whose START is not held runs with HIF and CPU ON (R24, R30, R236, R240). -/
def State.probeBusDriven (s : State) : Bool := s.probeRuns && ((s.tw.probe.map fun o => !o.held).getD false)

/-! ## Pads of the Binnacle (R28, R138, R148) -/

/-- SYSON pulls low while asserted, and is released otherwise (R148). -/
def State.sysonPad (s : State) : PadLevel := if s.bin.sysonOn then .low else .z

/-- SQW, an open-drain output: 2^n Hz from the prescaler, released in the first half of each period; at 32,768 Hz it follows
the counting source, whose level is `ck` (R138). -/
def State.sqwPad (s : State) (ck : Bool) : PadLevel :=
  let high := if s.bin.sqwSel = 15 then ck else !s.cal.subsec.getLsbD (14 - s.bin.sqwSel.toNat)
  if !s.bin.sqwEn || high then .z else .low

/-! ## Pads of PWR and LOG (R25, R94, R96, R166, R317 to R321) -/

/-- SRG is driven in every state (R94). -/
def State.srgPad (s : State) : PadLevel := if s.power.srg then .high else .low

/-- CHSW is high-impedance, or the charger's to switch (R96, R166). -/
def State.chswReleased (s : State) : Bool := s.power.chswZ

/-- UTnP and UTnN at grid point `g` after the latest fire edge: a burst, the low-side switches in series with the
termination, the PD resistors, or an input of the LNA (R25, R317 to R322). -/
def State.utPads (s : State) (n : Fin 4) (g : Nat) : PadLevel × PadLevel :=
  let level (b : Bool) : PadLevel := if b then .high else .low
  match s.portSt n, s.log.cur with
  | .driving inv _, some x =>
    match driveAt x.acq inv g with
    | some (p, q) => (level p, level q)
    | none => (.low, .low)
  | .driving _ _, none => (.low, .low)
  | .held _, _ => (.low, .low)
  | .receiving _ _, _ => (.z, .z)
  | .rest, _ => (.pd, .pd)

/-- The resistance that a port presents to its transducer once it has fired or while it receives, in ohms (R321). -/
def State.portOhms (s : State) (n : Fin 4) : Option Nat :=
  match s.portSt n with
  | .held z => termOhms z
  | .receiving _ z => termOhms z
  | _ => none

end Sys2Proof.Machine
end

