-- ==== Sys2Proof/Safety.lean ====
section
/-! DEFINITION. What the claims call a good state: for each part of the module, the bound or the order that the manual
gives it and that no command may break. -/

namespace Sys2Proof.Machine

/-- The memory of MEM_B and the scratch are canonical: addresses strictly rising, no entry equal to an unlisted byte. -/
def State.memOk (s : State) : Bool := Memory.wf s.berths.mem && Memory.wf s.bin.scratch

/-- The line die's queue of TLM frames holds at most eight (R69). -/
def LineDie.ok (l : LineDie) : Prop := l.tlmQ.length ≤ 8

/-- The scratch is canonical, and PPS mode exists on EVT3 only (R154, R157). -/
def BinIo.ok (b : BinIo) : Prop :=
  Memory.wf b.scratch = true ∧ ∀ i : Fin 4, i ≠ 3 → b.evts[i].pps = false

/-- The time lies in the 400-year cycle, and a commit is pending only for a staged time that passed its check (R118,
R126, R127). -/
def Cal.ok (c : Cal) : Prop := c.lsec.toNat < cycleSeconds ∧ (c.commit.isSome = true → c.stagedOk = true)

/-- The domain is on its way into a low state (R163). -/
def PdState.falling : PdState → Bool
  | .entering _ => true | _ => false

/-- The domains another one needs are ON while it is out of its low states; the CPU's entry begins with LOG's and ends after
it (R159). -/
def Domains.ok (d : Domains) : Prop :=
  (d.log.st.low = false →
    d.memM.st = .on ∧ (d.cpu.st = .on ∨ d.cpu.st.falling = true ∧ d.log.st.falling = true)) ∧
  (d.memB.st.low = false → d.hif.st = .on)

/-- A ring holds at most 128 unread records (R281, R282). -/
def Berth.ok (b : Berth) : Prop := b.unread ≤ 128

/-- The memory is canonical and every ring is within its 128 records. -/
def Berths.ok (x : Berths) : Prop := Memory.wf x.mem = true ∧ ∀ n : Fin 4, x.blk[n].ok

/-- ACC lies within its 48 bits, signed (R399). -/
def Gauge.ok (g : Gauge) : Prop := accMin ≤ g.acc ∧ g.acc ≤ accMax

/-- The logbook holds at most 192 totals entries and 64 audit entries (R292). -/
def Flash.ok (f : Flash) : Prop :=
  (f.logbook.filter LogEntry.isTotals).length ≤ 192 ∧ (f.logbook.filter fun e => !e.isTotals).length ≤ 64

/-- Every part is as its rules keep it. -/
structure State.Inv (s : State) : Prop where
  line : s.line.ok
  cal : s.cal.ok
  bin : s.bin.ok
  dom : s.dom.ok
  berths : s.berths.ok
  flash : s.flash.ok
  gauge : s.gauge.ok

/-! ## What a mailbox command finds -/

/-- Firmware runs and holds the request `rq` of command `cmd` for berth `b`, taken and not yet executed (R273). -/
structure State.InHand (s : State) (b : Fin 4) (cmd : Half) (rq : Request) : Prop where
  cur : (s.berth b).cur = some rq
  cpu : s.isOn .cpu = true
  started : s.fw.started = true
  code : rq.cmd = cmd
  fresh : rq.waiting = false

end Sys2Proof.Machine
end

