-- ==== Sys2Proof/Certificates/Slice0/Obligations.lean ====
section
/-! DEFINITION. The statements about the model, each made from the numbered rules that its docstring or its parts' docstrings
name. A statement of several parts names them as Claims, which stand before it. Wherever a command names an event that cannot
happen in the state, "nothing changes" is the model's choice (log 2). -/

open Sys2Proof Sys2Proof.Machine

/-! ## The machine as a whole -/

/-- A step runs the command at the front of the queue on the state with the queue's rest. The idling of an empty queue is
the model's choice (log 1). -/
def Obligations.StepRunsTheFrontCommand : Prop :=
  (∀ (c : Instr) (s : State) (rest : List Instr), s.pending = c :: rest → step s = exec c { s with pending := rest }) ∧
  ∀ s : State, s.pending = [] → step s = .next s

/-- Every command, with any operands and in any state, completes with a next state and leaves the queue alone: no ordinary
data stops the module. The model's choices that this rests on: log 2. -/
def Obligations.EveryCommandCompletes : Prop :=
  ∀ (c : Instr) (s : State), ∃ t, exec c s = .next t ∧ t.pending = s.pending

/-- R86, R111, R115, R120, R154, R158, R178, R185, R206, R244, R300, R308, R314, R423: what a power-on reset of the Binnacle
leaves, as the register tables give it. -/
def Sys2Proof.Claims.ResetLeavesTheTabledValues : Prop :=
  let s := State.reset
  (∀ d, (s.dom.get d).st = .off) ∧ s.dom.rstCause = 0x1 ∧ s.dom.pdLow = 0x555 ∧ s.dom.wakeEn = 0x0003F000 ∧ s.dom.bind = 0xFF ∧
  s.dom.wakeFlags = 0 ∧ s.dom.wakeLast = 0 ∧ s.dom.padHeld = 0 ∧ s.dom.keepA = 0 ∧ s.dom.keepB = 0 ∧ s.dom.keepW = 0 ∧
  s.link.state = .down ∧ s.link.lossFrac = 32 ∧ s.link.plim = 96 ∧ s.link.qwDroop = 40 ∧ s.link.lossCount = 0 ∧
  s.power.srEn = true ∧ s.power.chgEn = false ∧ s.power.vreg = 20 ∧ s.power.ichg = 20 ∧ s.power.ipre = 4 ∧ s.power.iterm = 4 ∧
  s.power.batcut = 6 ∧ s.power.tfast = 10 ∧ s.power.tpre = 6 ∧ s.power.cells = 0 ∧
  s.cal.lsec = 0 ∧ s.cal.subsec = 0 ∧ s.cal.commit = none ∧ s.cal.shift = none ∧
  s.trim.trim = 0 ∧ s.trim.k = 22 ∧ s.bin.tickSel = 8 ∧ s.bin.pkLong = 3 ∧ s.bin.scratch = [] ∧
  s.spi.accPort = 0b11 ∧ s.tw.rlen = 16 ∧ s.ev.pend = Vector.replicate 4 0 ∧ s.ev.routeOk = false ∧ s.ev.irqSel = 0 ∧
  (∀ e : Fin 96, e.val < 48 ∨ 64 ≤ e.val → s.ev.route[e] = 0) ∧
  (∀ n : Fin 4, s.berths.blk[n].ringWr = 0 ∧ s.berths.blk[n].ringRd = 0 ∧ s.berths.blk[n].ringThr = 1 ∧
    s.berths.blk[n].respRdy = false) ∧ s.berths.mem = [] ∧ s.gauge.stateValid = false ∧ s.gauge.qFull = 2000 ∧ s.gauge.acc = 0 ∧
  s.pending = []

/-- The state after reset meets every invariant. -/
def Sys2Proof.Claims.ResetMeetsTheInvariants : Prop := State.reset.Inv ∧ State.reset.memOk = true

/-- A power-on reset leaves the values of the register tables, and meets every invariant. -/
def Obligations.ResetLeavesTheTabledValues : Prop :=
  Sys2Proof.Claims.ResetLeavesTheTabledValues ∧
  Sys2Proof.Claims.ResetMeetsTheInvariants

/-- R154, R158: from every state whose memories are in canonical form, every step gives one whose memories are. The model's
choices that this rests on: log 5. -/
def Obligations.StepsKeepTheMemoriesCanonical : Prop :=
  ∀ s t : State, s.memOk = true → step s = .next t → t.memOk = true

/-- R281, R282: a step keeps every ring within its 128 unread records. -/
def Obligations.StepsKeepTheRingsBounded : Prop :=
  ∀ s t : State, (∀ n : Fin 4, s.berths.blk[n].ok) → step s = .next t → ∀ n : Fin 4, t.berths.blk[n].ok

/-- R159: a step keeps the order of the domains: LOG leaves its low states only with CPU and MEM_M ON, MEM_B only with HIF
ON, and they stay so. -/
def Obligations.StepsKeepTheDomainOrder : Prop :=
  ∀ s t : State, s.dom.ok → step s = .next t → t.dom.ok

/-- R118, R126, R127: a step keeps LSEC within its 400-year cycle, and a commit pending only for a staged time that passes
its check. -/
def Sys2Proof.Claims.StepsKeepTheTimeInItsCycle : Prop :=
  ∀ s t : State, s.cal.ok → step s = .next t → t.cal.ok

/-- R69, R157, R292, R399: a step keeps ACC within 48 bits, the logbook within 192 totals entries and 64 audit entries, the
TLM queue of the line die within eight frames, and PPS mode on EVT3 alone. -/
def Sys2Proof.Claims.StepsKeepTheCapacities : Prop :=
  ∀ s t : State, step s = .next t →
    (s.gauge.ok → t.gauge.ok) ∧ (s.flash.ok → t.flash.ok) ∧ (s.line.ok → t.line.ok) ∧ (s.bin.ok → t.bin.ok)

/-- Every step keeps LSEC in its cycle, ACC in 48 bits, the logbook and the TLM queue in their capacities. -/
def Obligations.StepsKeepTheCapacities : Prop :=
  Sys2Proof.Claims.StepsKeepTheTimeInItsCycle ∧
  Sys2Proof.Claims.StepsKeepTheCapacities

/-- R86, R246, R247, R252, R260: AUDIT_CTR changes by UNSEAL alone; LOSS_COUNT falls only by a power-on reset of the
Binnacle; the active charter changes only there, at a start of firmware, and as a seal or unseal becomes durable; the
bindings only at the first two. -/
def Obligations.CountersAndCharterChangeOnlyByTheirRules : Prop :=
  ∀ (c : Instr) (s t : State), exec c s = .next t →
    ((∀ b, c ≠ .unseal b) → t.flash.auditCtr = s.flash.auditCtr) ∧
    (c ≠ .binPowerOnReset → s.link.lossCount.toNat ≤ t.link.lossCount.toNat) ∧
    (c ∉ [Instr.binPowerOnReset, .firmwareStart, .logbookEntryDurable, .configStoreDurable] → t.fw.charter = s.fw.charter) ∧
    (c ∉ [Instr.binPowerOnReset, .firmwareStart] → t.dom.bind = s.dom.bind)

/-- The mailbox commands, each with its code (R433 to R459). -/
def Sys2Proof.Claims.mailboxRows : List ((Fin 4 → Instr) × Half) :=
  [(.nop, 0x0100), (.version, 0x0101), (.status, 0x0102), (.reset, 0x0103), (.routeSet, 0x0104), (.routeGet, 0x0105),
   (.logRead, 0x0106), (.charterRead, 0x0200), (.charterStage, 0x0201), (.charterCommit, 0x0202), (.charterDiscard, 0x0203),
   (.seal, 0x0204), (.unseal, 0x0205), (.pdPolicy, 0x0300), (.wakePolicy, 0x0301), (.convCtlStop, 0x0302),
   (.convCtlRestart, 0x0302), (.policyGet, 0x0303), (.timeSet, 0x0400), (.timeShift, 0x0401), (.trimPolicy, 0x0402),
   (.trimGet, 0x0403)] ++
  [(.gaugeCfgWrite, 0x0500), (.gaugeCfgRead, 0x0501), (.gaugeProfile, 0x0502), (.gaugeSave, 0x0503), (.gaugeRestore, 0x0504),
   (.acqWrite, 0x0600), (.acqRead, 0x0601), (.flowWrite, 0x0602), (.flowRead, 0x0603), (.rtdWrite, 0x0604), (.rtdRead, 0x0605),
   (.cardWrite, 0x0606), (.cardRead, 0x0607), (.fluidWrite, 0x0608), (.fluidRead, 0x0609), (.pathPorts, 0x060A),
   (.arrivalLearn, 0x060B), (.leewayCal, 0x060C), (.calResult, 0x060D), (.totalsRead, 0x060E), (.totalsReset, 0x060F)] ++
  [(.w2w, 0x0700), (.fluidProps, 0x0701), (.fwBegin, 0x0800), (.fwData, 0x0801), (.fwVerify, 0x0802), (.fwActivate, 0x0803),
   (.fwInfo, 0x0804), (.probeCfg, 0x0900), (.probeRead, 0x0901), (.probeWrite, 0x0902)]

/-- R250, R273: a mailbox command acts for a berth only while firmware runs and holds that berth's request, of that command
and not yet executed; otherwise nothing happens. The model's choices that this rests on: log 2. -/
def Obligations.CommandsNeedTheirRequest : Prop :=
  ∀ (b : Fin 4) (s : State), ∀ r ∈ Sys2Proof.Claims.mailboxRows,
    (s.isOn .cpu = false ∨ s.fw.started = false ∨ s.berths.blk[b].cur = none ∨
      (∀ rq, s.berths.blk[b].cur = some rq → rq.cmd ≠ r.2 ∨ rq.waiting = true)) → exec (r.1 b) s = .next s

/-- R264 to R268, R273 to R275, R279: an answer ends the berth's request with its status; for an accepted request the response
is stored. Unless it is OK and no response is wanted, the response frame stands in the response mailbox: CMD and SEQ of the
request, FLAGS bit 7, LEN, HCRC, the status and what follows it, and a MAC under the next counter where the request's was
verified; RESP_RDY is 1 and EV48 + berth is raised. No other byte of memory and no other berth changes. (That an OK which is
not wanted is stored all the same is the model's reading, log 46.) -/
def Obligations.AnswersArePosted : Prop :=
  ∀ (b : Fin 4) (s : State) (st : Status) (rest : List Byte),
    let t := s.answer b st rest
    t = { s with berths := t.berths, ev := t.ev, dom := t.dom } ∧ (∀ n, n ≠ b → t.berths.blk[n] = s.berths.blk[n]) ∧
    (s.berths.blk[b].cur = none → t = s) ∧
    (∀ rq, s.berths.blk[b].cur = some rq → t.berths.blk[b].cur = none ∧
      (rq.accepted = true → t.berths.blk[b].lastStatus = st.code ∧ t.berths.blk[b].lastFrame = rq.frame ∧
        t.berths.blk[b].stored = some (responseFrame s.fw.charter.entries[b].key b rq (st.code :: rest))) ∧
      (rq.accepted = false → t.berths.blk[b].lastStatus = s.berths.blk[b].lastStatus ∧
        t.berths.blk[b].lastFrame = s.berths.blk[b].lastFrame ∧ t.berths.blk[b].stored = s.berths.blk[b].stored) ∧
      (st = .ok ∧ rq.flags.getLsbD 1 = false → t.ev = s.ev ∧ t.dom = s.dom ∧ t.berths.mem = s.berths.mem ∧
        t.berths.blk[b].respRdy = s.berths.blk[b].respRdy) ∧
      (st ≠ .ok ∨ rq.flags.getLsbD 1 = true →
        let len := 1 + rest.length
        let size := 8 + len + (if rq.mac then 8 else 0)
        let base := windowBase b.val + 0x100
        let got (k : Nat) : Byte := memRead t.berths.mem (base + k)
        t.berths.blk[b].respRdy = true ∧ t.ev.raised.getLsbD (48 + b.val) = true ∧
        got 0 = rq.cmd.setWidth 8 ∧ got 1 = (rq.cmd >>> 8).setWidth 8 ∧ got 2 = rq.seq ∧
        got 3 = (if rq.mac then 0x81 else 0x80) ∧ (len < 65536 → leAt [got 4, got 5] 0 2 = len) ∧
        leAt [got 6, got 7] 0 2 = (crc16 [got 0, got 1, got 2, got 3, got 4, got 5]).toNat ∧
        got 8 = st.code ∧ (∀ k < rest.length, got (9 + k) = rest.getD k 0) ∧
        (rq.mac = true → ∀ k < 8, got (8 + len + k) = (macOf s.fw.charter.entries[b].key b (rq.ctr + 1)
          (header rq.cmd rq.seq 0x81 len) (st.code :: rest)).getD k 0) ∧
        ∀ a, a < base ∨ base + size ≤ a → memRead t.berths.mem a = memRead s.berths.mem a))

/-- R280, R281, R283: while firmware runs and MEM_B is ON, a record enters its berth's ring at RING_WR: 6 bytes of time, type,
path, flags with GAP where a record was dropped since, RSEQ, and the payload; RING_WR and RSEQ advance and the threshold
raises EV56 + berth. A full ring drops it: RING_OVF, its count, GAP and, once, EV60 + berth. No other byte and no other berth
changes. -/
def Obligations.RecordsEnterTheRing : Prop :=
  ∀ (b : Fin 4) (s : State) (stamp : BitVec 64) (kind path flags : Byte) (payload : List Byte), s.ringsUp = true →
    let k := s.berths.blk[b]
    let t := s.record b stamp kind path flags payload
    let k' := t.berths.blk[b]
    t = { s with berths := t.berths, ev := t.ev, dom := t.dom } ∧ (∀ n, n ≠ b → t.berths.blk[n] = s.berths.blk[n]) ∧
    k'.rseq = k.rseq + 1 ∧ k'.ringRd = k.ringRd ∧
    (k.unread = 128 → k'.ringWr = k.ringWr ∧ k'.ringOvf = true ∧ k'.gap = true ∧ k'.ringOvfCnt = satInc k.ringOvfCnt ∧
      t.berths.mem = s.berths.mem ∧ (k.gap = false → t.ev.raised.getLsbD (60 + b.val) = true) ∧ (k.gap = true → t.ev = s.ev)) ∧
    (k.unread ≠ 128 →
      let base := ringBase b.val + 32 * (k.ringWr.toNat % 128)
      k'.ringWr = k.ringWr + 1 ∧ k'.gap = false ∧ k'.ringOvf = k.ringOvf ∧
      (∀ j < 6, memRead t.berths.mem (base + j) = (timeBytes stamp).getD j 0) ∧
      memRead t.berths.mem (base + 6) = kind ∧ memRead t.berths.mem (base + 7) = path ∧
      memRead t.berths.mem (base + 8) = (if k.gap then flags ||| 0x80 else flags) ∧
      memRead t.berths.mem (base + 9) = k.rseq ∧
      (∀ j < 22, memRead t.berths.mem (base + 10 + j) = payload.getD j 0) ∧
      (∀ a, a < base ∨ base + 32 ≤ a → memRead t.berths.mem a = memRead s.berths.mem a) ∧
      (k.unread + 1 = max 1 (min 128 k.ringThr.toNat) → t.ev.raised.getLsbD (56 + b.val) = true) ∧
      (k.unread + 1 ≠ max 1 (min 128 k.ringThr.toNat) → t.ev = s.ev))

/-! ## The line die -/

/-- R44, R45, R46, R50, R491: VLD at 11.5 V starts a stopped line die afresh under the beacon, switching with a soft-start
from 100 V to 450 V, waiting below, and stopped with EVT 0x03 above; reaching brown-in ends the wait with a soft-start
unless a stop or a hold is in force; the soft-start ends; GOODBYE queues EVT 0x07; VLD below 7.5 V turns the source on and
clears all else. -/
def Sys2Proof.Claims.LineDieStartsAndStops : Prop :=
  ∀ (s : State) (stamp : Word), (s.line.running = false →
      (∀ hvin, 450000 < hvin → exec (.lineDieStart hvin stamp) s = .next { s with line :=
        { sourceOn := false, running := true, beacon := true, softOwed := true, stops := [.overVoltage]
          evtQ := [⟨0x03, stamp⟩] } }) ∧
      (∀ hvin, hvin ≤ 450000 → 100000 ≤ hvin → exec (.lineDieStart hvin stamp) s = .next { s with line :=
        { sourceOn := false, running := true, beacon := true, switching := true, begun := true, softStart := true } }) ∧
      (∀ hvin, hvin < 100000 → exec (.lineDieStart hvin stamp) s = .next { s with line :=
        { sourceOn := false, running := true, beacon := true, waitBrownIn := true, softOwed := true } }) ∧
      ∀ c ∈ [Instr.brownIn, .softStartEnd, .lineDieStop, .goodbyeSend stamp], exec c s = .next s) ∧
    (s.line.running = true →
      (∀ hvin, exec (.lineDieStart hvin stamp) s = .next s) ∧
      (s.line.waitBrownIn = true → s.line.stops = [] → s.line.hold = false → exec .brownIn s = .next { s with line :=
        { s.line with waitBrownIn := false, switching := true, begun := true, softStart := true, softOwed := false } }) ∧
      (s.line.waitBrownIn = true → s.line.stops ≠ [] ∨ s.line.hold = true → exec .brownIn s = .next { s with line :=
        { s.line with waitBrownIn := false, softOwed := true } }) ∧
      exec .softStartEnd s = .next { s with line := { s.line with softStart := false } } ∧
      exec .lineDieStop s = .next { s with line := { sourceOn := true } } ∧
      exec (.goodbyeSend stamp) s = .next { s with line := s.line.pushEvt 0x07 stamp })

/-- The stops of R50 that the line die itself makes: the command, the stop, and whether its condition holds: a brown-out
counts once switching has begun; a short circuit needs the switch; so does an overload, at PLIM under SSR and 12 W under PSR
(R44, R45, R47). -/
def Sys2Proof.Claims.stopRows (stamp : Word) (mw : Nat) (l : LineDie) : List (Instr × StopCause × Bool) :=
  [(.hvinBrownOut stamp, .brownOut, l.begun), (.hvinOvervoltage stamp, .overVoltage, true),
   (.switchShortCircuit stamp, .shortCircuit, l.switching),
   (.overloadStop stamp mw, .overload, l.switching && decide ((if l.ssr then 250 * l.plim.toNat else 12000) ≤ mw)),
   (.overtempStop stamp, .overTemp, true), (.vldOvLatch stamp, .vldLatch, true)]

/-- R50: each condition the line die detects stops the switch and queues its EVT code once, and a soft-start it breaks off is
owed again; a stop already in force, or a condition that does not hold, changes nothing. -/
def Sys2Proof.Claims.ProtectionsStopTheSwitch : Prop :=
  ∀ (s : State) (stamp : Word) (mw : Nat), s.line.running = true →
    let l := s.line
    let stopped (c : StopCause) (code : Byte) : State := { s with line :=
      ({ l with
         stops := l.stops ++ [c], switching := false, softStart := false
         softOwed := l.softOwed || l.softStart }.pushEvt code stamp) }
    (.brownOut ∉ l.stops → l.begun = true → exec (.hvinBrownOut stamp) s = .next (stopped .brownOut 0x0A)) ∧
    (.overVoltage ∉ l.stops → exec (.hvinOvervoltage stamp) s = .next (stopped .overVoltage 0x03)) ∧
    (.shortCircuit ∉ l.stops → l.switching = true → exec (.switchShortCircuit stamp) s = .next (stopped .shortCircuit 0x04)) ∧
    (.overload ∉ l.stops → l.switching = true → (if l.ssr then 250 * l.plim.toNat else 12000) ≤ mw →
      exec (.overloadStop stamp mw) s = .next (stopped .overload 0x06)) ∧
    (.overTemp ∉ l.stops → exec (.overtempStop stamp) s = .next (stopped .overTemp 0x05)) ∧
    (.vldLatch ∉ l.stops → exec (.vldOvLatch stamp) s = .next (stopped .vldLatch 0x0B)) ∧
    ∀ r ∈ Sys2Proof.Claims.stopRows stamp mw l, r.2.1 ∈ l.stops ∨ r.2.2 = false → exec r.1 s = .next s

/-- The recoveries of R50 on the line die: the command, the stops it lifts, and whether switching resumes with a
soft-start. -/
def Sys2Proof.Claims.liftRows : List (Instr × List StopCause × Bool) :=
  [(.brownIn, [.brownOut], true), (.hvinOvResume, [.overVoltage], false),
   (.overtempResume, [.overTemp], true), (.faultRestart, [.shortCircuit, .overload], true)]

/-- R50: each recovery lifts its stops; switching resumes once no stop and no hold is left, with a soft-start where its own
row or one lifted before it asks for one; where none of its stops is in force nothing changes. (Waiting for brown-in,
BROWN_IN is the start of R45.) -/
def Sys2Proof.Claims.RecoveriesLiftTheirStops : Prop :=
  ∀ s : State, s.line.running = true → s.line.waitBrownIn = false →
    let l := s.line
    let resumed (soft : Bool) : State := { s with line :=
      { l with stops := [], switching := true, begun := true, softStart := l.softOwed || soft, softOwed := false } }
    (l.hold = false → l.stops ≠ [] →
      ((∀ c ∈ l.stops, c = .brownOut) → exec .brownIn s = .next (resumed true)) ∧
      ((∀ c ∈ l.stops, c = .overVoltage) → exec .hvinOvResume s = .next (resumed false)) ∧
      ((∀ c ∈ l.stops, c = .overTemp) → exec .overtempResume s = .next (resumed true)) ∧
      ((∀ c ∈ l.stops, c = .shortCircuit ∨ c = .overload) → exec .faultRestart s = .next (resumed true))) ∧
    ∀ r ∈ Sys2Proof.Claims.liftRows,
    ((∃ c ∈ s.line.stops, c ∈ r.2.1) →
      ((∃ c ∈ s.line.stops, c ∉ r.2.1) ∨ s.line.hold = true → exec r.1 s = .next { s with line :=
        { s.line with
          stops := s.line.stops.filter fun c => !r.2.1.contains c, softOwed := s.line.softOwed || r.2.2 } })) ∧
    ((∀ c ∈ s.line.stops, c ∉ r.2.1) → exec r.1 s = .next s)

/-- The line die starts, stops, and its protections stop and release the switch. The model's choices that this rests on:
logs 2, 10 and 61. -/
def Obligations.LineDieStartsAndItsProtectionsStopIt : Prop :=
  Sys2Proof.Claims.LineDieStartsAndStops ∧
  Sys2Proof.Claims.ProtectionsStopTheSwitch ∧
  Sys2Proof.Claims.RecoveriesLiftTheirStops

/-- R64, R65: every frame of the uplink and of the downlink is read back as it was sent from the bits that carry it, start
bit, type code, payload and CRC; so bits that carry a frame are discarded in neither direction that sends it. -/
def Sys2Proof.Claims.FramesAreReadAsTheyAreSent : Prop :=
  (∀ f : UpFrame, UpFrame.read f.bits = some f ∧ discards .up f.bits = false) ∧
  ∀ f : DownFrame, DownFrame.read f.bits = some f ∧ discards .down f.bits = false

/-- R48, R52, R53, R68, R81, R86: what the line die does with a REG frame of each mode and a CFG frame that arrive, and when
the downlink stays silent for 20 µs or, under a hold, for 1 s. The frame leaves the wire and the next one starts. A frame
that is not in flight does not arrive. -/
def Sys2Proof.Claims.LineDieObeysTheDownlink : Prop :=
  ∀ (s : State) (d : BitVec 12) (stamp : Word), s.line.running = true →
    let free := s.line.stops.isEmpty && !s.line.waitBrownIn
    let again := s.line.hold && free
    let taken : Link := Link.send { s.link with downFlight := none }
    let heard : LineDie := LineDie.send { s.line with downlink := true, beacon := false }
    let reg : LineDie :=
      { heard with
        demand := d, lossRepeat := none, hold := false
        switching := s.line.switching || again, begun := s.line.begun || again
        softStart := s.line.softStart || again, softOwed := (s.line.softOwed || s.line.hold) && !again }
    (s.link.downFlight = some (.reg .run d) → exec (.regRun d) s = .next { s with
      link := taken
      line := { reg with
        runStreak := min 8 (s.line.runStreak + 1), ssr := s.line.ssr || decide (7 ≤ s.line.runStreak) } }) ∧
    (s.link.downFlight = some (.reg .override d) →
      (s.line.quietOpen = false → exec (.regOverride d stamp) s = .next { s with
        link := taken, line := { reg with runStreak := 0 } }) ∧
      (s.line.quietOpen = true → exec (.regOverride d stamp) s = .next { s with
        link := taken
        line := LineDie.send { reg with
          runStreak := 0, quiet := none, quietOpen := false
          guard := some (stamp, ((s.line.quiet.map fun q => q.len.toNat).getD 0) + 250)
          qaQ := heard.qaQ ++ [⟨.ended, (s.line.quiet.map QuietReq.tag).getD 0, 1, stamp⟩] } })) ∧
    (s.link.downFlight = some (.reg .softStop d) →
      (s.line.switching = true → exec (.regSoftStop stamp) s = .next { s with
        link := taken
        line := { heard with
          lossRepeat := none, hold := true, runStreak := 0, switching := false, softStart := false }.pushEvt 0x08 stamp }) ∧
      (s.line.switching = false → exec (.regSoftStop stamp) s = .next { s with
        link := taken, line := { heard with lossRepeat := none, hold := true, runStreak := 0 } })) ∧
    (∀ v : BitVec 12,
      (s.link.downFlight = some (.cfg 1 v) → exec (.cfgReceived 1 v) s = .next { s with
        link := taken, line := { heard with lossFrac := v } }) ∧
      (s.link.downFlight = some (.cfg 2 v) → exec (.cfgReceived 2 v) s = .next { s with
        link := taken, line := { heard with plim := v } }) ∧
      (∀ i, i ≠ 1 → i ≠ 2 → s.link.downFlight = some (.cfg i v) → exec (.cfgReceived i v) s = .next { s with
        link := taken, line := heard }) ∧
      ∀ i, s.link.downFlight ≠ some (.cfg i v) → exec (.cfgReceived i v) s = .next s) ∧
    (s.link.downFlight ≠ some (.reg .run d) → exec (.regRun d) s = .next s) ∧
    (s.link.downFlight ≠ some (.reg .override d) → exec (.regOverride d stamp) s = .next s) ∧
    ((∀ d, s.link.downFlight ≠ some (.reg .softStop d)) → exec (.regSoftStop stamp) s = .next s) ∧
    (s.line.downlink = true → exec (.downlinkTimeout stamp) s = .next { s with line :=
      { s.line with downlink := false, ssr := false, runStreak := 0, beacon := true, owesTimeout := some stamp } }) ∧
    (s.line.downlink = false → exec (.downlinkTimeout stamp) s = .next s) ∧
    (s.line.hold = true → s.line.downlink = false → exec .stopRestartTimeout s = .next { s with line :=
      { s.line with
        hold := false, ssr := false, runStreak := 0, switching := s.line.switching || free
        begun := s.line.begun || free, softStart := s.line.softStart || free, softOwed := !free } }) ∧
    ((s.line.hold && !s.line.downlink) = false → exec .stopRestartTimeout s = .next s)

/-- R52, R64, R83: a STOP symbol that the core die has inserted breaks off the frame in flight, holds the switch off whatever
runs, queues EVT 0x08 and ends an open window with cause 2; under the beacon there is no QA frame. With no symbol inserted
nothing changes. -/
def Sys2Proof.Claims.StopSymbolHoldsTheSwitchOff : Prop :=
  ∀ (s : State) (stamp : Word),
    let taken : Link := Link.send { s.link with stopSymbolDue := false, downFlight := none }
    let held : LineDie := { s.line with hold := true, switching := false, softStart := false }.pushEvt 0x08 stamp
    let ended : LineDie := { held with
      quiet := none, quietOpen := false, guard := some (stamp, ((s.line.quiet.map fun q => q.len.toNat).getD 0) + 250) }
    (s.link.stopSymbolDue = false → exec (.stopSymbolReceived stamp) s = .next s) ∧
    (s.link.stopSymbolDue = true → s.line.running = true →
      (s.line.quietOpen = false → exec (.stopSymbolReceived stamp) s = .next { s with link := taken, line := held }) ∧
      (s.line.quietOpen = true → s.line.beacon = true →
        exec (.stopSymbolReceived stamp) s = .next { s with link := taken, line := ended }) ∧
      (s.line.quietOpen = true → s.line.beacon = false → exec (.stopSymbolReceived stamp) s = .next { s with
        link := taken
        line := LineDie.send { ended with
          lossRepeat := none
          qaQ := held.qaQ ++ [⟨.ended, (s.line.quiet.map QuietReq.tag).getD 0, 2, stamp⟩] } }))

/-- R45: a line die that does not run is deaf and mute: no command of the line itself changes it, and a STOP symbol or a frame
only leaves the wire. -/
def Sys2Proof.Claims.StoppedLineDieIsDeaf : Prop :=
  ∀ (s : State) (d : BitVec 12) (stamp t : Word) (v v0 v1 : BitVec 18) (mw peak : Nat) (vl : BitVec 12) (hv : BitVec 10)
    (temp : BitVec 8) (pk : BitVec 9) (tag : BitVec 3) (len : BitVec 13), s.line.running = false →
    let passed : State := { s with link := Link.send { s.link with downFlight := none } }
    (∀ c ∈ [Instr.downlinkTimeout stamp, .stopRestartTimeout,
        .hvinBrownOut stamp, .hvinOvervoltage stamp, .hvinOvResume, .switchShortCircuit stamp, .overloadStop stamp mw,
        .faultRestart, .overtempStop stamp, .overtempResume, .vldOvLatch stamp, .zeroCrossing t v0 v1 peak,
        .lineLossDeclare stamp v t, .lineLossRepeat, .dcModeEntry t v, .dcLineReturn stamp, .lineReturnDeclare,
        .tlmProduce vl hv temp pk, .ldQuietOpen stamp, .ldQuietGuardEnd t,
        .ldQuietEnd stamp, .ldQuietVldEnd stamp], exec c s = .next s) ∧
    (s.link.stopSymbolDue = true → exec (.stopSymbolReceived stamp) s = .next { s with
      link := Link.send { s.link with stopSymbolDue := false, downFlight := none } }) ∧
    (s.link.downFlight = some (.reg .run d) → exec (.regRun d) s = .next passed) ∧
    (s.link.downFlight = some (.reg .override d) → exec (.regOverride d stamp) s = .next passed) ∧
    (s.link.downFlight = some (.reg .softStop d) → exec (.regSoftStop stamp) s = .next passed) ∧
    (s.link.downFlight = some (.quiet tag len) → exec (.quietReceived tag len stamp) s = .next passed) ∧
    ∀ i v, s.link.downFlight = some (.cfg i v) → exec (.cfgReceived i v) s = .next passed

/-- The frames of the link are read as they are sent; the line die obeys REG, CFG and STOP symbols, and hears nothing while
stopped. The model's choices that this rests on: logs 2, 41, 60 and 62. -/
def Obligations.LineDieObeysTheDownlink : Prop :=
  Sys2Proof.Claims.FramesAreReadAsTheyAreSent ∧
  Sys2Proof.Claims.LineDieObeysTheDownlink ∧
  Sys2Proof.Claims.StopSymbolHoldsTheSwitchOff ∧
  Sys2Proof.Claims.StoppedLineDieIsDeaf

/-- R55, R57, R58, R60, R75: two samples that straddle 0 V make one crossing, stamped by linear interpolation of the 18-bit
results; a rising one ends a cycle and takes the next sequence number; T_nom is the mean of the last eight full periods,
20.0 ms before one is measured, the running peak that of the last eight half-cycle peaks, and both are kept with the
crossing's stamp for what is judged later; a ZC frame follows unless the beacon runs; samples that do not straddle 0 V change
nothing. -/
def Sys2Proof.Claims.ZeroCrossingsAreStampedAndSent : Prop :=
  ∀ (s : State) (t : Word) (v0 v1 : BitVec 18) (peak : Nat), s.line.running = true →
    let stamp := t + BitVec.ofInt 32 (crossingOffset v0 v1)
    let periods := match s.line.lastPos with
      | some p => ((stamp - p).toNat :: s.line.periods).take 8
      | none => s.line.periods
    let peaks := (peak :: s.line.peaks).take 8
    let ref (periods : List Nat) : LossRef :=
      ⟨stamp, if periods = [] then 2000000 else (periods.sum : Rat) / periods.length, (peaks.sum : Rat) / peaks.length⟩
    let kept := match s.line.lossRefs with
      | r :: _ => if max 10240 (r.peak * s.line.lossFrac.toNat / 64) ≤ (peak : Rat) then s.line.lossRefs.take 1
        else s.line.lossRefs
      | [] => []
    let sent (positive : Bool) (seq : BitVec 5) (per : List Nat) (l : LineDie) : LineDie :=
      if s.line.beacon then l
      else LineDie.send { l with
        zcQ := s.line.zcQ ++ [⟨positive, (per.head?.map outOfRange).getD false, s.link.state == .up, seq, stamp⟩] }
    (v0.toInt < 0 → 0 ≤ v1.toInt → exec (.zeroCrossing t v0 v1 peak) s = .next { s with line :=
      (sent true (s.line.zcSeq + 1) periods { s.line with
        periods := periods, peaks := peaks, lastPos := some stamp, lastCross := some stamp, lossRefs := ref periods :: kept
        zcSeq := s.line.zcSeq + 1, negSeen := false, halfOk := true, dc := false
        retCycles := if !s.line.present && s.line.lastPos.isSome && s.line.negSeen && s.line.halfOk && decide (25600 ≤ peak)
          then s.line.retCycles + 1 else 0 }) }) ∧
    (0 ≤ v0.toInt → v1.toInt < 0 → exec (.zeroCrossing t v0 v1 peak) s = .next { s with line :=
      (sent false s.line.zcSeq s.line.periods { s.line with
        peaks := peaks, lastCross := some stamp, lossRefs := ref s.line.periods :: kept
        negSeen := true, halfOk := s.line.halfOk && decide (25600 ≤ peak), dc := false }) }) ∧
    ((v0.toInt < 0 ↔ v1.toInt < 0) → exec (.zeroCrossing t v0 v1 peak) s = .next s)

/-- R57 to R60, and the corner of R69: a present line is declared lost once, at the first sample outside the loss window of the
last sample of V_LOSS or more, with three repeats to follow; 100 ms without a crossing at 100 V or more is DC mode; a lost
line returns after two qualifying cycles, with the stamp of the crossing that completes the second, or in DC mode. -/
def Sys2Proof.Claims.LineLossAndReturnAreDeclared : Prop :=
  ∀ (s : State) (stamp now : Word) (v : BitVec 18), s.line.running = true →
    let ref : LossRef := (s.line.lossRefs.find? fun r => (stamp - r.at_).toNat < 2 ^ 31).getD ⟨stamp, 2000000, 0⟩
    let qualifies : Prop := max 10240 (ref.peak * s.line.lossFrac.toNat / 64) ≤ (v.toInt.natAbs : Rat)
    let window := if s.line.dc then 1000000 else 100 * (ref.nom * 5 / 800).ceil.toNat
    (s.line.present = true → qualifies → window ≤ (now - stamp).toNat →
      exec (.lineLossDeclare stamp v now) s = .next { s with line :=
        ({ s.line with
          present := false, periods := [], peaks := [], lastPos := none, lossRefs := [], negSeen := false, halfOk := false
          retCycles := 0, lossRepeat := some (stamp, 3) }.pushEvt 0x01 stamp) }) ∧
    (s.line.present = false ∨ ¬ qualifies ∨ (now - stamp).toNat < window →
      exec (.lineLossDeclare stamp v now) s = .next s) ∧
    (∀ lost n, s.line.lossRepeat = some (lost, n + 1) → exec .lineLossRepeat s = .next { s with line :=
      ({ s.line with lossRepeat := if n = 0 then none else some (lost, n) }.pushEvt 0x01 lost) }) ∧
    (s.line.lossRepeat = none → exec .lineLossRepeat s = .next s) ∧
    (25600 ≤ v.toInt.natAbs → (∀ c, s.line.lastCross = some c → 10000000 ≤ (now - c).toNat) →
      exec (.dcModeEntry now v) s = .next { s with line := { s.line with dc := true } }) ∧
    (v.toInt.natAbs < 25600 ∨ (∃ c, s.line.lastCross = some c ∧ (now - c).toNat < 10000000) →
      exec (.dcModeEntry now v) s = .next s) ∧
    (s.line.dc = true → s.line.present = false →
      exec (.dcLineReturn stamp) s = .next { s with line := ({ s.line with present := true }.pushEvt 0x02 stamp) }) ∧
    (s.line.dc = false ∨ s.line.present = true → exec (.dcLineReturn stamp) s = .next s) ∧
    (∀ last, s.line.lastPos = some last → s.line.present = false → 2 ≤ s.line.retCycles →
      exec .lineReturnDeclare s = .next { s with line :=
        ({ s.line with present := true, retCycles := 0 }.pushEvt 0x02 last) }) ∧
    (s.line.lastPos = none ∨ s.line.present = true ∨ s.line.retCycles < 2 → exec .lineReturnDeclare s = .next s)

/-- R69, R75: a TLM frame takes the next sequence number and joins the queue; the ninth is dropped, its number not reused;
under the beacon none is produced and no number is taken. -/
def Sys2Proof.Claims.TelemetryIsQueuedOrDropped : Prop :=
  ∀ (s : State) (vline : BitVec 12) (hvin : BitVec 10) (temp : BitVec 8) (peak : BitVec 9), s.line.running = true →
    (s.line.beacon = true → exec (.tlmProduce vline hvin temp peak) s = .next s) ∧
    (s.line.beacon = false → 8 ≤ s.line.tlmQ.length → exec (.tlmProduce vline hvin temp peak) s =
      .next { s with line := LineDie.send { s.line with tlmSeq := s.line.tlmSeq + 1 } }) ∧
    (s.line.beacon = false → s.line.tlmQ.length < 8 → exec (.tlmProduce vline hvin temp peak) s =
      .next { s with line :=
        (LineDie.send { s.line with
          tlmSeq := s.line.tlmSeq + 1
          tlmQ := s.line.tlmQ ++ [⟨s.line.tlmSeq, vline, hvin, temp, s.line.ssr, peak⟩] }) })

/-- R69, R75: an EVT frame joins the end of its queue; under the beacon the queue keeps the newest eight, so that one that
held eight loses its oldest. -/
def Sys2Proof.Claims.EvtQueueKeepsTheNewestEight : Prop :=
  ∀ (l : LineDie) code stamp,
    (l.beacon = false → l.pushEvt code stamp = LineDie.send { l with evtQ := l.evtQ ++ [⟨code, stamp⟩] }) ∧
    (l.beacon = true → l.evtQ.length < 8 → l.pushEvt code stamp = { l with evtQ := l.evtQ ++ [⟨code, stamp⟩] }) ∧
    (l.beacon = true → l.evtQ.length = 8 → l.pushEvt code stamp = { l with evtQ := l.evtQ.tail ++ [⟨code, stamp⟩] })

/-- R69, R75: one uplink frame is sent at a time, EVT before QA before ZC before TLM, each queue in order, and none while the
beacon runs; R64, R68: one downlink frame at a time, and only in TRAINING or UP: a due REG frame before QUIET before CFG, and
none ahead of a STOP symbol. -/
def Sys2Proof.Claims.FramesTakeTheirTurns : Prop :=
  (∀ l : LineDie,
    (l.upFlight.isSome = true ∨ l.beacon = true → l.send = l) ∧
    (l.upFlight = none → l.beacon = false →
      (∀ f q, l.evtQ = f :: q → l.send = { l with upFlight := some (.evt f), evtQ := q }) ∧
      (∀ f q, l.evtQ = [] → l.qaQ = f :: q → l.send = { l with upFlight := some (.qa f), qaQ := q }) ∧
      (∀ f q, l.evtQ = [] → l.qaQ = [] → l.zcQ = f :: q → l.send = { l with upFlight := some (.zc f), zcQ := q }) ∧
      (∀ f q, l.evtQ = [] → l.qaQ = [] → l.zcQ = [] → l.tlmQ = f :: q →
        l.send = { l with upFlight := some (.tlm f), tlmQ := q }) ∧
      (l.evtQ = [] → l.qaQ = [] → l.zcQ = [] → l.tlmQ = [] → l.send = l))) ∧
  ∀ l : Link,
    (l.downFlight.isSome = true ∨ l.stopSymbolDue = true ∨ (l.state ≠ .training ∧ l.state ≠ .up) → l.send = l) ∧
    (l.downFlight = none → l.stopSymbolDue = false → l.state = .training ∨ l.state = .up →
      (l.regDue = true → l.send = { l with regDue := false, downFlight := some (.reg l.regMode l.regDemand) }) ∧
      (∀ q rest, l.regDue = false → l.quietDue = q :: rest →
        l.send = { l with quietDue := rest, downFlight := some (.quiet q.tag q.len) }) ∧
      (∀ i v rest, l.regDue = false → l.quietDue = [] → l.cfgQ = (i, v) :: rest →
        l.send = { l with cfgQ := rest, downFlight := some (.cfg i v) }) ∧
      (l.regDue = false → l.quietDue = [] → l.cfgQ = [] → l.send = l))

/-- The line die stamps crossings, declares loss and return, and queues its uplink frames, which take their turns. The
model's choices that this rests on: logs 2, 10, 16, 40, 60, 63 and 64. -/
def Obligations.CrossingsLossAndTelemetryAreSent : Prop :=
  Sys2Proof.Claims.ZeroCrossingsAreStampedAndSent ∧
  Sys2Proof.Claims.LineLossAndReturnAreDeclared ∧
  Sys2Proof.Claims.TelemetryIsQueuedOrDropped ∧
  Sys2Proof.Claims.EvtQueueKeepsTheNewestEight ∧
  Sys2Proof.Claims.FramesTakeTheirTurns

/-- R78 to R80, R83: a QUIET frame that arrives is refused with the first cause that applies, else held; its window opens
outside the guard with QA OPEN and ends with QA END and its cause; the guard then runs for nine times the length requested
and 2.5 µs. A QA frame is queued unless the beacon runs. The model's choices that this rests on: logs 2, 48 and 60. -/
def Obligations.LineDieQuietWindow : Prop :=
  ∀ (s : State) (tag : BitVec 3) (len : BitVec 13) (stamp now : Word), s.line.running = true →
    let qa (kind : QaKind) (tag cause : BitVec 3) (l : LineDie) : LineDie :=
      LineDie.send { l with qaQ := l.qaQ ++ [⟨kind, tag, cause, stamp⟩], lossRepeat := none }
    let heard : LineDie := LineDie.send { s.line with downlink := true, beacon := false }
    let taken : Link := Link.send { s.link with downFlight := none }
    let run := exec (.quietReceived tag len stamp) s
    (s.link.downFlight = some (.quiet tag len) →
      (len = 0 ∨ 6400 < len.toNat → run = .next { s with link := taken, line := qa .refused tag 2 heard }) ∧
      (len ≠ 0 → len.toNat ≤ 6400 → s.line.softStart = true →
        run = .next { s with link := taken, line := qa .refused tag 1 heard }) ∧
      (len ≠ 0 → len.toNat ≤ 6400 → s.line.softStart = false → s.line.quiet.isSome = true →
        run = .next { s with link := taken, line := qa .refused tag 0 heard }) ∧
      (len ≠ 0 → len.toNat ≤ 6400 → s.line.softStart = false → s.line.quiet = none →
        run = .next { s with link := taken, line := { heard with quiet := some ⟨tag, len⟩ } })) ∧
    (s.link.downFlight ≠ some (.quiet tag len) → run = .next s) ∧
    (∀ q, s.line.quiet = some q → s.line.quietOpen = false → s.line.guard = none →
      (s.line.beacon = false → exec (.ldQuietOpen stamp) s = .next { s with line :=
        (qa .opened q.tag 0 { s.line with quietOpen := true }) }) ∧
      (s.line.beacon = true → exec (.ldQuietOpen stamp) s = .next { s with line := { s.line with quietOpen := true } })) ∧
    (s.line.quiet = none ∨ s.line.quietOpen = true ∨ s.line.guard.isSome = true → exec (.ldQuietOpen stamp) s = .next s) ∧
    (∀ closed n, s.line.guard = some (closed, n) →
      (9 * n ≤ (now - closed).toNat → exec (.ldQuietGuardEnd now) s = .next { s with line := { s.line with guard := none } }) ∧
      ((now - closed).toNat < 9 * n → exec (.ldQuietGuardEnd now) s = .next s)) ∧
    (s.line.guard = none → exec (.ldQuietGuardEnd now) s = .next s) ∧
    (s.line.quietOpen = false → exec (.ldQuietEnd stamp) s = .next s ∧ exec (.ldQuietVldEnd stamp) s = .next s) ∧
    (s.line.quietOpen = true →
      let l : LineDie := { s.line with
        quiet := none, quietOpen := false
        guard := some (stamp, ((s.line.quiet.map fun q => q.len.toNat).getD 0) + 250) }
      let mine := (s.line.quiet.map QuietReq.tag).getD 0
      (s.line.beacon = false → exec (.ldQuietEnd stamp) s = .next { s with line := (qa .ended mine 0 l) } ∧
        exec (.ldQuietVldEnd stamp) s = .next { s with line := (qa .ended mine 3 l) }) ∧
      (s.line.beacon = true → exec (.ldQuietEnd stamp) s = .next { s with line := l } ∧
        exec (.ldQuietVldEnd stamp) s = .next { s with line := l }))

/-! ## The core side of the link -/

/-- R302, R307, R172: a raise sets the event's bit in the raise latch, whatever HIF does. Only when EV_WAKE_EN holds the
event and WAKE_EN the EVENT source does it also set bit 18 of WAKE_FLAGS and WAKE_PEND and start the CPU's exit. -/
def Sys2Proof.Claims.RaiseLatchesAndWakes : Prop :=
  ∀ (s : State) (e : Nat),
    let latched : Events := { s.ev with raised := s.ev.raised ||| (1#96 <<< e) }
    let flagged : Domains :=
      { s.dom with wakeFlags := s.dom.wakeFlags ||| (1#32 <<< 18), wakePend := s.dom.wakePend ||| (1#32 <<< 18) }
    ((s.ev.wakeEn.getLsbD e && s.dom.wakeEn.getLsbD 18) = false → s.raise e = { s with ev := latched }) ∧
    ((s.ev.wakeEn.getLsbD e && s.dom.wakeEn.getLsbD 18) = true →
      (s.dom.cpu.st = .off → s.powered = true →
        s.raise e = { s with ev := latched, dom := { flagged with cpu := { st := .leaving .off } } }) ∧
      (s.dom.cpu.st = .on →
        s.raise e = { s with ev := latched, dom := { flagged with cpu := { s.dom.cpu with deferred := none } } }) ∧
      (∀ x, s.dom.cpu.st = .leaving x → s.raise e = { s with ev := latched, dom := flagged }) ∧
      (∀ x, s.dom.cpu.st = .entering x →
        s.raise e = { s with ev := latched, dom := { flagged with cpu := { s.dom.cpu with wanted := true } } }))

/-- R76, R111, R148, R172: the beacon detector qualifies once while the core endpoint is not ON, the beacon runs and the
Binnacle is not held: it latches, raises the LINE wake source and may set SYSON_ON; a period without a burst clears it. -/
def Sys2Proof.Claims.BeaconDetectorWakesOnce : Prop :=
  ∀ s : State,
    (s.isOn .pwr = false → s.dom.beaconLatch = false → s.line.running = true → s.line.beacon = true → s.bin.held = false →
      ∃ t, exec .beaconQualified s = .next t ∧
        t = { s with dom := t.dom, bin := t.bin } ∧ t.dom.beaconLatch = true ∧
        t.bin = { s.bin with sysonOn := s.bin.sysonOn || s.bin.sysonAuto.getLsbD 3 } ∧
        (s.dom.wakeEn.getLsbD 0 = true → t.dom.wakeFlags = s.dom.wakeFlags ||| 1#32 ∧ t.dom.wakePend = s.dom.wakePend ||| 1#32 ∧
          (s.dom.cpu.st = .off → s.powered = true → t.dom.cpu.st = .leaving .off)) ∧
        (s.dom.wakeEn.getLsbD 0 = false → t.dom = { s.dom with beaconLatch := true })) ∧
    (s.isOn .pwr = true ∨ s.dom.beaconLatch = true ∨ (s.line.running && s.line.beacon) = false ∨ s.bin.held = true →
      exec .beaconQualified s = .next s) ∧
    exec .beaconDetectorClear s = .next { s with dom := { s.dom with beaconLatch := false } }

/-- Raising an event latches it and wakes; a beacon wakes once. The model's choices that this rests on: log 2. -/
def Obligations.RaiseLatchesAndWakes : Prop :=
  Sys2Proof.Claims.RaiseLatchesAndWakes ∧
  Sys2Proof.Claims.BeaconDetectorWakesOnce

/-- R57, R70, R72, R86: uplink frames and the beacon take a DOWN or FAULT endpoint that is ON into TRAINING: both CFG frames
are queued with their limited values, and the counts of the last time in UP are dropped; the TLM sequence goes on. -/
def Sys2Proof.Claims.UplinkStartsTraining : Prop :=
  ∀ s : State, s.isOn .pwr = true →
    (s.link.state = .down ∨ s.link.state = .fault →
      let frac : BitVec 12 := BitVec.ofNat 12 (max 16 (min 48 s.link.lossFrac.toNat))
      let plim : BitVec 12 := BitVec.ofNat 12 (max 8 (min 96 s.link.plim.toNat))
      let fresh : Link :=
        { s.link with
          state := .training, ssrStreak := 0, rangeSeen := false, hvinHigh := false, goodbye := false, crcTimes := [] }
      let first : Link := Link.send { fresh with cfgQ := s.link.cfgQ ++ [(1, frac)] }
      s.uplinkSeen = { s with link := Link.send { first with cfgQ := first.cfgQ ++ [(2, plim)] } }) ∧
    (s.link.state = .training ∨ s.link.state = .up → s.uplinkSeen = s) ∧
    (s.line.running = true → s.line.beacon = true → exec .beaconBurst s = .next s.uplinkSeen) ∧
    ((s.line.running && s.line.beacon) = false → exec .beaconBurst s = .next s)

/-- R53, R68, R170, R171: a REG frame falls due while downlink frames run: it carries the demand, and mode SOFT-STOP while a
stop is in force, else OVERRIDE once if it is due, else RUN; it is sent next. R50, R64: VAUX above 22.0 V sends STOP at once,
breaking off the frame in flight, and SOFT-STOP until VAUX recovers; the host's own stop outlasts that. -/
def Sys2Proof.Claims.CoreDieSendsRegAndStop : Prop :=
  ∀ (s : State) (d : BitVec 12),
    (s.isOn .pwr = true → s.dom.xo16Fail = false → s.link.state = .training ∨ s.link.state = .up →
      exec (.regFrameDue d) s = .next { s with link := (Link.send
        { s.link with
          regMode := if s.link.stopVaux || s.link.stopHost then .softStop else if s.link.overrideDue then .override else .run
          regDemand := d, overrideDue := false, regDue := true }) }) ∧
    (s.isOn .pwr = false ∨ s.dom.xo16Fail = true ∨ s.link.state = .down ∨ s.link.state = .fault →
      exec (.regFrameDue d) s = .next s) ∧
    (s.isOn .pwr = true → exec .vauxOvervoltage s = .next { s with link :=
      { s.link with stopSymbolDue := true, downFlight := none, stopVaux := true, regMode := .softStop } }) ∧
    (s.isOn .pwr = false → exec .vauxOvervoltage s = .next s) ∧
    (s.link.stopVaux = true → exec .vauxRecover s = .next { s with link :=
      { s.link with stopVaux := false, regMode := if s.link.stopHost then .softStop else .run } }) ∧
    (s.link.stopVaux = false → exec .vauxRecover s = .next s)

/-- R61, R72: two consecutive TLM frames with SSR = 1 bring a TRAINING link UP: EV15, LINE_OK as the line is present, a
link-fault reset allowed again, and the owed EVT 0x09 queued. -/
def Sys2Proof.Claims.TwoSsrFramesBringTheLinkUp : Prop :=
  ∀ (s : State) (f : TlmFrame), s.isOn .pwr = true → s.dom.xo16Fail = false → s.line.upFlight = some (.tlm f) →
    s.link.state = .training → f.ssr = true →
    let taken : LineDie := LineDie.send { s.line with upFlight := none }
    (s.link.ssrStreak = 0 → ∃ t, exec (.tlmReceived f) s = .next t ∧ t.link.state = .training ∧ t.link.ssrStreak = 1) ∧
    (s.link.ssrStreak = 1 → ∃ t, exec (.tlmReceived f) s = .next t ∧ t.link.state = .up ∧ t.ev.raised.getLsbD 15 = true ∧
      t.link.lineOk = (s.link.lineOk || s.line.present) ∧ t.dom.linkResetDone = false ∧ t.line.owesTimeout = none ∧
      (∀ stamp, s.line.owesTimeout = some stamp → t.line = { taken with owesTimeout := none }.pushEvt 0x09 stamp) ∧
      (s.line.owesTimeout = none → t.line = taken))

/-- R64, R67, R73: bits that spell no frame of their direction count in CRC_ERR, saturating, and the frame in flight is gone;
the sixteenth within 1 ms, or 50,000 periods of LNK, takes an UP link to FAULT with EV03, LINE_OK falling. Bits that spell a
frame are no discard. -/
def Sys2Proof.Claims.DiscardsAreCounted : Prop :=
  ∀ (s : State) (bits : List Bool) (instant : Nat),
    (UpFrame.read bits ≠ none → exec (.frameDiscard .up bits instant) s = .next s) ∧
    (DownFrame.read bits ≠ none → exec (.frameDiscard .down bits instant) s = .next s) ∧
    (DownFrame.read bits = none → s.line.running = false → exec (.frameDiscard .down bits instant) s = .next { s with
      link := Link.send { s.link with downFlight := none } }) ∧
    (UpFrame.read bits = none →
      let taken : LineDie := LineDie.send { s.line with upFlight := none }
      let kept := s.link.crcTimes.filter fun t => instant < t + 50000
      (s.isOn .pwr = false → exec (.frameDiscard .up bits instant) s = .next { s with line := taken }) ∧
      (s.isOn .pwr = true →
        (s.link.state ≠ .up → exec (.frameDiscard .up bits instant) s = .next { s with
          line := taken, link := { s.link with crcErr := satInc s.link.crcErr, crcTimes := [] } }) ∧
        (s.link.state = .up → kept.length < 15 → exec (.frameDiscard .up bits instant) s = .next { s with
          line := taken, link := { s.link with crcErr := satInc s.link.crcErr, crcTimes := instant :: kept } }) ∧
        (s.link.state = .up → 15 ≤ kept.length → ∃ t, exec (.frameDiscard .up bits instant) s = .next t ∧
          t.link.state = .fault ∧ t.link.lineOk = false ∧ t.ev.raised.getLsbD 3 = true ∧
          t.link.crcErr.toNat = min 65535 (s.link.crcErr.toNat + 1)))) ∧
    (DownFrame.read bits = none → s.line.running = true → s.isOn .pwr = true → s.link.state ≠ .up →
      exec (.frameDiscard .down bits instant) s = .next { s with link :=
        { (Link.send { s.link with downFlight := none }) with crcErr := satInc s.link.crcErr, crcTimes := [] } })

/-- R61, R72, R73, R108: 25 µs without uplink takes UP to FAULT with EV03, or to DOWN after GOODBYE, and TRAINING to DOWN:
SSR and LINE_OK fall, nothing that waited for the downlink is sent, and the charger goes on unless a window is open. -/
def Sys2Proof.Claims.LinkFaultsAndTimesOut : Prop :=
  ∀ s : State,
    let lost (x : LinkState) (ok : Bool) : Link :=
      { s.link with
        state := x, lineOk := ok, ssr := false, goodbye := false, crcTimes := [], downFlight := none, regDue := false
        quietDue := [], quietQ := [], cfgQ := [], stopSymbolDue := false }
    (s.isOn .pwr = true →
      (s.link.state = .up → s.link.goodbye = false → ∃ t, exec .linkUplinkTimeout s = .next t ∧
        t = { s with link := t.link, trim := t.trim, fw := t.fw, ev := t.ev, dom := t.dom, power := t.power } ∧
        t.link = lost .fault false ∧ t.power = { s.power with paused := s.link.window.isSome } ∧
        t.ev.raised.getLsbD 3 = true) ∧
      (s.link.state = .up → s.link.goodbye = true → ∃ t, exec .linkUplinkTimeout s = .next t ∧
        t = { s with link := t.link, trim := t.trim, fw := t.fw, ev := t.ev, dom := t.dom, power := t.power } ∧
        t.link = lost .down false ∧ t.power = { s.power with paused := s.link.window.isSome } ∧
        t.ev.raised.getLsbD 3 = s.ev.raised.getLsbD 3) ∧
      (s.link.state = .training → exec .linkUplinkTimeout s = .next { s with
        link := lost .down s.link.lineOk, power := { s.power with paused := s.link.window.isSome } })) ∧
    (s.isOn .pwr = false ∨ s.link.state = .down ∨ s.link.state = .fault → exec .linkUplinkTimeout s = .next s)

/-- The link trains, comes up on two SSR frames, commands the converter, discards, faults and times out. The model's choices
that this rests on: logs 2, 60, 65 to 67. -/
def Obligations.LinkTrainsRunsAndFails : Prop :=
  Sys2Proof.Claims.UplinkStartsTraining ∧
  Sys2Proof.Claims.CoreDieSendsRegAndStop ∧
  Sys2Proof.Claims.TwoSsrFramesBringTheLinkUp ∧
  Sys2Proof.Claims.DiscardsAreCounted ∧
  Sys2Proof.Claims.LinkFaultsAndTimesOut

/-- The commands that receive an uplink frame, with the frame that each takes from the wire. -/
def Sys2Proof.Claims.uplinkRows (tlm : TlmFrame) (zc : ZcFrame) (evt : EvtFrame) (tag cause : BitVec 3) (stamp : Word)
    (edge : Nat) : List (Instr × UpFrame) :=
  [(.tlmReceived tlm, .tlm tlm), (.zcReceived zc, .zc zc), (.lineLossReceived stamp, .evt ⟨0x01, stamp⟩),
   (.lineReturnReceived stamp, .evt ⟨0x02, stamp⟩), (.qaOpenReceived tag stamp edge, .qa ⟨.opened, tag, 0, stamp⟩),
   (.qaEndReceived tag cause stamp, .qa ⟨.ended, tag, cause, stamp⟩),
   (.qaRefusedReceived tag cause stamp, .qa ⟨.refused, tag, cause, stamp⟩)] ++
  (if evt.code = 0x01 ∨ evt.code = 0x02 then [] else [(.ldFaultReceived evt, .evt evt)])

/-- R69, R72, R170, R171: an uplink frame reaches the core die only while it is in flight. With PWR not ON it is lost, and the
next one starts; with XO16_FAIL it does no more than take the link into TRAINING. -/
def Sys2Proof.Claims.UplinkFramesArriveInTheirTurn : Prop :=
  ∀ (s : State) (tlm : TlmFrame) (zc : ZcFrame) (evt : EvtFrame) (tag cause : BitVec 3) (stamp : Word) (edge : Nat),
    ∀ r ∈ Sys2Proof.Claims.uplinkRows tlm zc evt tag cause stamp edge,
      let taken : State := { s with line := LineDie.send { s.line with upFlight := none } }
      (s.line.upFlight ≠ some r.2 → exec r.1 s = .next s) ∧
      (s.line.upFlight = some r.2 → s.isOn .pwr = false → exec r.1 s = .next taken) ∧
      (s.line.upFlight = some r.2 → s.isOn .pwr = true → s.dom.xo16Fail = true → exec r.1 s = .next taken.uplinkSeen)

/-- R57, R70, R86: a TLM frame received in TRAINING or UP gives HVIN_V, LD_TEMP and SSR; the gap in its sequence adds to
TLM_LOST, with EV04 when that leaves zero; the first HVIN at 440 V or more raises EV06. -/
def Sys2Proof.Claims.TelemetryUpdatesTheRegisters : Prop :=
  ∀ (s : State) (f : TlmFrame), s.isOn .pwr = true → s.dom.xo16Fail = false → s.line.upFlight = some (.tlm f) →
    s.link.state = .training ∨ s.link.state = .up →
      let gap := match s.link.lastTlm with
        | some q => (f.seq - q - 1).toNat
        | none => 0
      ∃ t, exec (.tlmReceived f) s = .next t ∧
        t = { s with line := t.line, link := t.link, dom := t.dom, ev := t.ev } ∧
        t.link.lastTlm = some f.seq ∧ t.link.hvinV = f.hvin ∧
        t.link.ldTemp = f.temp ∧ t.link.ssr = f.ssr ∧
        t.link.tlmLost.toNat = min 65535 (s.link.tlmLost.toNat + gap) ∧
        t.ev.raised.getLsbD 4 = (s.ev.raised.getLsbD 4 || (s.link.tlmLost == 0 && gap != 0)) ∧
        t.ev.raised.getLsbD 6 = (s.ev.raised.getLsbD 6 || (decide (880 ≤ f.hvin.toNat) && !s.link.hvinHigh)) ∧
        (∀ e < 96, e ∉ [4, 6, 15] → t.ev.raised.getLsbD e = s.ev.raised.getLsbD e) ∧
        (s.link.state = .up → t.link.state = .up ∧ t.link.lineOk = s.link.lineOk ∧
          t.line = LineDie.send { s.line with upFlight := none }) ∧
        t.link.lossCount = s.link.lossCount ∧ t.link.crcErr = s.link.crcErr ∧ t.link.zcPos = s.link.zcPos ∧
        t.link.linePeriod = s.link.linePeriod ∧ t.link.window = s.link.window

/-- R86: VLINE_PK is the mean, rounded down, of the last eight half-cycle peaks that the core die forms from the line-voltage
fields: |v| of a half-cycle that it has received from its first field on; a change of sign ends the half-cycle. -/
def Sys2Proof.Claims.LinePeakIsTracked : Prop :=
  ∀ (l : Link) (v : BitVec 12),
    let m := v.toInt.natAbs
    (l.halfSign = some v.msb → l.trackPeak v = { l with halfPk := l.halfPk.map (max m) }) ∧
    (l.halfSign = none → l.halfPk = none → l.pkHist = [] → l.trackPeak v = { l with halfSign := some v.msb }) ∧
    (l.halfSign = some (!v.msb) → l.halfPk = none → l.pkHist = [] →
      l.trackPeak v = { l with halfPk := some m, halfSign := some v.msb }) ∧
    (∀ p, l.halfSign = some (!v.msb) → l.halfPk = some p →
      let hist := (p :: l.pkHist).take 8
      l.trackPeak v = { l with
        halfPk := some m, halfSign := some v.msb, pkHist := hist, vlinePk := BitVec.ofNat 12 (hist.sum / hist.length) })

/-- R57, R86, R134, R137: a ZC frame in TRAINING or UP updates ZC_POS and LINE_PERIOD or ZC_NEG, raises EV06 at the first
range flag, and either feeds a line measurement of the trim engine or aborts a measurement, of either reference, with its
cause. -/
def Sys2Proof.Claims.ZeroCrossingFramesAreTaken : Prop :=
  ∀ (s : State) (f : ZcFrame), s.isOn .pwr = true → s.dom.xo16Fail = false → s.line.upFlight = some (.zc f) →
    s.link.state = .training ∨ s.link.state = .up →
      ∃ t, exec (.zcReceived f) s = .next t ∧
        t = { s with line := t.line, link := t.link, dom := t.dom, ev := t.ev, trim := t.trim, fw := t.fw } ∧
        t.line = LineDie.send { s.line with upFlight := none } ∧ t.link.rangeSeen = f.range ∧
        (f.positive = true → t.link.zcPos = f.stamp ∧ t.link.zcNeg = s.link.zcNeg ∧
          t.link.linePeriod.toNat / 2 ^ 24 = f.seq.toNat ∧
          (s.link.posSeen = true → f.seq.toNat = (s.link.linePeriod.toNat / 2 ^ 24 + 1) % 32 →
            (f.stamp - s.link.zcPos).toNat < 2 ^ 24 →
            t.link.linePeriod.toNat % 2 ^ 24 = (f.stamp - s.link.zcPos).toNat)) ∧
        (f.positive = false →
          t.link.zcNeg = f.stamp ∧ t.link.zcPos = s.link.zcPos ∧ t.link.linePeriod = s.link.linePeriod) ∧
        (f.range = true → s.link.rangeSeen = false → t.ev.raised.getLsbD 6 = true) ∧
        (s.trim.active = true →
          (f.lock = false → t.trim.run = false ∧ t.trim.active = false ∧ t.trim.cause = 1 ∧ t.ev.raised.getLsbD 26 = true) ∧
          (f.lock = true → f.range = true →
            t.trim.run = false ∧ t.trim.active = false ∧ t.trim.cause = 3 ∧ t.ev.raised.getLsbD 26 = true) ∧
          (f.lock = true → f.range = false → f.positive = true → ∀ q, s.trim.lastSeq = some q → f.seq = q + 1 →
            s.fw.trimRestart = false →
            t.trim.run = s.trim.run ∧ t.trim.lastSeq = some f.seq ∧
            (s.trim.openRaw = none ∨ s.trim.src = true → t.trim.prog = s.trim.prog) ∧
            (s.trim.src = false → s.trim.openRaw.isSome = true → s.trim.prog.toNat < 2 ^ s.trim.kEff →
              t.trim.prog = s.trim.prog + 1)) ∧
          (f.lock = true → f.range = false → f.positive = true → ∀ q, s.trim.lastSeq = some q → f.seq ≠ q + 1 →
            s.fw.trimRestarts = false → t.trim.run = false ∧ t.trim.cause = 2 ∧ t.ev.raised.getLsbD 26 = true)) ∧
        t.trim.count = s.trim.count ∧ t.trim.calcd = s.trim.calcd ∧ t.trim.trim = s.trim.trim

/-- R61, R86, R137, R147, R385: LINE_LOSS is taken once a loss, keyed on its stamp: EV00, LINE_OK and LINE_PRESENT fall,
LOSS_COUNT counts, a measurement aborts with cause 3, the power-fail save sees the loss, and the next CK32 edge writes LL_STAMP
and LL_LCLK. A repeat changes nothing more. LINE_RETURN raises EV01, sets LINE_OK from its receipt and arms that save. -/
def Sys2Proof.Claims.LineLossAndReturnAreReceived : Prop :=
  ∀ (s : State) (stamp : Word), s.isOn .pwr = true → s.dom.xo16Fail = false → s.link.state = .training ∨ s.link.state = .up →
    let taken : LineDie := LineDie.send { s.line with upFlight := none }
    (s.line.upFlight = some (.evt ⟨0x01, stamp⟩) →
      (s.link.lossKey = some stamp → exec (.lineLossReceived stamp) s = .next { s with line := taken }) ∧
      (s.link.lossKey ≠ some stamp → ∃ t, exec (.lineLossReceived stamp) s = .next t ∧
        t = { s with line := t.line, link := t.link, bin := t.bin, fw := t.fw, ev := t.ev, dom := t.dom, trim := t.trim } ∧
        t.line = taken ∧
        t.ev.raised.getLsbD 0 = true ∧ t.link.lineOk = false ∧ t.link.linePresent = false ∧
        t.link.lossCount.toNat = min 65535 (s.link.lossCount.toNat + 1) ∧ t.link.llsLast = stamp ∧
        t.link.lossKey = some stamp ∧ t.link.state = s.link.state ∧
        t.bin = { s.bin with llDue := some stamp } ∧
        t.fw.pfLoss = (s.fw.pfLoss || s.fw.pfArmed) ∧ t.fw.pfArmed = s.fw.pfArmed ∧
        (s.trim.active = true →
          t.trim.run = false ∧ t.trim.active = false ∧ t.trim.cause = 3 ∧ t.ev.raised.getLsbD 26 = true) ∧
        (s.trim.active = false → t.trim = s.trim))) ∧
    (s.line.upFlight = some (.evt ⟨0x02, stamp⟩) → ∃ t, exec (.lineReturnReceived stamp) s = .next t ∧
        t = { s with line := t.line, link := t.link, fw := t.fw, ev := t.ev, dom := t.dom } ∧
        t.line = taken ∧ t.link = { s.link with linePresent := true, lineOk := true } ∧
        t.fw = { s.fw with pfArmed := true, pfLoss := false } ∧ t.ev.raised.getLsbD 1 = true)

/-- The bit of LD_FAULT for each EVT code that sets one, and whether the code is a stop code (R50, R66). -/
def Sys2Proof.Claims.faultRows : List (Byte × Nat × Bool) :=
  [(0x03, 0, true), (0x04, 1, true), (0x05, 2, true), (0x07, 3, false), (0x06, 4, true), (0x08, 5, true),
   (0x09, 6, false), (0x0A, 7, true)]

/-- R66, R50: a fault or status code sets its bit of LD_FAULT, or LD_VLD_OV, and a stop code also raises EV05; any other
code sets nothing. -/
def Sys2Proof.Claims.FaultCodesSetTheirBits : Prop :=
  ∀ (s : State) (stamp : Word) (code : Byte), s.isOn .pwr = true → s.dom.xo16Fail = false →
    s.line.upFlight = some (.evt ⟨code, stamp⟩) → s.link.state = .training ∨ s.link.state = .up →
    let taken : LineDie := LineDie.send { s.line with upFlight := none }
    (∀ r ∈ Sys2Proof.Claims.faultRows, r.1 = code →
      let t : State := { s with
        line := taken
        link := { s.link with ldFault := s.link.ldFault ||| (1#8 <<< r.2.1), goodbye := s.link.goodbye || code == 0x07 } }
      exec (.ldFaultReceived ⟨code, stamp⟩) s = .next (if r.2.2 then t.raise 5 else t)) ∧
    (code = 0x0B → exec (.ldFaultReceived ⟨code, stamp⟩) s =
      .next (({ s with line := taken, link := { s.link with ldVldOv := true } } : State).raise 5)) ∧
    (code ≠ 0x0B → code ≠ 0x01 → code ≠ 0x02 → (∀ r ∈ Sys2Proof.Claims.faultRows, r.1 ≠ code) →
      exec (.ldFaultReceived ⟨code, stamp⟩) s = .next { s with line := taken }) ∧
    (code = 0x01 ∨ code = 0x02 → exec (.ldFaultReceived ⟨code, stamp⟩) s = .next s)

/-- TLM, ZC and EVT frames arrive in their turn and update the link registers, the trim, the stamps and LINE_OK. The model's
choices that this rests on: logs 2, 60, 63, 66 and 70. -/
def Obligations.UplinkFramesUpdateTheRegisters : Prop :=
  Sys2Proof.Claims.UplinkFramesArriveInTheirTurn ∧
  Sys2Proof.Claims.TelemetryUpdatesTheRegisters ∧
  Sys2Proof.Claims.LinePeakIsTracked ∧
  Sys2Proof.Claims.ZeroCrossingFramesAreTaken ∧
  Sys2Proof.Claims.LineLossAndReturnAreReceived ∧
  Sys2Proof.Claims.FaultCodesSetTheirBits

/-- R78, R83, R86, R108, R333: QA OPEN opens the core-side window for L; END is recorded in QW_LAST with the stamp from which
the guard counts; REFUSED marks the shot that waits for this tag. The charger stays stopped while a request waits or a window
is open. -/
def Sys2Proof.Claims.QuietAnswersAreTaken : Prop :=
  ∀ (s : State) (tag cause : BitVec 3) (stamp : Word) (edge : Nat), s.isOn .pwr = true → s.dom.xo16Fail = false →
    s.link.state = .training ∨ s.link.state = .up →
    let taken : LineDie := LineDie.send { s.line with upFlight := none }
    let stopped (l : Link) : Power := { s.power with paused := l.window.isSome || !l.quietQ.isEmpty }
    (s.line.upFlight = some (.qa ⟨.opened, tag, 0, stamp⟩) →
      (∀ q, s.link.quietQ.find? (fun q => q.tag == tag) = some q →
        let l : Link := { s.link with
          qwLast := BitVec.ofNat 8 (tag.toNat * 32), quietQ := s.link.quietQ.erase q, overrideAt := none, windowLocal := false
          window := some ⟨edge, edge + (q.len.toNat * 16 + 24) / 25⟩, quietLen := q.len.toNat }
        exec (.qaOpenReceived tag stamp edge) s = .next { s with line := taken, link := l, power := stopped l }) ∧
      ((∀ q ∈ s.link.quietQ, q.tag ≠ tag) →
        let l : Link := { s.link with qwLast := BitVec.ofNat 8 (tag.toNat * 32) }
        exec (.qaOpenReceived tag stamp edge) s = .next { s with line := taken, link := l, power := stopped l })) ∧
    (s.line.upFlight = some (.qa ⟨.ended, tag, cause, stamp⟩) → exec (.qaEndReceived tag cause stamp) s = .next { s with
      line := taken
      link := { s.link with
        qwLast := BitVec.ofNat 8 (tag.toNat * 32 + 8 + cause.toNat)
        quietEnd := some (stamp, 9 * (s.link.quietLen + 250)) } }) ∧
    (s.line.upFlight = some (.qa ⟨.refused, tag, cause, stamp⟩) →
      let l : Link := { s.link with
        qwLast := BitVec.ofNat 8 (tag.toNat * 32 + 16 + cause.toNat), quietQ := s.link.quietQ.filter fun q => q.tag != tag }
      exec (.qaRefusedReceived tag cause stamp) s = .next { s with
        line := taken, link := l, power := stopped l
        log := { s.log with cur := s.log.cur.map fun x =>
          if x.shot.tag = some tag then { x with shot := { x.shot with refused := true } } else x } })

/-- R9, R78, R81 to R83, R86, R108, R240: the window closes at its closing edge, when the charger goes on unless a request
waits, and the two-wire edges it held are made; VAUX sampled below QW_DROOP inside it sends OVERRIDE once, with EV02. -/
def Sys2Proof.Claims.CoreWindowClosesAndIsOverridden : Prop :=
  ∀ (s : State) (edge vaux : Nat),
    (∀ w, s.link.window = some w →
      (edge < w.closeEdge → exec (.coreQuietClose edge) s = .next s) ∧
      (w.closeEdge ≤ edge → ∃ t, exec (.coreQuietClose edge) s = .next t ∧
        t = { s with link := t.link, power := t.power, tw := t.tw } ∧
        t.link = { s.link with window := none, windowLocal := false } ∧
        t.power = { s.power with paused := !s.link.quietQ.isEmpty } ∧
        (∀ o, t.tw.probe = some o → o.held = false) ∧
        (s.tw.startHeld = true → s.tw.sbsPending = true → t.tw.sbsActive = true ∧ t.tw.sbsPending = false) ∧
        (s.tw.startHeld = false → s.tw.probe = none → t.tw = s.tw)) ∧
      (s.isOn .pwr = true → s.link.overrideAt = none → w.openEdge ≤ edge → edge < w.closeEdge →
        vaux < 12000 + 100 * min 55 s.link.qwDroop.toNat →
        exec (.qwDroopOverride edge vaux) s = .next (({ s with link :=
          { s.link with overrideAt := some edge, overrideDue := s.link.state == .training || s.link.state == .up } } : State).raise 2)) ∧
      (s.isOn .pwr = false ∨ s.link.overrideAt.isSome = true ∨ edge < w.openEdge ∨ w.closeEdge ≤ edge ∨
        12000 + 100 * min 55 s.link.qwDroop.toNat ≤ vaux → exec (.qwDroopOverride edge vaux) s = .next s)) ∧
    (s.link.window = none →
      exec (.coreQuietClose edge) s = .next s ∧ exec (.qwDroopOverride edge vaux) s = .next s)

/-- The core-side quiet window opens, is overridden and ends with the line die's answers. The model's choices that this rests
on: logs 2, 60 and 68. -/
def Obligations.CoreQuietWindow : Prop :=
  Sys2Proof.Claims.QuietAnswersAreTaken ∧
  Sys2Proof.Claims.CoreWindowClosesAndIsOverridden

/-! ## Power path and charger -/

/-- The power path with the validity of a source set. -/
def Sys2Proof.Claims.withValid (p : Power) (x : Source) (v : Bool) : Power :=
  match x with
  | .adp => { p with adpValid := v }
  | .aux => { p with auxValid := v }
  | .bat => { p with batValid := v }

/-- The sources with their thresholds in mV: N·(V_CUT + 0.30 V) and N·V_CUT for VBAT, where N is 1 while CELLS is 0 and V_CUT
is 2.50 V + 0.05 V·n, n held to 12; VADP also has an upper limit (R87, R115). -/
def Sys2Proof.Claims.sourceRows (p : Power) : List (Source × Nat × Nat × Option (Nat × Nat)) :=
  let n := max 1 p.cells.toNat
  let cut := 2500 + 50 * min 12 p.batcut.toNat
  [(.adp, 8600, 8200, some (21000, 21500)), (.aux, 12000, 11000, none), (.bat, n * (cut + 300), n * cut, none)]

/-- R87, R89, R91, R93, R111, R115: a source is valid at its rising threshold or above, invalid below its falling one, and VADP
invalid above 21.5 V and valid again below 21.0 V; between, nothing changes. ADP_OV shows an invalid VADP that is above. When the
selected source becomes invalid its switch opens, and for VBAT that is BAT_CUT with EV12; with no valid source left it is a
change to none. -/
def Sys2Proof.Claims.SourcesBecomeValidAndInvalid : Prop :=
  ∀ (s : State) (mv : Nat), ∀ r ∈ Sys2Proof.Claims.sourceRows s.power,
    let p := s.power
    let high := r.2.2.2.any fun h => decide (h.2 < mv)
    let ov := if r.1 = .adp then high else p.adpOv
    let gone : Power := { (Sys2Proof.Claims.withValid p r.1 false) with adpOv := ov }
    let left := gone.adpValid || gone.auxValid || gone.batValid
    (r.2.1 ≤ mv → (∀ h, r.2.2.2 = some h → mv < h.1) → exec (.sourceValid r.1 mv) s = .next { s with power :=
      { (Sys2Proof.Claims.withValid p r.1 true) with adpOv := if r.1 = .adp then false else p.adpOv } }) ∧
    (mv < r.2.1 ∨ (∃ h, r.2.2.2 = some h ∧ h.1 ≤ mv) → exec (.sourceValid r.1 mv) s = .next s) ∧
    (r.2.2.1 ≤ mv → high = false → exec (.sourceInvalid r.1 mv) s = .next { s with power :=
      { p with adpOv := if r.1 = .adp ∧ p.adpValid = false then false else p.adpOv } }) ∧
    (mv < r.2.2.1 ∨ high = true →
      (p.src ≠ some r.1 → p.before = none → exec (.sourceInvalid r.1 mv) s = .next { s with power := gone }) ∧
      (p.src = some r.1 → left = true →
        let opened : Power := { gone with src := none, before := some r.1 }
        exec (.sourceInvalid r.1 mv) s = .next (if r.1 = .bat ∧ s.bin.held = false then
            ({ s with power := { opened with batCutSeen := true } } : State).raise 12
          else { s with power := opened })) ∧
      (p.src = some r.1 → left = false → s.bin.held = false → ∃ t, exec (.sourceInvalid r.1 mv) s = .next t ∧
        t.power = { gone with
          src := none, before := none, srcChanged := true, srcCount := satInc p.srcCount
          batCutSeen := p.batCutSeen || decide (r.1 = .bat) } ∧
        t.ev.raised.getLsbD 7 = true ∧ (r.1 = .bat → t.ev.raised.getLsbD 12 = true)))

/-- R88, R89, R91, R110, R111, R150, R411: the switch of the valid source of highest priority closes, VADP before VAUX before
VBAT; a change of the selected source is counted once with EV07, and one to VBAT from VADP or VAUX is stamped in FSO_BAT at the
next CK32 edge, unless the Binnacle is held; an OPEN learn ends. With nothing to change, nothing changes. -/
def Sys2Proof.Claims.SelectorClosesTheBestSource : Prop :=
  ∀ s : State,
    let best : Option Source := if s.power.adpValid then some .adp else if s.power.auxValid then some .aux
      else if s.power.batValid then some .bat else none
    let old := if s.power.before.isSome then s.power.before else s.power.src
    (best = none ∨ best = s.power.src → exec .sourceSwitchClose s = .next s) ∧
    (best ≠ none → best ≠ s.power.src → ∃ t, exec .sourceSwitchClose s = .next t ∧
      t = { s with
        power := t.power, bin := t.bin, gauge := t.gauge, berths := t.berths, ev := t.ev, dom := t.dom, fw := t.fw
        free := t.free } ∧
      (s.bin.held = true → t.power = { s.power with src := best, before := none } ∧ t.bin = s.bin) ∧
      (s.bin.held = false →
        t.power = { s.power with src := best, before := none, srcChanged := true, srcCount := satInc s.power.srcCount } ∧
        t.ev.raised.getLsbD 7 = true ∧
        t.bin = { s.bin with
          fsoBatDue := s.bin.fsoBatDue || (best == some .bat && (old == some .adp || old == some .aux)) }) ∧
      (s.gauge.learn = .opened → t.gauge = { s.gauge with learn := .none, lastDisq := 7 } ∧ t.ev.raised.getLsbD 84 = true) ∧
      (s.gauge.learn ≠ .opened → t.gauge = s.gauge))

/-- Sources become valid and invalid, and the selector closes the best one. The model's choices that this rests on: log 2.
-/
def Obligations.SourcesAreJudgedAndSelected : Prop :=
  Sys2Proof.Claims.SourcesBecomeValidAndInvalid ∧
  Sys2Proof.Claims.SelectorClosesTheBestSource

/-- R94, R167: SRG goes high while PWR is ON with SR_EN, no hold and VAUX at 8.0 V or above, and low in every other case, at
−15 mV and at the maximum on-time. -/
def Sys2Proof.Claims.SynchronousRectifierDrivesSrg : Prop :=
  ∀ (s : State) (vaux : Nat),
    (s.isOn .pwr = true → s.power.srEn = true → s.dom.padHeld.getLsbD 0 = false → 8000 ≤ vaux →
      exec (.srTurnOn vaux) s = .next { s with power := { s.power with srg := true } }) ∧
    (s.isOn .pwr = false ∨ s.power.srEn = false ∨ s.dom.padHeld.getLsbD 0 = true ∨ vaux < 8000 →
      exec (.srTurnOn vaux) s = .next { s with power := { s.power with srg := false } }) ∧
    exec .srTurnOff s = .next { s with power := { s.power with srg := false } } ∧
    exec .srMaxOnTime s = .next { s with power := { s.power with srg := false } }

/-- R29, R102, R104, R106, R108, R115: the current regulated in PRE and in CC, half of it there in the COOL zone, and the
voltage in CV; the charger switches in these states alone, while it is not paused for a window, not stopped for temperature
and CHSW is not released or held. -/
def Sys2Proof.Claims.ChargerRegulatesItsZone : Prop :=
  ∀ p : Power,
    let icc := 25 * max 4 (min 80 p.ichg.toNat)
    (p.chg = .pre → p.iReg = some (25 * max 2 (min 16 p.ipre.toNat)) ∧ p.vReg = none) ∧
    (p.chg = .cc → p.iReg = some (if p.zone = .cool then icc / 2 else icc) ∧ p.vReg = none) ∧
    (p.chg = .cv → p.iReg = none ∧ p.vReg = some (p.cells.toNat * ((if p.chem then 3400 + 10 * min p.vreg.toNat 25
        else 4000 + 10 * min p.vreg.toNat 35) - (if p.zone = .warm then (if p.chem then 50 else 100) else 0)))) ∧
    (p.chg ∉ [.pre, .cc, .cv] → p.iReg = none ∧ p.vReg = none) ∧
    (p.switches = true ↔ p.chg ∈ [.pre, .cc, .cv] ∧ p.paused = false ∧ p.hotStop = false ∧ p.chswZ = false)

/-- R100 to R103, R105: what the 1 ms test finds and does, from each state, while the charger may run. -/
def Sys2Proof.Claims.ChargerMovesAsItsTableSays : Prop :=
  ∀ (s : State) (vbat vsys : Nat) (imeas : Half), s.isOn .pwr = true → s.power.chgEn = true → s.power.cells ≠ 0 →
    let n := s.power.cells.toNat
    let vPre := n * (if s.power.chem then 2600 else 3000)
    let vZone := n * (s.power.vRegCell - (if s.power.zone = .warm then (if s.power.chem then 50 else 100) else 0))
    let good := !s.noTs && (s.power.zone == .cool || s.power.zone == .normal || s.power.zone == .warm)
    let charging := s.power.chg == .pre || s.power.chg == .cc || s.power.chg == .cv
    let high := charging && decide (n * (s.power.vRegCell + 120) < vbat)
    let input := s.power.src != some .bat && decide (vbat + 800 ≤ vsys)
    s.power.chg ≠ .off → ∃ t, exec (.chgStateTest vbat vsys imeas) s = .next t ∧
      t = { s with power := t.power, gauge := t.gauge, ev := t.ev, dom := t.dom } ∧
      t.power = { s.power with
        chg := t.power.chg, ichgMeas := imeas, chgFault := t.power.chgFault, preMs := t.power.preMs
        fastMs := t.power.fastMs, lowMs := t.power.lowMs } ∧
      (s.power.chg = .wait → good = true → s.power.src = some .adp ∨ s.power.src = some .aux → vbat + 1500 ≤ vsys →
        t.power.chg = (if vbat < vPre then .pre else .cc) ∧ t.ev.raised.getLsbD 8 = true) ∧
      (high = true → t.power.chg = .fault ∧ t.power.chgFault = s.power.chgFault ||| 0b00100 ∧ t.ev.raised.getLsbD 10 = true) ∧
      (s.power.chg ≠ .fault → high = false → good = false → t.power.chg = .suspend ∧ t.ev = s.ev) ∧
      (s.power.chg = .suspend → good = true → t.power.chg = .wait ∧ t.power.fastMs = s.power.fastMs) ∧
      (charging = true → high = false → good = true → input = false →
        t.power.chg = .wait ∧ t.power.preMs = 0 ∧ t.power.fastMs = 0) ∧
      (s.power.chg = .pre → high = false → good = true → input = true →
        t.power.chg = (if vPre + n * 100 ≤ vbat then .cc else .pre) ∧ t.power.preMs = s.power.preMs + 1) ∧
      (s.power.chg = .cc → high = false → good = true → input = true →
        t.power.chg = (if vZone ≤ vbat then .cv else .cc) ∧ t.power.fastMs = s.power.fastMs + 1) ∧
      (s.power.chg = .cv → high = false → good = true → input = true →
        t.power.chg = .cv ∧ t.power.fastMs = s.power.fastMs + 1 ∧
        t.power.lowMs = (if imeas.toNat < 25 * max 2 (min 16 s.power.iterm.toNat) then s.power.lowMs + 1 else 0)) ∧
      (s.power.chg = .done → good = true →
        t.power.chg = (if vbat < n * (s.power.vRegCell - (if s.power.chem then 50 else 100)) then .wait else .done)) ∧
      (s.power.chg = .fault → t.power.chg = .fault ∧ t.ev = s.ev)

/-- R96, R101, R103 to R105: out of the conditions of R96 the charger is OFF with CHSW released; 60 s below ITERM in CV give
DONE with EV09; a safety timer of the running state at its limit gives FAULT with EV10 and its bit; the 3.0 A and 125 °C stops
set their bits with EV10 and change no state. -/
def Sys2Proof.Claims.ChargerEndsAndFaults : Prop :=
  ∀ (s : State) (vbat vsys : Nat) (imeas : Half),
    let p := s.power
    let preOut := p.chg = .pre ∧ 600000 * max 1 p.tpre.toNat ≤ p.preMs
    let fastOut := (p.chg = .cc ∨ p.chg = .cv) ∧ 3600000 * max 1 p.tfast.toNat ≤ p.fastMs
    (s.isOn .pwr = false ∨ p.chgEn = false ∨ p.cells = 0 → exec (.chgStateTest vbat vsys imeas) s =
      .next (if p.chg = .off then s else { s with power :=
        { p with chg := .off, chswZ := true, preMs := 0, fastMs := 0, lowMs := 0, ichgMeas := 0 } })) ∧
    (p.chg = .cv → 60000 ≤ p.lowMs → exec .chgTermination s = .next (({ s with power :=
      { p with chg := .done, preMs := 0, fastMs := 0, lowMs := 0 } } : State).raise 9)) ∧
    (p.chg ≠ .cv ∨ p.lowMs < 60000 → exec .chgTermination s = .next s) ∧
    (preOut → exec (.chgSafetyTimerExpire .pre) s = .next (({ s with power :=
      { p with chgFault := p.chgFault ||| 0b00001, chg := .fault, lowMs := 0 } } : State).raise 10)) ∧
    (¬ preOut → exec (.chgSafetyTimerExpire .pre) s = .next s) ∧
    (fastOut → exec (.chgSafetyTimerExpire .fast) s = .next (({ s with power :=
      { p with chgFault := p.chgFault ||| 0b00010, chg := .fault, lowMs := 0 } } : State).raise 10)) ∧
    (¬ fastOut → exec (.chgSafetyTimerExpire .fast) s = .next s) ∧
    (p.chg = .pre ∨ p.chg = .cc ∨ p.chg = .cv → exec .chgOvercurrent s =
      .next (({ s with power := { p with chgFault := p.chgFault ||| 0b01000 } } : State).raise 10)) ∧
    (p.chg ≠ .pre → p.chg ≠ .cc → p.chg ≠ .cv → exec .chgOvercurrent s = .next s) ∧
    (p.chg ≠ .off → p.hotStop = false → exec .chgOvertemp s =
      .next (({ s with power := { p with chgFault := p.chgFault ||| 0b10000, hotStop := true } } : State).raise 10)) ∧
    (p.chg = .off ∨ p.hotStop = true → exec .chgOvertemp s = .next s) ∧
    exec .chgOvertempResume s = .next { s with power := { p with hotStop := false } }

/-- SRG follows its rule, and the charger regulates, moves, ends and faults as its tables say. The model's choices that this
rests on: logs 2, 17 and 69. -/
def Obligations.ChargerAndRectifierRun : Prop :=
  Sys2Proof.Claims.SynchronousRectifierDrivesSrg ∧
  Sys2Proof.Claims.ChargerRegulatesItsZone ∧
  Sys2Proof.Claims.ChargerMovesAsItsTableSays ∧
  Sys2Proof.Claims.ChargerEndsAndFaults

/-- R109 to R112, R114, R150, R411: VAON transfers to VBAK, which FSO_BAK is to stamp at the next CK32 edge, ending an OPEN
learn, and back with AON_WAS_BAK and EV14, when the exits that waited for VSYS begin; VBAK below 2.20 V at a second whose LSEC
is a multiple of 64 sets BAK_LOW with EV13; VBAK is charged with BAK_MODE 1 while VAON follows VSYS. The model's choices that
this rests on: logs 2 and 55. -/
def Obligations.AlwaysOnSupplyIsRecorded : Prop :=
  ∀ (s : State) (mv : Nat),
    (s.power.onVbak = true → exec .vaonToVbak s = .next s ∧
      let back : State := { s with power := { s.power with onVbak := false } }
      let told : State := if s.bin.held then back
        else ({ back with power := { back.power with aonWasBak := true } } : State).raise 14
      exec .vaonToVsys s = .next (State.startWanted { told with dom := { told.dom with vsysUp := true } })) ∧
    (s.power.onVbak = false → exec .vaonToVsys s = .next s ∧ ∃ t, exec .vaonToVbak s = .next t ∧
      t = { s with
        power := t.power, bin := t.bin, gauge := t.gauge, berths := t.berths, ev := t.ev, dom := t.dom, fw := t.fw
        free := t.free } ∧
      t.power = { s.power with onVbak := true } ∧
      t.bin = (if s.bin.held then s.bin else { s.bin with fsoBakDue := true }) ∧
      (s.gauge.learn = .opened → t.gauge = { s.gauge with learn := .none, lastDisq := 6 } ∧ t.ev.raised.getLsbD 84 = true) ∧
      (s.gauge.learn ≠ .opened → t.gauge = s.gauge ∧ t.ev = s.ev)) ∧
    (s.cal.lsec.toNat % 64 = 0 → mv < 2200 → s.bin.held = false →
      exec (.vbakCheck mv) s = .next (({ s with power := { s.power with bakLow := true } } : State).raise 13)) ∧
    (s.cal.lsec.toNat % 64 ≠ 0 ∨ 2200 ≤ mv ∨ s.bin.held = true → exec (.vbakCheck mv) s = .next s) ∧
    (s.chargesVbak = true ↔ s.power.bakMode = true ∧ s.power.onVbak = false ∧ s.bin.held = false)

/-! ## Writes from the host -/

/-- The calendar's host commands, as a port of the grant makes them. -/
def Sys2Proof.Claims.rtcRows (p : Port) (v : Half) : List Instr :=
  [.calCmdSetr p, .calCmdSett p, .calCmdCancel p, .shiftWrite p v, .trRunStart p, .trRunAbort p, .llValidClear p,
   .fsoValidClear p .bak, .fsoValidClear p .bat]

/-- R7, R155, R198: a write that the RTC, SYSON or CHARGER grant does not give its port changes nothing at all. (CHG_EN is
judged after its page's domain.) -/
def Sys2Proof.Claims.UngrantedWritesChangeNothing : Prop :=
  ∀ (s : State) (p : Port) (v : Half) (b : Byte),
    (s.bin.rtcGrant.getLsbD (portCode p) = false → ∀ c ∈ Sys2Proof.Claims.rtcRows p v, exec c s = .next s) ∧
    (s.bin.sysonGrant.getLsbD (portCode p) = false → ∀ on, exec (.sysonOnWrite p on) s = .next s) ∧
    (s.isOn .pwr = true → s.bin.chgGrant.getLsbD (portCode p) = false → exec (.chgEnWrite p b) s = .next s)

/-- R8, R126 to R128, R130, R131: SETR and SETT with a valid staged time make a commit pending, replacing a pending mode, and
are rejected whole with CAL_REJ and EV16 otherwise; CANCEL discards; SHIFT is taken, or dropped with SHIFT_CXL while a shift
or a commit is pending. A bit so set is noted as set in this cycle of CK32. -/
def Sys2Proof.Claims.CalendarCommandsFromTheHost : Prop :=
  ∀ (s : State) (p : Port) (v : Half), s.portUp p = true → s.bin.rtcGrant.getLsbD (portCode p) = true →
    let noted (m : Byte) : BinIo := { s.bin with setNow := (0x011B, m) :: s.bin.setNow }
    (s.cal.stagedOk = true →
      exec (.calCmdSetr p) s = .next { s with cal := { s.cal with commit := some .setr } } ∧
      exec (.calCmdSett p) s = .next { s with cal := { s.cal with commit := some .sett } }) ∧
    (s.cal.stagedOk = false → ∀ c ∈ [Instr.calCmdSetr p, .calCmdSett p],
      exec c s = .next (({ s with cal := { s.cal with calRej := true }, bin := noted 0x04 } : State).raise 16)) ∧
    (∃ t, exec (.calCmdCancel p) s = .next t ∧ t = { s with cal := t.cal, berths := t.berths, ev := t.ev, dom := t.dom } ∧
      t.cal = { s.cal with commit := none } ∧
      ((∀ b, ¬ (s.berth b).waitsFor 0x0400) → s.cal.shift.isSome = true → t.berths = s.berths ∧ t.ev = s.ev)) ∧
    (s.cal.shift = none → s.cal.commit = none →
      exec (.shiftWrite p v) s = .next { s with cal := { s.cal with shift := some v } }) ∧
    (s.cal.shift.isSome = true ∨ s.cal.commit.isSome = true →
      exec (.shiftWrite p v) s = .next { s with cal := { s.cal with shiftCxl := true }, bin := noted 0x10 })

/-- A port without its grant changes no calendar, trim, SYSON or charger field; with it, the calendar commands act. The
model's choices that this rests on: log 70. -/
def Obligations.GrantsAndTheCalendarFromTheHost : Prop :=
  Sys2Proof.Claims.UngrantedWritesChangeNothing ∧
  Sys2Proof.Claims.CalendarCommandsFromTheHost

/-- R134, R137: TR_RUN written to 1 arms a measurement, and changes nothing else while one runs; written to 0 it aborts a
running one with cause 6 and EV26. R144, R147, R148, R150: the clears of STAMPED, LL_VALID and the FSO bits take the stamps
with them, and SYSON_ON is as written. R8: a bit that hardware has set in the same cycle of CK32 stays set, with the stamp of
this cycle. -/
def Sys2Proof.Claims.TrimRunsAndStampClears : Prop :=
  ∀ (s : State) (p : Port), s.portUp p = true →
    let set (a : Nat) (k : Nat) : Bool := (s.bin.setMask a).getLsbD k
    (s.bin.rtcGrant.getLsbD (portCode p) = true →
      (s.trim.active = false →
        exec (.trRunStart p) s = .next { s with trim :=
          { s.trim with run := true, active := true, openRaw := none, prog := 0, lastSeq := none, lastPps := none } } ∧
        exec (.trRunAbort p) s = .next s) ∧
      (s.trim.active = true →
        exec (.trRunStart p) s = .next { s with trim := { s.trim with run := true } } ∧
        exec (.trRunAbort p) s = .next (({ s with trim :=
          { s.trim with run := false, active := false, openRaw := none, cause := 6 } } : State).raise 26)) ∧
      exec (.llValidClear p) s = .next (if set 0x0148 2 then s
        else { s with bin := { s.bin with llValid := false, llStamp := 0, llLclk := 0 } }) ∧
      exec (.fsoValidClear p .bak) s = .next { s with bin := if set 0x0148 0 then { s.bin with fsoBak := s.cal.stamp }
        else { s.bin with fsoBakValid := false, fsoBak := 0 } } ∧
      exec (.fsoValidClear p .bat) s = .next { s with bin := if set 0x0148 1 then { s.bin with fsoBat := s.cal.stamp }
        else { s.bin with fsoBatValid := false, fsoBat := 0 } }) ∧
    (∀ i : Fin 4, exec (.stampedClear p i) s = .next { s with bin :=
      { s.bin with evts := s.bin.evts.set i (if set (0x0181 + 0x10 * i.val) 0 then { s.bin.evts[i] with first := s.cal.stamp }
        else { s.bin.evts[i] with stamped := false, first := 0 }) } }) ∧
    (s.bin.sysonGrant.getLsbD (portCode p) = true → ∀ on,
      exec (.sysonOnWrite p on) s = .next { s with bin := { s.bin with sysonOn := on && !set 0x0142 1 } })

/-- R86: a write of LOSS_FRAC or PLIM stores the byte, and queues the limited value in a CFG frame while downlink frames run.
R29, R96, R101, R115: CHG_EN starts the charger from OFF into WAIT, CHSW driven unless it is held, or takes it to OFF, CHSW
released. R198, R199: with PWR not ON both are refused with ACC_OFF. -/
def Sys2Proof.Claims.LineLimitsAndChargerEnable : Prop :=
  ∀ (s : State) (p : Port) (v : Byte), s.portUp p = true →
    (s.isOn .pwr = true →
      (∀ r ∈ [(CfgReg.lossFrac, 1, 16, 48), (CfgReg.plim, 2, 8, 96)],
        let stored : Link :=
          { s.link with
            lossFrac := if r.1 = .lossFrac then v else s.link.lossFrac, plim := if r.1 = .plim then v else s.link.plim }
        let frame : BitVec 4 × BitVec 12 := (r.2.1, BitVec.ofNat 12 (max r.2.2.1 (min r.2.2.2 v.toNat)))
        (s.link.state = .training ∨ s.link.state = .up → exec (.cfgWrite p r.1 v) s = .next { s with
          link := Link.send { stored with cfgQ := s.link.cfgQ ++ [frame] } }) ∧
        (s.link.state = .down ∨ s.link.state = .fault → exec (.cfgWrite p r.1 v) s = .next { s with link := stored })) ∧
      (s.bin.chgGrant.getLsbD (portCode p) = true →
        let q := { s.power with chgEn := v.getLsbD 0, srEn := v.getLsbD 1, srg := s.power.srg && v.getLsbD 1 }
        (v.getLsbD 0 = true → s.power.cells ≠ 0 → s.power.chg = .off → exec (.chgEnWrite p v) s =
          .next { s with power := { q with chg := .wait, chswZ := s.dom.padHeld.getLsbD 0, preMs := 0, fastMs := 0 } }) ∧
        (v.getLsbD 0 = true → s.power.cells ≠ 0 → s.power.chg ≠ .off → exec (.chgEnWrite p v) s = .next { s with power := q }) ∧
        (v.getLsbD 0 = false ∨ s.power.cells = 0 → s.power.chg ≠ .off → exec (.chgEnWrite p v) s = .next { s with power :=
          { q with chg := .off, chswZ := true, preMs := 0, fastMs := 0, lowMs := 0, ichgMeas := 0 } }) ∧
        (v.getLsbD 0 = false ∨ s.power.cells = 0 → s.power.chg = .off → exec (.chgEnWrite p v) s = .next { s with power := q }))) ∧
    (s.isOn .pwr = false →
      ∀ r ∈ [(Instr.cfgWrite p .lossFrac v, 0x03C9), (.cfgWrite p .plim v, 0x03CA), (.chgEnWrite p v, 0x0382)],
        exec r.1 s = .next (({ s with spi :=
          { s.spi with flags := s.spi.flags ||| (1#8 <<< portCode p), accAddr := BitVec.ofNat 16 r.2
                       accPort := BitVec.ofNat 2 (portCode p) } } : State).raiseWhenHif 32))

/-- TR_RUN, stamp clears, LOSS_FRAC, PLIM and CHG_EN written by the host. The model's choices that this rests on: logs 2,
11, 69 and 70. -/
def Obligations.TrimStampAndLineWritesFromTheHost : Prop :=
  Sys2Proof.Claims.TrimRunsAndStampClears ∧
  Sys2Proof.Claims.LineLimitsAndChargerEnable

/-- R180: KEEP is written through its own port only; naming a domain that is not ON raises the KEEP wake source for it.
R181, R182, R279: a ring through the bound port sets PEND, clears ACK and RESP_RDY and wakes; a second one counts in
RING_CNT; through any other port it is logged as a violation. -/
def Sys2Proof.Claims.KeepAndDoorbells : Prop :=
  ∀ (s : State) (p target : Port) (v : BitVec 3) (n : Fin 4), s.portUp p = true →
    (target ≠ p → exec (.keepWrite p target v) s = .next s) ∧
    (∃ t, exec (.keepWrite p p v) s = .next t ∧ t = { s with dom := t.dom } ∧
      t.dom.keepA = (if p = .csA then v else s.dom.keepA) ∧ t.dom.keepB = (if p = .csB then v else s.dom.keepB) ∧
      t.dom.keepW = (if p = .tw then v else s.dom.keepW) ∧
      (((!v.getLsbD 0 || s.isOn .cpu) && (!v.getLsbD 1 || (s.isOn .memB && s.isOn .hif)) && (!v.getLsbD 2 || s.isOn .hif)) = true →
        t.dom.wakeFlags = s.dom.wakeFlags) ∧
      (v.getLsbD 0 = true → s.isOn .cpu = false → s.dom.wakeEn.getLsbD 17 = true →
        t.dom.wakeFlags = s.dom.wakeFlags ||| (1#32 <<< 17) ∧
        (s.dom.cpu.st = .off → s.powered = true → t.dom.cpu.st = .leaving .off))) ∧
    (s.bound p n.val = true → s.dom.bells[n].pend = false → ∃ t, exec (.ringWrite p n) s = .next t ∧
      t = { s with dom := t.dom, berths := t.berths } ∧
      t.dom.bells = s.dom.bells.set n { s.dom.bells[n] with pend := true, ack := false } ∧
      t.dom.ringOrder = s.dom.ringOrder ++ [n] ∧
      t.berths = { s.berths with blk := s.berths.blk.set n { s.berths.blk[n] with respRdy := false } } ∧
      (s.dom.wakeEn.getLsbD (12 + n.val) = true → t.dom.wakeFlags = s.dom.wakeFlags ||| (1#32 <<< (12 + n.val)) ∧
        (s.dom.cpu.st = .off → s.powered = true → t.dom.cpu.st = .leaving .off))) ∧
    (s.bound p n.val = true → s.dom.bells[n].pend = true → exec (.ringWrite p n) s = .next { s with dom :=
      { s.dom with bells := s.dom.bells.set n { s.dom.bells[n] with cnt := satInc s.dom.bells[n].cnt } } }) ∧
    (s.bound p n.val = false → ∃ t, exec (.ringWrite p n) s = .next t ∧
      t = { s with berths := t.berths, ev := t.ev, dom := t.dom } ∧ t.dom.bells = s.dom.bells ∧
      t.berths = { s.berths with av :=
        { stat := s.berths.av.stat ||| (1#4 <<< n.val), cnt := s.berths.av.cnt.set n (satInc s.berths.av.cnt[n])
          addr := BitVec.ofNat 16 (0x0240 + 4 * n.val), port := BitVec.ofNat 2 (portCode p), berth := BitVec.ofNat 2 n.val
          kind := 2 } } ∧ t.ev.raised.getLsbD (52 + n.val) = true)

/-- R282, R304, R313: RING_RD through the bound port frees records and is dropped when it would leave more than 128 unread;
PEND bits written as 1 clear. Through another port a berth's event block changes nothing and its window is a violation. -/
def Sys2Proof.Claims.RingReadAndPendClear : Prop :=
  ∀ (s : State) (p : Port) (b : Fin 4) (v : Byte) (k : Fin 12), s.portUp p = true → s.isOn .hif = true →
    (s.bound p b.val = true → s.isOn .memB = true →
      (((s.berth b).ringWr - v).toNat ≤ 128 → exec (.ringRdWrite p b v) s =
        .next { s with berths := { s.berths with blk := s.berths.blk.set b { s.berths.blk[b] with ringRd := v } } }) ∧
      (128 < ((s.berth b).ringWr - v).toNat → exec (.ringRdWrite p b v) s = .next s)) ∧
    (s.bound p b.val = true → ∃ t, exec (.pendClear p b k v) s = .next t ∧ t = { s with ev := t.ev } ∧
      t.ev = { s.ev with pend := t.ev.pend } ∧ (∀ n, n ≠ b → t.ev.pend[n] = s.ev.pend[n]) ∧
      ∀ e < 96, t.ev.pend[b].getLsbD e =
        (s.ev.pend[b].getLsbD e && !(decide (e / 8 = k.val) && v.getLsbD (e % 8)))) ∧
    (s.bound p b.val = false →
      exec (.pendClear p b k v) s = .next s ∧
      ∃ t, exec (.ringRdWrite p b v) s = .next t ∧ t = { s with berths := t.berths, ev := t.ev, dom := t.dom } ∧
        t.berths.blk = s.berths.blk ∧ t.berths.mem = s.berths.mem ∧
        t.berths.av.stat = s.berths.av.stat ||| (1#4 <<< b.val) ∧ t.berths.av.kind = 1 ∧
        t.ev.raised.getLsbD (52 + b.val) = true)

/-- KEEP, doorbells, RING_RD and PEND through the bound port, and violations through another. -/
def Obligations.KeepRingsAndPendBits : Prop :=
  Sys2Proof.Claims.KeepAndDoorbells ∧
  Sys2Proof.Claims.RingReadAndPendClear

/-! ## The Binnacle -/

/-- R116, R118, R120, R126, R129, R130, R132: an edge that ends a second advances LSEC by one, from the last second of the
400-year cycle to 0 with CENT_WRAP and EV17; a pending SETT loads the staged time in its place, and a pending shift moves
the ticked time; SUBSEC otherwise counts. The edge begins a new cycle of CK32, samples the key and writes the stamps due. No
trim correction is due at the edge. -/
def Sys2Proof.Claims.SecondsTickAdvancesTheTime : Prop :=
  ∀ (s : State) (key : Bool), s.bin.held = false → s.cal.commit ≠ some .setr → s.corrDue = false →
    let before := s.cal.lsec.toNat * 32768 + s.cal.subsec.toNat
    let cal : Cal := { s.cal with started := true, before := before, jumped := false, tickDone := false }
    let cycle : BinIo := { s.bin with setNow := [], evtNow := 0 }
    (s.cal.started = false → exec (.prescalerCount key) s = .next { s with
      cal := cal, trim := { s.trim with cycleTrim := s.trim.trim }, bin := { (cycle.sample cal.stamp) with pkLevel := key } }) ∧
    (s.cal.started = true →
      let edge : Trim :=
        { s.trim with
          raw := s.trim.raw + 1
          cyclePos := if s.cal.onLrc then s.trim.cyclePos else (s.trim.cyclePos + 1) % 8388608, corrOwed := false }
      (s.cal.subsec ≠ 32767 →
        (let next : Cal := { cal with subsec := s.cal.subsec + 1 }
         exec (.prescalerCount key) s = .next { s with
           cal := next, trim := edge, bin := { (cycle.sample next.stamp) with pkLevel := key } }) ∧
        exec .secondsTick s = .next s) ∧
      (s.cal.subsec = 32767 →
        exec (.prescalerCount key) s = .next s ∧
        ∃ t, exec .secondsTick s = .next t ∧
          t = { s with cal := t.cal, trim := edge, bin := t.bin, berths := t.berths, ev := t.ev, dom := t.dom } ∧
          (s.cal.commit = none → s.cal.shift = none → s.cal.lsec.toNat + 1 < 12622780800 →
            t.cal = { cal with lsec := s.cal.lsec + 1, subsec := 0 } ∧ t.bin = cycle.sample t.cal.stamp) ∧
          (s.cal.commit = none → s.cal.shift = none → s.cal.lsec.toNat + 1 = 12622780800 →
            t.cal = { cal with lsec := 0, subsec := 0, centWrap := true } ∧ t.ev.raised.getLsbD 17 = true ∧
            t.bin = BinIo.sample t.cal.stamp { cycle with setNow := [(0x011B, 0x08)] }) ∧
          (s.cal.commit = some .sett →
            let l := BitVec.ofNat 34 (lsecOf s.cal.staged)
            t.cal.lsec = l ∧ t.cal.subsec = 0 ∧ t.cal.commit = none ∧ t.cal.shift = none ∧
            t.cal.shiftCxl = (s.cal.shiftCxl || s.cal.shift.isSome) ∧ t.cal.setLast = stampOf l 0 0b10 ∧
            (s.cal.shift = none → s.cal.lsec.toNat + 1 < 12622780800 → t.cal.setPrev = stampOf (s.cal.lsec + 1) 0 0b10)) ∧
          (∀ v, s.cal.commit = none → s.cal.shift = some v → s.cal.lsec.toNat + 3 < 12622780800 →
            t.cal.lsec.toNat * 32768 + t.cal.subsec.toNat =
              (s.cal.lsec.toNat + 1) * 32768 + (if v.getLsbD 15 then 32768 else 0) - v.toNat % 32768 ∧
            t.cal.shift = none ∧ t.cal.setLast = stampOf t.cal.lsec t.cal.subsec 0b11 ∧
            t.cal.setPrev = stampOf (s.cal.lsec + 1) 0 0b11)))

/-- R11, R142, R147, R150: the stamps that fell due are written at a CK32 edge, with the edge's stamp: LL_STAMP with the LCLK
stamp of the loss, and FSO_BAK and FSO_BAT unless they are frozen; each sets its valid bit in this cycle. -/
def Sys2Proof.Claims.StampsAreWrittenAtTheEdge : Prop :=
  ∀ (b : BinIo) (st : BitVec 64),
    let t := b.sample st
    t = { b with
      llDue := none, llValid := t.llValid, llStamp := t.llStamp, llLclk := t.llLclk, fsoBakDue := false, fsoBatDue := false
      fsoBakValid := b.fsoBakValid || b.fsoBakDue, fsoBatValid := b.fsoBatValid || b.fsoBatDue
      fsoBak := if b.fsoBakDue && !b.fsoBakValid then st else b.fsoBak
      fsoBat := if b.fsoBatDue && !b.fsoBatValid then st else b.fsoBat, setNow := t.setNow } ∧
    (b.llDue = none → t.llValid = b.llValid ∧ t.llStamp = b.llStamp ∧ t.llLclk = b.llLclk) ∧
    (∀ k, b.llDue = some k → t.llValid = true ∧ t.llStamp = st ∧ t.llLclk = k) ∧
    t.setNow = (if b.llDue.isSome then [(0x0148, 0x04)] else []) ++ (if b.fsoBatDue then [(0x0148, 0x02)] else []) ++
      (if b.fsoBakDue then [(0x0148, 0x01)] else []) ++ b.setNow

/-- R126, R129, R131, R132: a pending SETR loads the staged time at the next edge with SUBSEC 0, records SET_LAST and
SET_PREV, and cancels a pending shift with SHIFT_CXL. -/
def Sys2Proof.Claims.SetrLoadsTheStagedTime : Prop :=
  ∀ s : State, s.bin.held = false →
    (s.cal.commit = some .setr → ∃ t, exec .setrLoad s = .next t ∧
      t = { s with cal := t.cal, trim := t.trim, bin := t.bin, berths := t.berths, ev := t.ev, dom := t.dom } ∧
      t.cal.lsec = BitVec.ofNat 34 (lsecOf s.cal.staged) ∧ t.cal.subsec = 0 ∧ t.cal.commit = none ∧
      t.cal.setLast = stampOf t.cal.lsec 0 0b01 ∧ t.cal.jumped = true ∧
      (s.cal.started = true → s.corrDue = false → s.cal.subsec ≠ 32767 → s.cal.lsec.toNat < 12622780800 →
        t.cal.setPrev = stampOf s.cal.lsec (s.cal.subsec + 1) 0b01) ∧
      t.cal.shift = none ∧ t.cal.shiftCxl = (s.cal.shiftCxl || s.cal.shift.isSome) ∧ t.cal.started = true ∧
      t.trim.corrOwed = (if s.cal.started then s.corrDue else s.trim.corrOwed) ∧
      (s.cal.started = false → t.trim.cycleTrim = s.trim.trim)) ∧
    (s.cal.commit ≠ some .setr → exec .setrLoad s = .next s)

/-- R126 to R128: the time that a host stages is loaded after its command: SETR at the next edge, SETT at the end of the second;
after CANCEL nothing is loaded. -/
def Sys2Proof.Claims.CommandedTimeIsLoaded : Prop :=
  ∀ (s : State) (p : Port), s.portUp p = true → s.bin.rtcGrant.getLsbD (portCode p) = true →
    let l := BitVec.ofNat 34 (lsecOf s.cal.staged)
    (s.cal.stagedOk = true → ∃ t u, exec (.calCmdSetr p) s = .next t ∧ t.cal.commit = some .setr ∧
      exec .setrLoad t = .next u ∧ u.cal.lsec = l ∧ u.cal.subsec = 0 ∧ u.cal.commit = none ∧ u.cal.setLast = stampOf l 0 0b01) ∧
    (s.cal.stagedOk = true → s.cal.started = true → s.corrDue = false → s.cal.subsec = 32767 →
      ∃ t u, exec (.calCmdSett p) s = .next t ∧ t.cal.commit = some .sett ∧
        exec .secondsTick t = .next u ∧ u.cal.lsec = l ∧ u.cal.subsec = 0 ∧ u.cal.commit = none) ∧
    ∃ t, exec (.calCmdCancel p) s = .next t ∧ t.cal = { s.cal with commit := none } ∧ exec .setrLoad t = .next t

/-- The seconds tick advances, shifts and loads the time; SETR loads at once; the stamps due are written; a host's command
ends in its load. The model's choices that this rests on: logs 6, 70 and 71. -/
def Obligations.TheCalendarAdvances : Prop :=
  Sys2Proof.Claims.SecondsTickAdvancesTheTime ∧
  Sys2Proof.Claims.StampsAreWrittenAtTheEdge ∧
  Sys2Proof.Claims.SetrLoadsTheStagedTime ∧
  Sys2Proof.Claims.CommandedTimeIsLoaded

/-- R121, R132, R133: a correction that is due adds two counts for a positive TRIM and none for a negative one; each 256 s
cycle takes TRIM as it stands at its start; a crystal failure counts on LRC with EV18 and aborts a measurement with cause 5,
and the recovery ends it. -/
def Sys2Proof.Claims.TrimCorrectsTheCount : Prop :=
  ∀ s : State,
    (s.bin.held = false → s.cal.started = true → s.cal.commit ≠ some .setr → s.corrDue = true →
      let edge : Trim := { s.trim with raw := s.trim.raw + 1, cyclePos := (s.trim.cyclePos + 1) % 8388608, corrOwed := false }
      let cal : Cal :=
        { s.cal with
          before := s.cal.lsec.toNat * 32768 + s.cal.subsec.toNat, jumped := false, tickDone := false }
      let cycle : BinIo := { s.bin with setNow := [], evtNow := 0 }
      (s.trim.cycleTrim.msb = true → exec .trimCorrection s = .next { s with
        cal := cal, trim := edge, bin := cycle.sample cal.stamp }) ∧
      (s.trim.cycleTrim.msb = false → s.cal.subsec.toNat + 2 < 32768 →
        let next : Cal := { cal with subsec := s.cal.subsec + 2 }
        exec .trimCorrection s = .next { s with cal := next, trim := edge, bin := cycle.sample next.stamp }) ∧
      (s.trim.cycleTrim.msb = false → 32768 ≤ s.cal.subsec.toNat + 2 → s.cal.commit = none → s.cal.shift = none →
        s.cal.lsec.toNat + 1 < 12622780800 → ∃ t, exec .trimCorrection s = .next t ∧
          t.cal = { cal with lsec := s.cal.lsec + 1, subsec := BitVec.ofNat 15 (s.cal.subsec.toNat + 2 - 32768) })) ∧
    (s.corrDue = false → exec .trimCorrection s = .next s) ∧
    (s.trim.cyclePos + 1 = 8388608 →
      exec .trimCycleStart s = .next { s with trim := { s.trim with cycleTrim := s.trim.trim } }) ∧
    (s.trim.cyclePos + 1 ≠ 8388608 → exec .trimCycleStart s = .next s) ∧
    (s.cal.onLrc = true ∨ s.bin.held = true → exec .xtalFail s = .next s) ∧
    (s.cal.onLrc = false → s.bin.held = false → ∃ t, exec .xtalFail s = .next t ∧
      t = { s with cal := t.cal, trim := t.trim, bin := t.bin, fw := t.fw, ev := t.ev, dom := t.dom } ∧
      t.cal = { s.cal with xtalFail := true, onLrc := true } ∧ t.ev.raised.getLsbD 18 = true ∧
      t.bin = { s.bin with setNow := (0x011B, 0x20) :: s.bin.setNow } ∧
      (s.trim.active = true →
        t.trim = { s.trim with run := false, active := false, openRaw := none, cause := 5 } ∧ t.ev.raised.getLsbD 26 = true) ∧
      (s.trim.active = false → t.trim = s.trim)) ∧
    ∃ t, exec .xtalRecover s = .next t ∧
      t = { s with cal := { s.cal with onLrc := false }, trim := t.trim, fw := t.fw, ev := t.ev, dom := t.dom } ∧
      (s.fw.trimRestart = false → t.trim = s.trim ∧ t.ev = s.ev)

/-- R134 to R137, R146: an armed measurement opens once its reference has come; after 2^k periods TR_COUNT and TR_CALC are
set, TR_CALC being the deviation in steps of 2⁻²³ clamped to 13 bits, TR_VALID is set, TR_RUN clears and EV25 is raised, TRIM
is loaded with TR_AUTO, which discards a host's write of the same cycle, and the next measurement opens with TR_CONT; a PPS
interval outside 32,768 ± 16 aborts with cause 4. -/
def Sys2Proof.Claims.TrimIsMeasured : Prop :=
  ∀ s : State,
    let k := min s.trim.k.toNat (if s.trim.src then 16 else 22)
    let ready := if s.trim.src then s.trim.lastPps.isSome else s.trim.lastSeq.isSome
    (s.trim.active = true → s.trim.openRaw = none → ready = true →
      exec .trimMeasOpen s = .next { s with trim := { s.trim with openRaw := some s.trim.raw, prog := 0 } }) ∧
    (s.trim.active = false ∨ s.trim.openRaw.isSome = true ∨ ready = false → exec .trimMeasOpen s = .next s) ∧
    (∀ r, s.trim.openRaw = some r → s.trim.active = true → 2 ^ k ≤ s.trim.prog.toNat →
      let e : Nat := 2 ^ k * 32768
      let v := divRound (((e : Int) - ((s.trim.raw - r) * (if s.trim.src then 1 else if s.trim.fnom then 60 else 50) : Nat)) * 2 ^ 23) e
      let w := BitVec.ofInt 13 (max (-4096) (min 4095 v))
      exec .trimMeasDone s = .next (({ s with
        bin := if s.trim.auto then { s.bin with setNow := (0x0130, 0xFF) :: s.bin.setNow } else s.bin
        trim :=
          { s.trim with
            count := BitVec.ofNat 32 (s.trim.raw - r), calcd := w, clamped := decide (v < -4096 ∨ 4095 < v), valid := true
            trim := if s.trim.auto then w else s.trim.trim, run := false, active := s.trim.cont
            openRaw := if s.trim.cont then some s.trim.raw else none, prog := 0 } } : State).raise 25)) ∧
    (s.trim.openRaw = none ∨ s.trim.active = false ∨ s.trim.prog.toNat < 2 ^ k → exec .trimMeasDone s = .next s) ∧
    (s.bin.evts[3].pps = true → s.trim.active = true → s.bin.held = false →
      (s.trim.lastPps = none → exec .ppsEdge s = .next { s with trim := { s.trim with lastPps := some s.trim.raw } }) ∧
      (∀ r, s.trim.lastPps = some r → 32752 ≤ s.trim.raw - r → s.trim.raw - r ≤ 32784 → exec .ppsEdge s = .next { s with trim :=
        { s.trim with
          lastPps := some s.trim.raw
          prog := if s.trim.src && s.trim.openRaw.isSome && decide (s.trim.prog.toNat < 2 ^ k) then s.trim.prog + 1
            else s.trim.prog } }) ∧
      (∀ r, s.trim.lastPps = some r → s.trim.raw - r < 32752 ∨ 32784 < s.trim.raw - r → s.fw.trimRestart = false →
        s.fw.trimRestarts = false → exec .ppsEdge s = .next (({ s with trim :=
          { s.trim with run := false, active := false, openRaw := none, cause := 4 } } : State).raise 26))) ∧
    (s.bin.evts[3].pps = false ∨ s.trim.active = false ∨ s.bin.held = true → exec .ppsEdge s = .next s)

/-- R139, R148, R172: the wake tick fires once at an edge: where a load or a shift landed on a multiple of its period 2^(n−8) s,
or a count reached or passed one; it raises EV19, wakes and may set SYSON_ON. AWAKE, high for four samples, does the last two. -/
def Sys2Proof.Claims.WakeTickFiresAtItsPeriod : Prop :=
  ∀ (s : State) (samples : Nat),
    let p := 2 ^ (min 20 s.bin.tickSel.toNat + 7)
    let now := s.cal.lsec.toNat * 32768 + s.cal.subsec.toNat
    let due := if s.cal.jumped then now % p = 0 else now ≠ s.cal.before ∧ now / p ≠ s.cal.before / p
    (s.bin.tickEn = true → s.cal.tickDone = false → due → exec .wakeTick s =
      .next (((({ s with cal := { s.cal with tickDone := true } } : State).raise 19).wake 1 [.cpu]).sysonAuto 2)) ∧
    (s.bin.tickEn = false ∨ s.cal.tickDone = true ∨ ¬ due → exec .wakeTick s = .next s) ∧
    (s.bin.held = false → 4 ≤ samples → exec (.awakeHigh samples) s = .next ((s.wake 11 [.cpu]).sysonAuto 1)) ∧
    (s.bin.held = true ∨ samples < 4 → exec (.awakeHigh samples) s = .next s)

/-- R143 to R145, R148, R152, R153, R172: an edge of an event input that its filter lets pass, once a polarity in each period
of CK32, and a comparator crossing that its filter lets pass raise their events and latch their wake sources; an edge that EDGE
does not select, or on EVT3 in PPS mode, only shows. A comparator is high from 0.20 V + 0.05 V·n, less its hysteresis while it
is high. -/
def Sys2Proof.Claims.EdgesAndTripsWake : Prop :=
  ∀ (s : State) (i : Fin 4) (up : Bool) (n mv : Nat), s.bin.held = false →
    let e := s.bin.evts[i]
    let c := s.bin.cmps[i]
    let chosen := if up then e.edge.getLsbD 0 else e.edge.getLsbD 1
    let once : BitVec 8 := 1#8 <<< (2 * i.val + up.toNat)
    let high := decide (200 + 50 * c.thr.toNat ≤ mv + (if c.out then 25 * min 2 c.hyst.toNat else 0))
    let hit := if high then c.edge.getLsbD 0 else c.edge.getLsbD 1
    (n < 2 ^ e.filt.toNat → exec (.evtEdge i up n) s = .next s) ∧
    (2 ^ e.filt.toNat ≤ n → e.pps = true ∨ chosen = false ∨ s.bin.evtNow &&& once ≠ 0 →
      exec (.evtEdge i up n) s = .next { s with bin := { s.bin with evts := s.bin.evts.set i { e with level := up } } }) ∧
    (2 ^ e.filt.toNat ≤ n → e.pps = false → chosen = true → s.bin.evtNow &&& once = 0 →
      ∃ t, exec (.evtEdge i up n) s = .next t ∧
        t = { s with bin := t.bin, ev := t.ev, dom := t.dom } ∧ t.ev.raised.getLsbD (20 + i.val) = true ∧
        (s.dom.wakeEn.getLsbD (2 + i.val) = true → t.dom.wakeFlags.getLsbD (2 + i.val) = true) ∧
        t.bin.evtNow = s.bin.evtNow ||| once ∧
        (e.stamped = false →
          t.bin.evts = s.bin.evts.set i { e with level := up, count := satInc e.count, stamped := true, first := s.cal.stamp } ∧
          t.bin.sysonOn = (s.bin.sysonOn || s.bin.sysonAuto.getLsbD 4) ∧
          t.bin.setNow = (0x0181 + 0x10 * i.val, 0x01) :: s.bin.setNow) ∧
        (e.stamped = true → t.ev.raised.getLsbD 24 = true ∧ t.bin = { s.bin with
          evtNow := s.bin.evtNow ||| once, setNow := (0x0181 + 0x10 * i.val, 0x03) :: s.bin.setNow
          evts := s.bin.evts.set i { e with level := up, count := satInc e.count, ovr := true } })) ∧
    (c.edge = 0 ∨ high = c.out ∨ n < 2 ^ c.filt.toNat → exec (.cmpTrip i mv n) s = .next s) ∧
    (c.edge ≠ 0 → high ≠ c.out → 2 ^ c.filt.toNat ≤ n →
      (hit = false →
        exec (.cmpTrip i mv n) s = .next { s with bin := { s.bin with cmps := s.bin.cmps.set i { c with out := high } } }) ∧
      (hit = true → ∃ t, exec (.cmpTrip i mv n) s = .next t ∧
        t = { s with bin := t.bin, ev := t.ev, dom := t.dom } ∧
        t.bin.cmps = s.bin.cmps.set i { c with out := high, tripped := true } ∧ t.ev.raised.getLsbD (28 + i.val) = true ∧
        (s.dom.wakeEn.getLsbD (6 + i.val) = true → t.dom.wakeFlags.getLsbD (6 + i.val) = true) ∧
        t.bin.sysonOn = (s.bin.sysonOn || s.bin.sysonAuto.getLsbD 5)))

/-- The trim corrects the count over its cycle, and a measurement computes it. The model's choices that this rests on: log
6. -/
def Obligations.TheTrimCorrectsAndMeasures : Prop :=
  Sys2Proof.Claims.TrimCorrectsTheCount ∧
  Sys2Proof.Claims.TrimIsMeasured

/-- R111: while the Binnacle is held in reset no edge of an event input and no comparator result is taken. -/
def Sys2Proof.Claims.TicksEdgesAndTripsWake : Prop :=
  Sys2Proof.Claims.WakeTickFiresAtItsPeriod ∧ Sys2Proof.Claims.EdgesAndTripsWake ∧
  ∀ (s : State) (i : Fin 4) (up : Bool) (n mv : Nat), s.bin.held = true →
    exec (.evtEdge i up n) s = .next s ∧ exec (.cmpTrip i mv n) s = .next s

/-- R148, R149, R172: a press of 32 ms to below PK_LONG, of PK_LONG, or of 12 s sets its bit of PK_STAT, raises EV27 and latches
PWRKEY; a long one may set SYSON_ON, and a hard-off, with PK_HARDOFF, clears it with SYSON_FORCED_OFF. -/
def Sys2Proof.Claims.PowerKeyPressesAreClassed : Prop :=
  ∀ (s : State) (ms : Nat),
    let long := 500 * (s.bin.pkLong.toNat + 1)
    let press (k : Nat) (level : Bool) : State :=
      (({ s with bin := { s.bin with
        pkStat := s.bin.pkStat ||| (1#3 <<< k), pkLevel := level
        setNow := (0x0145, 1#8 <<< k) :: s.bin.setNow } } : State).raise 27).wake 10 [.cpu]
    (s.bin.held = false → 32 ≤ ms → ms < long → exec (.pwrkeyShort ms) s = .next (press 0 false)) ∧
    (s.bin.held = true ∨ ms < 32 ∨ long ≤ ms → exec (.pwrkeyShort ms) s = .next s) ∧
    (s.bin.held = false → long ≤ ms → exec (.pwrkeyLong ms) s = .next { press 1 true with bin := { (press 1 true).bin with
      sysonOn := s.bin.sysonOn || s.bin.sysonAuto.getLsbD 0 } }) ∧
    (s.bin.held = true ∨ ms < long → exec (.pwrkeyLong ms) s = .next s) ∧
    (s.bin.held = false → s.bin.pkHardoff = true → 12000 ≤ ms → exec (.pwrkeyHardoff ms) s = .next { press 2 true with bin :=
      { (press 2 true).bin with
        sysonOn := false, sysonForcedOff := true, setNow := (0x0142, 0x02) :: (press 2 true).bin.setNow } }) ∧
    (s.bin.held = true ∨ s.bin.pkHardoff = false ∨ ms < 12000 → exec (.pwrkeyHardoff ms) s = .next s)

/-- Wake ticks, event inputs, comparators and PWRKEY presses are recorded and wake. The model's choices that this rests on:
logs 2, 42, 70 and 72. -/
def Obligations.TicksTripsAndKeyPresses : Prop :=
  Sys2Proof.Claims.TicksEdgesAndTripsWake ∧
  Sys2Proof.Claims.PowerKeyPressesAreClassed

/-- R22, R27, R30, R77, R94, R138, R148, R202, R311: what the output pads do: with VDDIO gone, or NRST low, the interrupt pins, MISO
and the link test pads are released; otherwise an asserted pin is low, and one not asserted is driven high in push-pull mode
alone; LTP0 and LTP1 replicate the two directions of the link while HIF is ON and LTP_EN is 1; SYSON pulls low while asserted;
SQW is released with SQW_EN 0 and in the first half of each period of 2^n Hz. -/
def Sys2Proof.Claims.OutputPadsFollowTheState : Prop :=
  ∀ (s : State) (k : Fin 2) (ck : Bool),
    let down := s.spi.vddio = false ∨ s.bin.held = true ∨ s.dom.nrstLow = true
    (down → s.irqPad k = .z ∧ s.misoDriven = false ∧ s.ltp0 = none ∧ s.ltp1 = none) ∧
    (¬ down →
      (s.irqPad k = .low ↔ s.irqPins.getLsbD k.val = true) ∧
      (s.irqPad k = .high ↔ s.irqPins.getLsbD k.val = false ∧ s.irqPush.getLsbD k.val = true) ∧
      (s.misoDriven = true ↔ s.spi.xfer.isSome = true) ∧
      (s.isOn .hif = true → s.link.ltpEn = true → s.ltp0 = some s.link.signal ∧ s.ltp1 = some s.line.signal) ∧
      (s.isOn .hif = false ∨ s.link.ltpEn = false → s.ltp0 = none ∧ s.ltp1 = none)) ∧
    (s.line.running = true → s.line.beacon = true → s.line.signal = .burst ∧ s.line.signal.level = some .high) ∧
    (s.sysonPad = .low ↔ s.bin.sysonOn = true) ∧ (s.srgPad = .high ↔ s.power.srg = true) ∧
    (s.bin.sqwEn = false → s.sqwPad ck = .z) ∧
    (s.bin.sqwEn = true → s.bin.sqwSel = 15 → (s.sqwPad ck = .low ↔ ck = false)) ∧
    (s.bin.sqwEn = true → s.bin.sqwSel ≠ 15 →
      (s.sqwPad ck = .low ↔ s.cal.subsec.toNat / 2 ^ (14 - s.bin.sqwSel.toNat) % 2 = 1)) ∧
    (s.hsclPad = .low ↔ s.tw.phase = .stretched ∧ s.bin.held = false ∧ s.dom.nrstLow = false)

/-- R32, R111, R177, R482, R493: a power-on reset of the Binnacle returns everything on the core die to its reset value and
holds it, leaving the line die, flash, what waits, and the levels that come from outside; its release starts the strap
measurement, which latches the address once; VDDIO gone ends a transfer and its return serves the next fall. -/
def Sys2Proof.Claims.BinnacleResetsAndReleases : Prop :=
  ∀ (s : State) (mv : Nat),
    (∃ t, exec .binPowerOnReset s = .next t ∧ t.line = s.line ∧ t.flash = s.flash ∧ t.pending = s.pending ∧
      t.dom = { vsysUp := s.dom.vsysUp && !s.power.onVbak } ∧ t.link = {} ∧ t.power = { onVbak := s.power.onVbak } ∧
      t.cal = {} ∧ t.trim = {} ∧ t.bin = { held := true } ∧ t.berths = {} ∧
      t.tw = { hscl := s.tw.hscl, hsda := s.tw.hsda } ∧
      t.spi = { vddio := s.spi.vddio, csA := s.spi.csA, csB := s.spi.csB, deafA := s.spi.csA, deafB := s.spi.csB } ∧
      t.ev = State.reset.ev ∧ t.gauge = State.reset.gauge ∧ t.log = State.reset.log ∧ t.fw = State.reset.fw) ∧
    (s.bin.held = true →
      exec .binPorRelease s = .next { s with
        bin := { s.bin with held := false, strapBusy := true }
        dom := { s.dom with vsysUp := s.dom.vsysUp || !s.power.onVbak } } ∧
      exec (.addrStrapLatch mv) s = .next s ∧ exec .nrstReset s = .next s ∧
      exec .brownOutReset s = .next { s with dom := { s.dom with vsysUp := false } }) ∧
    (s.bin.held = false →
      exec .binPorRelease s = .next s ∧
      (s.bin.strapBusy = true → exec (.addrStrapLatch mv) s = .next { s with
        tw := { s.tw with addr := if mv < 100 then 0x4B else if mv < 500 then 0x4C else if mv < 1400 then 0x4D else 0x4E }
        bin := { s.bin with strapBusy := false } }) ∧
      (s.bin.strapBusy = false → exec (.addrStrapLatch mv) s = .next s)) ∧
    exec .vddioLoss s = .next { s with spi :=
      { s.spi with
        vddio := false, xfer := none, deafA := s.spi.deafA || s.spi.csA, deafB := s.spi.deafB || s.spi.csB
        miso := match s.spi.xfer with | some t => t.sent | none => s.spi.miso } } ∧
    exec .vddioReturn s = .next { s with spi := { s.spi with vddio := true } }

/-- A power-on reset of the Binnacle, its release, the strap, VDDIO, and the output pads. The model's choices that this rests
on: logs 2, 20 and 55. -/
def Obligations.BinnacleResetAndPads : Prop :=
  Sys2Proof.Claims.BinnacleResetsAndReleases ∧
  Sys2Proof.Claims.OutputPadsFollowTheState

/-! ## Power domains, wakes, resets and delivery -/

/-- R11, R159 to R163: an idle expiry with IDLE at 0, before IDLE·10 ms, on a domain that is not ON, or on a LOG that works,
changes nothing; one that a KEEP bit, R49, R99, a transfer or a dependent domain blocks is deferred; otherwise the domain begins
its entry at once: it is refused, its pads are latched, and no other domain changes. A deferred entry proceeds once nothing
defers it. -/
def Sys2Proof.Claims.DomainsLeaveOn : Prop :=
  ∀ (s : State) (d : Domain) (edges : Nat), d ≠ .cpu →
    let spent := s.dom.idleOf d ≠ 0 ∧ (s.dom.idleOf d).toNat * 32768 ≤ 100 * edges ∧ (d = .log → s.log.active = false)
    (¬ spent ∨ s.isOn d = false → exec (.idleTimerExpire d edges) s = .next s) ∧
    (spent → s.isOn d = true → s.blocked d = true → exec (.idleTimerExpire d edges) s =
      let waits : Domains := { s.dom with pwrUntilDown := if d = .pwr then s.link.state == .up else s.dom.pwrUntilDown }
      .next { s with dom := waits.set d { s.dom.get d with deferred := some (s.pdLowOf d) } }) ∧
    (spent → s.isOn d = true → s.blocked d = false →
      ∃ t, exec (.idleTimerExpire d edges) s = .next t ∧ (t.dom.get d).st = .entering (s.lowFor d (s.pdLowOf d)) ∧
        (∀ x, x ≠ d → t.dom.get x = s.dom.get x) ∧ (∀ k, padBit d = some k → t.dom.padHeld = s.dom.padHeld ||| (1#4 <<< k)) ∧
        (padBit d = none → t.dom.padHeld = s.dom.padHeld) ∧
        (d = .hif → t.irqPins = s.irqPins ∧ t.irqPush = s.irqPush ∧ t.tw.sbsActive = false) ∧
        (d = .log → t.log.cur = none ∧ t.log.rtd = none ∧ t.log.pump = false ∧ ∀ n : Fin 4, t.log.ports[n] = .rest) ∧
        (d = .pwr → t.link.state = .down ∧ t.link.downFlight = none ∧ t.link.window = none ∧
          t.power.chg = .off ∧ t.power.chswZ = true ∧ t.power.srg = false) ∧
        t.berths = s.berths ∧ t.line = s.line ∧ t.gauge = s.gauge ∧ t.flash = s.flash) ∧
    (∀ low, (s.dom.get d).deferred = some low → s.isOn d = true → s.deferring d = false →
      ∃ t, exec (.deferredEntry d) s = .next t ∧ (t.dom.get d).st = .entering (s.lowFor d low) ∧
        ∀ x, x ≠ d → t.dom.get x = s.dom.get x) ∧
    ((s.dom.get d).deferred = none ∨ s.isOn d = false ∨ s.deferring d = true → exec (.deferredEntry d) s = .next s)

/-- R49, R99, R162: what blocks an entry: HOLD_ON of a berth, KEEP, a host transfer, a dependent domain, and for PWR a link
that is UP or a charger in PRE, CC or CV; a PWR entry deferred by a link that was UP waits until the link is DOWN. -/
def Sys2Proof.Claims.EntriesAreBlockedByTheirRules : Prop :=
  ∀ s : State,
    let held (k : Nat) : Prop := ∃ b : Fin 4, s.berths.blk[b].holdOn.getLsbD k = true
    let transfer : Prop := s.spi.csA = true ∨ s.spi.csB = true ∨ s.tw.phase = .active ∨ s.tw.phase = .stretched
    let low (st : PdState) : Prop := st = .off ∨ st = .ret
    let keep (k : Nat) : Prop := (s.dom.keepA ||| s.dom.keepB ||| s.dom.keepW).getLsbD k = true
    (s.blocked .cpu = true ↔ keep 0) ∧ (s.blocked .memM = true ↔ held 0 ∨ ¬ low s.dom.log.st) ∧
    (s.blocked .memB = true ↔ keep 1 ∨ transfer) ∧ s.blocked .log = false ∧ (s.blocked .gauge = true ↔ held 1) ∧
    (s.blocked .hif = true ↔ keep 2 ∨ keep 1 ∨ transfer ∨ ¬ low s.dom.memB.st) ∧
    (s.blocked .pwr = true ↔ held 2 ∨ s.link.state = .up ∨ s.power.chg ∈ [.pre, .cc, .cv]) ∧
    (∀ d, d ≠ .pwr → s.deferring d = s.blocked d) ∧
    (s.deferring .pwr = true ↔ s.blocked .pwr = true ∨ (s.dom.pwrUntilDown = true ∧ s.link.state ≠ .down))

/-- R159, R160, R164, R173, R442: the wait instruction takes the CPU to OFF and a LOG that is ON to its low state, or defers the
entry where KEEP or a LOG on its way to ON stands in its way; while an enabled source is latched in WAKE_PEND no domain changes;
without running firmware there is no wait. -/
def Sys2Proof.Claims.WaitInstructionTakesTheCpuOff : Prop :=
  ∀ s : State,
    (s.isOn .cpu = false ∨ s.fw.started = false → ∀ l, exec (.waitInstruction l) s = .next s) ∧
    (s.isOn .cpu = true → s.fw.started = true →
      (s.dom.wakePend &&& (s.dom.wakeEn ||| 0xC0000) = 0 → ∃ t, exec (.waitInstruction [(.cpu, .off)]) s = .next t ∧
        (s.keepAny.getLsbD 0 = false → (∀ x, s.dom.log.st ≠ .leaving x) → t.dom.cpu.st = .entering .off ∧ t.dom.cpuUp = false ∧
          (s.isOn .log = true → t.dom.log.st = .entering (s.pdLowOf .log) ∧
            t.dom.padHeld = s.dom.padHeld ||| 0b0100 ∧ t.log.cur = none ∧ t.log.rtd = none) ∧
          (s.isOn .log = false → t.dom.log = s.dom.log ∧ t.log = s.log)) ∧
        (s.keepAny.getLsbD 0 = true ∨ (∃ x, s.dom.log.st = .leaving x) →
          t.dom.cpu = { s.dom.cpu with deferred := some .off } ∧ t.dom.log = s.dom.log ∧ t.log = s.log) ∧
        t.dom.memM = s.dom.memM ∧ t.dom.memB = s.dom.memB ∧ t.dom.hif = s.dom.hif ∧ t.dom.pwr = s.dom.pwr ∧
        t.dom.gauge = s.dom.gauge ∧ t.dom.wakePend = s.dom.wakePend) ∧
      (s.dom.wakePend &&& (s.dom.wakeEn &&& 0x3FFFF) ≠ 0 → ∃ t, exec (.waitInstruction [(.cpu, .off)]) s = .next t ∧
        t = { s with dom := t.dom } ∧ ∀ d, t.dom.get d = s.dom.get d) ∧
      (∀ d low, d ≠ .cpu → s.dom.wakePend &&& s.dom.wakeEn = 0 → s.isOn d = true → s.blocked d = false →
        ∃ t, exec (.waitInstruction [(d, low)]) s = .next t ∧ (t.dom.get d).st = .entering (s.lowFor d low) ∧
          ∀ x, x ≠ d → t.dom.get x = s.dom.get x)) ∧
    (∀ low, s.isOn .cpu = true → s.dom.cpu.deferred = some low →
      (s.keepAny.getLsbD 0 = false → s.isOn .log = true → ∃ t, exec (.deferredEntry .cpu) s = .next t ∧
        t.dom.cpu.st = .entering .off ∧ t.dom.log.st = .entering (s.pdLowOf .log)) ∧
      (s.keepAny.getLsbD 0 = true ∨ (∃ x, s.dom.log.st = .leaving x) → exec (.deferredEntry .cpu) s = .next s))

/-- R158, R159, R163: an entry ends in RET, where contents stay, or in OFF, where they are lost: MEM_B reads 0 and its rings are
empty, PWR and HIF take their reset values but for what BIN holds, GAUGE starts anew, LOG runs nothing. The CPU's entry waits
for LOG's to end. -/
def Sys2Proof.Claims.EntriesEndInRetOrOff : Prop :=
  ∀ (s : State) (d : Domain), (∀ x, (s.dom.get x).wanted = false) →
    ((s.dom.get d).st = .entering .ret →
      exec (.domainEntryDone d) s = .next { s with dom := s.dom.set d { st := .ret } }) ∧
    (s.dom.cpu.st = .entering .off → s.dom.log.st ≠ .off → s.dom.log.st ≠ .ret → exec (.domainEntryDone .cpu) s = .next s) ∧
    ((s.dom.get d).st = .entering .off → (d = .cpu → s.dom.log.st = .off ∨ s.dom.log.st = .ret) →
      ∃ t, exec (.domainEntryDone d) s = .next t ∧
      (t.dom.get d).st = .off ∧ (d ≠ .gauge → ∀ x, x ≠ d → t.dom.get x = s.dom.get x) ∧
      (d = .memB → t.berths.mem = [] ∧ ∀ n : Fin 4, t.berths.blk[n].ringWr = 0 ∧ t.berths.blk[n].ringRd = 0 ∧
        t.berths.blk[n].respRdy = false ∧ t.berths.blk[n].rights = s.berths.blk[n].rights) ∧
      (d = .pwr → t.link.state = .down ∧ t.link.lossFrac = 32 ∧ t.link.plim = 96 ∧ t.link.lossCount = s.link.lossCount ∧
        t.power.chgEn = false ∧ t.power.vreg = 20 ∧ t.power.cells = s.power.cells) ∧
      (d = .hif → t.ev.routeOk = false ∧ t.ev.irqSel = 0 ∧ t.ev.pend = s.ev.pend) ∧
      (d = .gauge → t.gauge = Gauge.fresh) ∧ (d = .log → t.log.cur = none) ∧
      (d = .cpu → t.fw.started = false ∧ t.dom.cpuOnPllc = false ∧ t.dom.pllcReq = false) ∧
      (d = .memM → t.log.a.totals = {} ∧ t.log.b.totals = {})) ∧
    ((∀ l, (s.dom.get d).st ≠ .entering l) → exec (.domainEntryDone d) s = .next s)

/-- Domains leave ON by idle times, waits and deferred entries, and end in RET or OFF. The model's choices that this rests
on: logs 2, 5, 6, 77 and 79. -/
def Obligations.DomainsLeaveOn : Prop :=
  Sys2Proof.Claims.DomainsLeaveOn ∧
  Sys2Proof.Claims.EntriesAreBlockedByTheirRules ∧
  Sys2Proof.Claims.WaitInstructionTakesTheCpuOff ∧
  Sys2Proof.Claims.EntriesEndInRetOrOff

/-- R158, R167, R171, R173, R402: a domain that leaves a low state reaches ON, its held pads unchanged; GAUGE from OFF
starts anew with EV93; LOG does not turn ON while XO16 has failed; a wake releases the CPU reset with WAKE_LAST, RST_CAUSE
0x5 and CPU_UP; firmware releases a hold, and CHSW with PWR's. -/
def Sys2Proof.Claims.DomainsReachOn : Prop :=
  ∀ (s : State) (d : Domain) (vdrv : Nat) (low : Low),
    ((s.dom.get d).st = .leaving low → d ≠ .cpu → d ≠ .log ∨ s.dom.xo16Fail = false →
      ∃ t, exec (.domainOnDone d vdrv) s = .next t ∧ t.isOn d = true ∧ t.dom.padHeld = s.dom.padHeld ∧
        (∀ x, x ≠ d → s.isOn x = true → t.isOn x = true) ∧
        (d = .gauge → low = .off → t.gauge = Gauge.fresh ∧ t.ev.raised.getLsbD 93 = true) ∧
        (d = .gauge → low = .ret → t.gauge = s.gauge) ∧ (d = .pwr → t.dom.beaconLatch = false) ∧
        (d = .log → t.log.pump = decide (vdrv < 4500)) ∧
        (d = .hif → s.fw.started = true → t.ev.routeOk = true)) ∧
    (s.dom.log.st = .leaving low → s.dom.xo16Fail = true → exec (.domainOnDone .log vdrv) s =
      .next { s with dom := { s.dom with log := { st := if low = .off then .off else .ret } } }) ∧
    ((∀ l, (s.dom.get d).st ≠ .leaving l) → exec (.domainOnDone d vdrv) s = .next s) ∧
    (s.dom.cpu.st = .leaving low → (∀ x, x ≠ .cpu → (s.dom.get x).wanted = false) → exec .cpuResetRelease s =
      .next { s with dom := { s.dom with
        cpu := { st := .on }, wakeLast := s.dom.wakePend, rstCause := 0x5, rstHist := s.dom.rstHist ||| 0x10, cpuUp := true } }) ∧
    ((∀ l, s.dom.cpu.st ≠ .leaving l) → exec .cpuResetRelease s = .next s) ∧
    (∀ k, padBit d = some k → s.fw.started = true → s.isOn d = true → s.dom.padHeld.getLsbD k = true →
      ∃ t, exec (.padHoldRelease d) s = .next t ∧ t.dom.padHeld = s.dom.padHeld &&& ~~~(1#4 <<< k) ∧
        (d = .pwr → t.power = { s.power with chswZ := s.power.chg == .off }) ∧ (d ≠ .pwr → t.power = s.power) ∧
        (d ≠ .hif → t.ev = s.ev) ∧ (d = .hif → t.ev.routeOk = true)) ∧
    (padBit d = none ∨ s.fw.started = false ∨ s.isOn d = false → exec (.padHoldRelease d) s = .next s)

/-- R170, R171, R172, R301: XO16 that does not start is flagged with EV81 and keeps the CPU on HRC; PLLC that firmware has
requested locks with XO16; the firmware timer wakes the CPU once; die temperature and flash errors raise EV95 and EV94. (That
firmware requests PLLC and switches at the lock is the model's choice, log 19.) -/
def Sys2Proof.Claims.ClocksAndAlarms : Prop :=
  ∀ s : State,
    exec .xo16StartFail s = .next (({ s with dom :=
      { s.dom with xo16Fail := true, pllcLock := false, cpuOnPllc := false } } : State).raise 81) ∧
    (s.isOn .cpu = true → s.dom.pllcReq = true → s.dom.xo16Fail = false →
      exec .pllcLock s = .next { s with dom := { s.dom with pllcLock := true, cpuOnPllc := true } }) ∧
    (s.isOn .cpu = false ∨ s.dom.pllcReq = false ∨ s.dom.xo16Fail = true → exec .pllcLock s = .next s) ∧
    (s.dom.fwTimer = true → ∃ t, exec .fwtimerExpire s = .next t ∧ t = { s with dom := t.dom } ∧ t.dom.fwTimer = false ∧
      (s.dom.wakeEn.getLsbD 19 = true → t.dom.wakePend = s.dom.wakePend ||| 0x80000#32 ∧
        (s.dom.cpu.st = .off → s.powered = true → t.dom.cpu.st = .leaving .off)) ∧
      (s.dom.wakeEn.getLsbD 19 = false → t.dom = { s.dom with fwTimer := false })) ∧
    (s.dom.fwTimer = false → exec .fwtimerExpire s = .next s) ∧
    exec .dieTemp s = .next (s.raise 95) ∧ exec .flashEcc s = .next (s.raise 94)

/-- What a reset of the switched domains with a code makes of a state (R177 to R179, R185, R304). -/
def Sys2Proof.Claims.isReset (s t : State) (code : BitVec 4) : Prop :=
  t.dom.resetCode = some code ∧ (∀ d, d ≠ .gauge → t.dom.get d = {}) ∧
  (s.dom.gauge.st = .on ∨ s.dom.gauge.st = .ret → t.dom.gauge.st = .ret ∧ t.gauge.acc = s.gauge.acc ∧
    t.gauge.socK = s.gauge.socK) ∧
  (s.dom.gauge.st = .off → t.dom.gauge.st = .off) ∧
  t.dom.padHeld = 0 ∧ t.dom.keepA = 0 ∧ t.dom.keepB = 0 ∧ t.dom.keepW = 0 ∧ t.dom.cpuUp = false ∧
  t.dom.rstHist = s.dom.rstHist ||| (1#8 <<< (code.toNat - 1)) ∧ t.dom.sysResetOwed = true ∧
  t.dom.rstCause = s.dom.rstCause ∧
  (s.gauge.learn ≠ .opened → s.trim.active = false → t.dom.wakeFlags = s.dom.wakeFlags) ∧
  t.dom.bind = s.dom.bind ∧ t.dom.bells = s.dom.bells ∧ t.dom.wakeEn = s.dom.wakeEn ∧ t.cal = s.cal ∧ t.bin = s.bin ∧
  t.flash = s.flash ∧ t.line = s.line ∧ t.ev.pend = s.ev.pend ∧ t.ev.wakeEn = s.ev.wakeEn ∧
  t.fw.started = false ∧ t.link.state = .down ∧ t.power.chg = .off ∧
  ∀ b : Fin 4, t.berths.blk[b].rights = s.berths.blk[b].rights ∧ t.berths.blk[b].respRdy = false ∧
    t.berths.blk[b].stored = none

/-- R27, R74, R176, R177, R289, R290: when each reset of the switched domains takes place, and what it does beside. -/
def Sys2Proof.Claims.ResetsTakePlace : Prop :=
  ∀ s : State,
    (s.bin.held = false →
      (∃ t, exec .nrstReset s = .next t ∧ Sys2Proof.Claims.isReset s t 0x2 ∧ t.dom.nrstLow = true ∧ t.spi.xfer = none ∧
        t.tw.phase = (if s.tw.phase = .idle then .idle else .ignored)) ∧
      (∃ t, exec .brownOutReset s = .next t ∧ Sys2Proof.Claims.isReset s t 0x3 ∧ t.dom.vsysUp = false)) ∧
    (s.isOn .cpu = true →
      (∃ t, exec .watchdogReset s = .next t ∧ Sys2Proof.Claims.isReset s t 0x4 ∧ t.fw.badReset = (s.fw.badReset || s.onTrial)) ∧
      (∃ t, exec .lockupReset s = .next t ∧ Sys2Proof.Claims.isReset s t 0x8 ∧ t.fw.badReset = (s.fw.badReset || s.onTrial)) ∧
      (s.fw.resetDue = true → s.totalsPending = false → ∃ t, exec .firmwareRequestReset s = .next t ∧
        Sys2Proof.Claims.isReset s t 0x6)) ∧
    (s.isOn .pwr = true → s.line.running = true → s.line.beacon = true → s.link.state = .training ∨ s.link.state = .fault →
      s.dom.linkResetDone = false → ∃ t, exec .linkFaultReset s = .next t ∧ Sys2Proof.Claims.isReset s t 0x7 ∧
        t.dom.linkResetDone = true)

/-- R74, R177: where a reset's condition does not hold, nothing changes. -/
def Sys2Proof.Claims.ResetsNeedTheirCause : Prop :=
  ∀ s : State,
    (s.bin.held = true → exec .nrstReset s = .next s) ∧
    (s.isOn .cpu = false → ∀ c ∈ [Instr.watchdogReset, .lockupReset, .firmwareRequestReset], exec c s = .next s) ∧
    (s.fw.resetDue = false ∨ s.totalsPending = true → exec .firmwareRequestReset s = .next s) ∧
    (s.isOn .pwr = false ∨ (s.line.running && s.line.beacon) = false ∨ s.link.state = .down ∨ s.link.state = .up ∨
      s.dom.linkResetDone = true → exec .linkFaultReset s = .next s)

/-- R176, R178: the release of a reset restarts the CPU with RST_CAUSE and leaves WAKE_LAST; VSYS and NRST are up from there
on, and the exits that waited for them begin. -/
def Sys2Proof.Claims.ResetsAreReleased : Prop :=
  ∀ s : State,
    (∀ c, s.dom.resetCode = some c → (∀ x, x ≠ .cpu → (s.dom.get x).wanted = false) → exec .resetRelease s =
      .next { s with dom := { s.dom with
        resetCode := none, rstCause := c, rstHist := s.dom.rstHist ||| (1#8 <<< (c.toNat - 1)), cpu := { st := .on }
        cpuUp := true, vsysUp := true, nrstLow := false } }) ∧
    (s.dom.resetCode = none → exec .resetRelease s = .next (State.startWanted
      { s with dom := { s.dom with vsysUp := true, nrstLow := false } }))

/-- R158, R281: a record that finds MEM_B not ON, or no firmware to write it, waits, and firmware brings MEM_B ON for it; once
MEM_B reaches ON the records that waited are written. The waiting is the model's reading (log 78). -/
def Sys2Proof.Claims.RecordsWaitForTheirRing : Prop :=
  ∀ (b : Fin 4) (s : State) (stamp : BitVec 64) (kind path flags : Byte) (payload : List Byte) (vdrv : Nat) (low : Low),
    let t := s.record b stamp kind path flags payload
    (s.ringsUp = false → t.fw = { s.fw with recQ := s.fw.recQ ++ [⟨b, stamp, kind, path, flags, payload⟩] } ∧
      t = { s with fw := t.fw, dom := t.dom } ∧
      (s.isOn .cpu = true → s.fw.started = true → t.dom = (s.need .memB).dom) ∧
      (s.isOn .cpu = false ∨ s.fw.started = false → t.dom = s.dom)) ∧
    (s.dom.memB.st = .leaving low → s.isOn .cpu = true → s.fw.started = true →
      ∃ u, exec (.domainOnDone .memB vdrv) s = .next u ∧ u.isOn .memB = true ∧ u.fw.recQ = [])

/-- Domains reach ON, holds are released, and clocks and timers act. The model's choices that this rests on: logs 18, 19
and 78. -/
def Obligations.DomainsReachOn : Prop :=
  Sys2Proof.Claims.DomainsReachOn ∧
  Sys2Proof.Claims.RecordsWaitForTheirRing ∧
  Sys2Proof.Claims.ClocksAndAlarms

/-- R74, R169, R177 to R179, R185, R304: each reset turns every switched domain OFF, GAUGE to RET if it was ON or in RET
with its accumulator kept, opens the holds, clears KEEP, sets its bit of RST_HIST and owes EV80; it keeps BIN, PEND, the
raise latch, flash, the line die and the bindings. Its release restarts the CPU with RST_CAUSE and leaves WAKE_LAST. The
model's choices that this rests on: logs 20, 43 and 80. -/
def Obligations.ResetsReachAndKeep : Prop :=
  Sys2Proof.Claims.ResetsTakePlace ∧
  Sys2Proof.Claims.ResetsNeedTheirCause ∧
  Sys2Proof.Claims.ResetsAreReleased

/-- R7, R154, R191, R197 to R199, R206, R276, R285: what a register write of one byte does, by the first check that applies:
a foreign berth's address is logged as a violation; a page that is not ON is refused with ACC_OFF; a hole, an RO field and a
port that cannot work drop it; the scratch and a mailbox take it, and a request mailbox whose PEND is 1 answers REQ_LOCK. -/
def Sys2Proof.Claims.HostWritesAreChecked : Prop :=
  ∀ (s : State) (p : Port) (a : Half) (v : Byte),
    (s.portUp p = false → ∀ bytes, exec (.registerWrite p a bytes) s = .next s) ∧
    (s.portUp p = true →
      (∀ n, owner a.toNat = some n → s.bound p n.val = false →
        exec (.registerWrite p a [v]) s = .next (s.violation p n a.toNat 1)) ∧
      ((∀ n, owner a.toNat = some n → s.bound p n.val = true) →
        (s.pageOn a.toNat = false → exec (.registerWrite p a [v]) s = .next (s.accOff p a.toNat)) ∧
        (s.pageOn a.toNat = true →
          (0x0600 ≤ a.toNat ∧ a.toNat < 0x1000 ∨ 0x6000 ≤ a.toNat → exec (.registerWrite p a [v]) s = .next s) ∧
          (0x01C0 ≤ a.toNat → a.toNat < 0x0200 → ∃ t, exec (.registerWrite p a [v]) s = .next t ∧
            t = { s with bin := { s.bin with scratch := t.bin.scratch } } ∧
            ∀ x, memRead t.bin.scratch x = if x = a.toNat then v else memRead s.bin.scratch x) ∧
          (∀ n, owner a.toNat = some n → isMem a.toNat = true →
            ((a.toNat < 0x2000 ∧ a.toNat % 0x400 < 0x100 ∧ s.dom.bells[n].pend = true) →
              exec (.registerWrite p a [v]) s = .next (({ s with berths := { s.berths with
                blk := s.berths.blk.set n { s.berths.blk[n] with reqLock := true } } } : State).raise 47)) ∧
            ((0x2000 ≤ a.toNat ∨ 0x100 ≤ a.toNat % 0x400 ∨ s.dom.bells[n].pend = false) →
              ∃ t, exec (.registerWrite p a [v]) s = .next t ∧
                t = { s with berths := { s.berths with mem := t.berths.mem } } ∧
                ∀ x, memRead t.berths.mem x = if x = a.toNat then v else memRead s.berths.mem x)) ∧
          (a.toNat < 0x0010 → a ≠ 0x0008 → exec (.registerWrite p a [v]) s = .next s) ∧
          (a = 0x0008 → exec (.registerWrite p a [v]) s =
            .next { s with spi := { s.spi with flags := s.spi.flags &&& ~~~v } }))))

/-- The fields of the host map that a register write of one byte `v` changes: their address, the page's domain, the grant that
the port must have, and the state with the field written (R86, R115, R157, R185, R244, R300). -/
def Sys2Proof.Claims.fieldRows (s : State) (p : Port) (v : Byte) : List (Half × Option Domain × Bool × State) :=
  let rtc := s.bin.rtcGrant.getLsbD (portCode p)
  let syson := s.bin.sysonGrant.getLsbD (portCode p)
  let chg := s.bin.chgGrant.getLsbD (portCode p)
  let staged := rtc && s.cal.commit.isNone
  let idle := chg && !s.power.chgEn
  [(0x0112, none, staged, { s with cal := { s.cal with secS := v } }),
   (0x0113, none, staged, { s with cal := { s.cal with minS := v } }),
   (0x0114, none, staged, { s with cal := { s.cal with hourS := v } }),
   (0x0116, none, staged, { s with cal := { s.cal with dayS := v } }),
   (0x0117, none, staged, { s with cal := { s.cal with monthS := v } }),
   (0x0118, none, staged, { s with cal := { s.cal with yearS := v } }),
   (0x0119, none, staged, { s with cal := { s.cal with centS := v } }),
   (0x0133, none, rtc, { s with trim := { s.trim with k := v.setWidth 5 } }),
   (0x0140, none, true, { s with bin := { s.bin with tickSel := v.setWidth 5, tickEn := v.getLsbD 7 } }),
   (0x0141, none, true, { s with bin := { s.bin with sqwSel := v.setWidth 4, sqwEn := v.getLsbD 7 } }),
   (0x0143, none, syson, { s with bin := { s.bin with sysonAuto := v.setWidth 6 } }),
   (0x0144, none, syson, { s with bin := { s.bin with pkLong := v.setWidth 3, pkHardoff := v.getLsbD 3 } }),
   (0x0205, none, true, { s with dom := { s.dom with rstHist := s.dom.rstHist &&& ~~~v } })] ++
  [(0x0384, some .pwr, idle, { s with power := { s.power with cells := v.setWidth 2, chem := v.getLsbD 2 } }),
   (0x0385, some .pwr, idle, { s with power := { s.power with vreg := v } }),
   (0x0386, some .pwr, idle, { s with power := { s.power with ichg := v } }),
   (0x0387, some .pwr, idle, { s with power := { s.power with ipre := v } }),
   (0x0388, some .pwr, idle, { s with power := { s.power with iterm := v } }),
   (0x0389, some .pwr, idle, { s with power := { s.power with tfast := v.setWidth 4, tpre := (v >>> 4).setWidth 4 } }),
   (0x038A, some .pwr, chg, { s with power := { s.power with batcut := v } }),
   (0x038B, some .pwr, chg, { s with power := { s.power with bakMode := v.getLsbD 0 } }),
   (0x038E, some .pwr, true, { s with power := { s.power with chgFault := s.power.chgFault &&& ~~~(v.setWidth 5) } }),
   (0x03C1, some .pwr, true, { s with link := { s.link with ltpEn := v.getLsbD 0 } }),
   (0x03C2, some .pwr, true, { s with link := { s.link with qwDroop := v } }),
   (0x03DD, some .pwr, true, { s with link := { s.link with ldFault := s.link.ldFault &&& ~~~v } })] ++
  [(0x0501, some .hif, p == .tw, { s with tw :=
      { s.tw with sleepAsync := v.getLsbD 0, pecReq := v.getLsbD 1, sbsFast := v.getLsbD 2 } }),
   (0x0502, some .hif, true, { s with tw := { s.tw with stat := s.tw.stat &&& ~~~v } }),
   (0x0522, some .hif, true, { s with tw := { s.tw with pbFail := s.tw.pbFail && !v.getLsbD 0 } })]

/-- R1, R7, R98, R125, R155, R191, R198: a register write of one byte to a field that takes it leaves that field as written, W1C
bits cleared, and changes nothing else. -/
def Sys2Proof.Claims.RegisterWritesStoreTheirFields : Prop :=
  ∀ (s : State) (p : Port) (v : Byte), s.portUp p = true → ∀ r ∈ Sys2Proof.Claims.fieldRows s p v,
    r.2.2.1 = true → (∀ d, r.2.1 = some d → s.isOn d = true) → exec (.registerWrite p r.1 [v]) s = .next r.2.2.2

/-- R8, R133, R136, R144, R157, R185, R191: a field wider than a byte takes effect with its last byte, written in order: TRIM, and
WAKE_FLAGS; the W1C flags of the calendar, and a block of an event input or a comparator, are written as their tables say. -/
def Sys2Proof.Claims.WideFieldsAndBlocksAreWritten : Prop :=
  ∀ (s : State) (p : Port) (v w : Byte) (i : Fin 4), s.portUp p = true →
    (s.bin.rtcGrant.getLsbD (portCode p) = true →
      (s.bin.setMask 0x0130 = 0 → exec (.registerWrite p 0x0130 [v, w]) s = .next { s with trim :=
        { s.trim with trim := BitVec.ofNat 13 (v.toNat + 256 * w.toNat) } }) ∧
      (s.bin.setMask 0x0130 ≠ 0 → exec (.registerWrite p 0x0130 [v, w]) s = .next s) ∧
      exec (.registerWrite p 0x0130 [v]) s = .next s ∧
      (let m := v &&& ~~~(s.bin.setMask 0x011B)
       exec (.registerWrite p 0x011B [v]) s = .next { s with cal :=
         { s.cal with
           calRej := s.cal.calRej && !m.getLsbD 2, centWrap := s.cal.centWrap && !m.getLsbD 3
           shiftCxl := s.cal.shiftCxl && !m.getLsbD 4, xtalFail := s.cal.xtalFail && !m.getLsbD 5 } })) ∧
    (∀ x y : Byte, exec (.registerWrite p 0x0208 [v, w, x, y]) s = .next { s with dom :=
      { s.dom with wakeFlags := s.dom.wakeFlags &&&
        ~~~(BitVec.ofNat 32 (v.toNat + 256 * w.toNat + 65536 * x.toNat + 16777216 * y.toNat)) } }) ∧
    exec (.registerWrite p (BitVec.ofNat 16 (0x0180 + 0x10 * i.val)) [v]) s = .next { s with bin := { s.bin with
      evts := s.bin.evts.set i { s.bin.evts[i] with
        edge := v.setWidth 2, filt := (v >>> 2).setWidth 2, pps := (i == 3) && v.getLsbD 4 } } } ∧
    exec (.registerWrite p (BitVec.ofNat 16 (0x0170 + 2 * i.val)) [v]) s = .next { s with bin := { s.bin with
      cmps := s.bin.cmps.set i { s.bin.cmps[i] with thr := v.setWidth 6, hyst := (v >>> 6).setWidth 2 } } }

/-- R303, R305: with HIF ON and ROUTE_OK set, each latched event sets PEND of every berth its ROUTE entry names and the
latch empties; a PEND bit that is set stays and counts in MERGED. Otherwise raises wait. The model's choices that this rests
on: log 18. -/
def Obligations.EventsAreDelivered : Prop :=
  ∀ s : State,
    (s.isOn .hif = true → s.ev.routeOk = true → ∃ t, exec .eventDeliver s = .next t ∧
      t = { s with ev := { s.ev with pend := t.ev.pend, merged := t.ev.merged, raised := 0 } } ∧
      (∀ e : Fin 96, ∀ b : Fin 4, t.ev.pend[b].getLsbD e.val =
        (s.ev.pend[b].getLsbD e.val || (s.ev.raised.getLsbD e.val && s.ev.route[e].getLsbD b.val))) ∧
      ∀ b : Fin 4, t.ev.merged[b].toNat = min 255 (s.ev.merged[b].toNat +
        ((List.finRange 96).filter fun e => s.ev.raised.getLsbD e.val && s.ev.route[e].getLsbD b.val &&
          s.ev.pend[b].getLsbD e.val).length)) ∧
    (s.isOn .hif = false ∨ s.ev.routeOk = false → exec .eventDeliver s = .next s)

/-! ## The SPI port, the checks of a byte and the pins -/

/-- R194, R195: each bit of LIVE says what its row says, the parity bit makes the number of 1s odd, and EVSUM shows pending
groups, ready responses and ACKs of the berths bound to the port and of no other. -/
def Sys2Proof.Claims.LiveByteAndEventSummary : Prop :=
  ∀ (s : State) (p : Port),
    let live := s.live p
    let sum := s.evsum p
    live.getLsbD 7 = s.dom.cpuUp ∧ live.getLsbD 6 = (s.dom.memB.st == .on) ∧ live.getLsbD 5 = s.link.lineOk ∧
    live.getLsbD 4 = (s.power.src == some .bat) ∧
    (live.getLsbD 3 = true ↔ ∃ g : Fin 6, sum.getLsbD g.val = true) ∧
    (live.getLsbD 2 = true ↔ ∃ b : Fin 4, sum.getLsbD (8 + b.val) = true) ∧
    live.getLsbD 1 = (s.link.state == .fault || s.dom.xo16Fail) ∧ ones live % 2 = 1 ∧
    (∀ g : Fin 6, sum.getLsbD g.val = true ↔
      ∃ b : Fin 4, s.bound p b.val = true ∧ ∃ k : Fin 16, s.ev.pend[b].getLsbD (16 * g.val + k.val) = true) ∧
    sum.getLsbD 6 = false ∧ sum.getLsbD 7 = false ∧
    (∀ b : Fin 4, sum.getLsbD (8 + b.val) = (s.bound p b.val && s.berths.blk[b].respRdy)) ∧
    ∀ b : Fin 4, sum.getLsbD (12 + b.val) = (s.bound p b.val && s.dom.bells[b].ack)

/-- R167, R310, R312: a pin is asserted exactly while a berth whose IRQ_SEL names it has an event pending and enabled; under
the hold of HIF the pins keep the levels that the hold latched. -/
def Sys2Proof.Claims.PinsFollowTheBerthLines : Prop :=
  ∀ s : State,
    (s.dom.padHeld.getLsbD 3 = false → ∀ k : Fin 2, s.irqPins.getLsbD k.val = true ↔
      ∃ n : Fin 4, s.ev.irqSel.toNat / 4 ^ n.val % 4 = k.val + 1 ∧
        ∃ e : Fin 96, s.ev.pend[n].getLsbD e.val = true ∧ s.ev.ien[n].getLsbD e.val = true) ∧
    (s.dom.padHeld.getLsbD 3 = true → s.irqPins = s.ev.heldIrq)

/-- EVSUM, the IRQ pins and the LIVE byte show what their tables say. -/
def Obligations.EventSummaryPinsAndLiveByte : Prop :=
  Sys2Proof.Claims.LiveByteAndEventSummary ∧
  Sys2Proof.Claims.PinsFollowTheBerthLines

/-- A host's byte is checked for its berth, its domain and its page, and then taken; the fields of the tables take what is
written. The model's choices that this rests on: logs 20 and 70. -/
def Obligations.HostWritesAreChecked : Prop :=
  Sys2Proof.Claims.HostWritesAreChecked ∧
  Sys2Proof.Claims.RegisterWritesStoreTheirFields ∧
  Sys2Proof.Claims.WideFieldsAndBlocksAreWritten

/-- R7, R198, R285: whatever bytes a host writes, through any port, the memory that belongs to berths not bound to that port
keeps every byte, as do the line die, flash, the Log engine, firmware and every pin of the power path but the charger's. (A
berth whose answer waits for the calendar, R445, has it as the write ends that wait; the premise leaves such a berth out.) -/
def Obligations.PortsReachOnlyTheirBerths : Prop :=
  ∀ (s : State) (p : Port) (a : Half) (bytes : List Byte),
    (∀ b : Fin 4, s.bound p b.val = false →
      (s.berth b).waitsFor 0x0400 = false ∧ (s.berth b).waitsFor 0x0401 = false) →
    ∃ t, exec (.registerWrite p a bytes) s = .next t ∧
      (∀ x, (∀ n, owner x = some n → s.bound p n.val = false) → memRead t.berths.mem x = memRead s.berths.mem x) ∧
      (∀ b : Fin 4, s.bound p b.val = false → t.ev.pend[b] = s.ev.pend[b] ∧ t.ev.ien[b] = s.ev.ien[b] ∧
        t.berths.blk[b].ringRd = s.berths.blk[b].ringRd ∧ t.berths.blk[b].cur = s.berths.blk[b].cur ∧
        t.berths.blk[b].rights = s.berths.blk[b].rights ∧ t.dom.bells[b].pend = s.dom.bells[b].pend) ∧
      t.line = s.line ∧ t.flash = s.flash ∧ t.log = s.log ∧ t.fw = s.fw ∧ t.power.src = s.power.src ∧
      t.gauge.acc = s.gauge.acc ∧ t.dom.bind = s.dom.bind ∧ t.cal.lsec = s.cal.lsec

/-- R27, R186, R187, R189, R201, R202, R301: a fall of a chip select of a port that works opens a transfer with a snapshot;
a second chip select makes a clash, counted once until both are high with EV41; a rise ends the transfer, and a partial byte
sets PARTIAL with EV42. -/
def Sys2Proof.Claims.ChipSelectsFrameTransfers : Prop :=
  ∀ (s : State) (sck : Bool) (k : Fin 8),
    (s.spi.csA = true → exec (.spiCsFall false sck) s = .next s) ∧
    (s.spi.csA = false → s.portUp .csA = true → s.spi.clash = false → s.spi.csB = false ∨ s.spi.deafB = true →
      exec (.spiCsFall false sck) s = .next { s with spi := { s.spi with
        csA := true, xfer := some { port := .csA, mode3 := sck, sent := s.live .csA :: leBytes 2 (s.evsum .csA).toNat } } }) ∧
    (s.spi.csB = false → s.portUp .csB = true → s.spi.clash = false → s.spi.csA = false ∨ s.spi.deafA = true →
      exec (.spiCsFall true sck) s = .next { s with spi := { s.spi with
        csB := true, xfer := some { port := .csB, mode3 := sck, sent := s.live .csB :: leBytes 2 (s.evsum .csB).toNat } } }) ∧
    (s.spi.csA = false → s.portUp .csA = false →
      exec (.spiCsFall false sck) s = .next { s with spi := { s.spi with csA := true, deafA := true } }) ∧
    (s.spi.csB = false → s.portUp .csB = false →
      exec (.spiCsFall true sck) s = .next { s with spi := { s.spi with csB := true, deafB := true } }) ∧
    (s.portUp .csA = true → (s.spi.csA && s.spi.deafA) = false → (s.spi.csB && s.spi.deafB) = false →
      (s.spi.clash = true → exec (.spiCsClash k) s = .next { s with spi := { s.spi with csA := true, csB := true } }) ∧
      (s.spi.clash = false → ∃ t, exec (.spiCsClash k) s = .next t ∧ t = { s with spi := t.spi, ev := t.ev, dom := t.dom } ∧
        t.spi.clash = true ∧ t.spi.xfer = none ∧ t.spi.clashCnt = satInc s.spi.clashCnt ∧ t.spi.flags.getLsbD 3 = true ∧
        t.ev.raised.getLsbD 41 = true ∧
        (∀ x, s.spi.xfer = some x → k ≠ 0 → x.port = .csA → t.spi.flags.getLsbD 4 = true ∧ t.ev.raised.getLsbD 42 = true))) ∧
    (∀ x, s.spi.xfer = some x → x.port = .csA → ∃ t, exec (.spiCsRise false k) s = .next t ∧
      t = { s with spi := t.spi, ev := t.ev, dom := t.dom } ∧ t.spi.xfer = none ∧ t.spi.miso = x.sent ∧ t.spi.csA = false ∧
      t.spi.csB = s.spi.csB ∧ t.spi.clash = (s.spi.clash && s.spi.csB) ∧
      (k = 0 → t.spi.flags = s.spi.flags ∧ t.ev = s.ev) ∧
      (k ≠ 0 → t.spi.flags = s.spi.flags ||| 0x10 ∧ t.ev.raised.getLsbD 42 = true)) ∧
    (s.spi.xfer = none → exec (.spiCsRise true k) s = .next { s with spi :=
      { s.spi with csB := false, deafB := false, clash := s.spi.clash && s.spi.csA } })

/-- R188, R190 to R192, R198, R201: within a transfer, LIVE sends a fresh triplet, an unknown opcode sets BADOP with EV42, a
RING opcode rings, a WRITE byte is written to its address as a register write is and the address advances, and a READ byte
is the byte at its address, 0xFF where refused and 0x00 in a hole. Without a transfer nothing happens. -/
def Sys2Proof.Claims.TransferBytesAreServed : Prop :=
  ∀ (s : State) (a : Half) (b : Byte) (n : Fin 4),
    (s.spi.xfer = none → ∀ c ∈ [Instr.spiLive, .spiWriteByte a b, .spiReadByte a true, .spiRing n, .spiBadOpcode b],
      exec c s = .next s) ∧
    (∀ x, s.spi.xfer = some x →
      (x.opcode = none ∨ x.opcode = some 0x00 → exec .spiLive s = .next { s with spi := { s.spi with
        xfer := some { x with
          opcode := some 0x00, sent := x.sent ++ s.live x.port :: leBytes 2 (s.evsum x.port).toNat } } }) ∧
      (x.opcode = none → b ≠ 0x00 → b ≠ 0x02 → b ≠ 0x0B → b &&& 0xFC ≠ 0x20 → exec (.spiBadOpcode b) s =
        .next (({ s with spi := { s.spi with
          xfer := some { x with opcode := some b }, flags := s.spi.flags ||| (1#8 <<< (6 + portCode x.port)) } } : State).raise 42)) ∧
      (x.opcode = none → exec (.spiRing n) s = .next (({ s with spi := { s.spi with
        xfer := some { x with opcode := some (0x20 + BitVec.ofNat 8 n.val) } } } : State).ring x.port n)) ∧
      (x.opcode = none ∨ x.opcode = some 0x02 →
        let cur := x.cursor.getD a
        ∃ t, exec (.spiWriteByte a b) s = .next t ∧
          (∀ y, t.spi.xfer = some y → y.cursor = some (cur + 1) ∧ y.opcode = some 0x02 ∧ y.port = x.port) ∧
          t.spi.xfer.isSome = true ∧
          (s.judge x.port cur.toNat true = .served →
            t = { s.writeByte x.port x.wrote cur.toNat b with spi := t.spi }) ∧
          (s.judge x.port cur.toNat true = .hole ∨ s.judge x.port cur.toNat true = .refused → t = { s with spi := t.spi })) ∧
      (x.opcode = none ∨ x.opcode = some 0x0B →
        let cur := x.cursor.getD a
        ∃ t, exec (.spiReadByte a true) s = .next t ∧
          (∀ y, t.spi.xfer = some y → y.cursor = some (cur + 1) ∧ y.opcode = some 0x0B ∧
            y.sent = (if x.cursor.isSome then x.sent else x.sent ++ [s.live x.port]) ++ [y.sent.getLastD 0] ∧
            (s.judge x.port cur.toNat false = .served → blockOf rsBlocks cur.toNat = none → blockOf rcFields cur.toNat = none →
              y.sent.getLastD 0 = s.byteAt x.port cur.toNat ∧ t = { s with spi := t.spi }) ∧
            (s.judge x.port cur.toNat false = .hole → y.sent.getLastD 0 = 0x00 ∧ t = { s with spi := t.spi }) ∧
            (s.judge x.port cur.toNat false = .off → y.sent.getLastD 0 = 0xFF) ∧
            (∀ m, s.judge x.port cur.toNat false = .violation m → y.sent.getLastD 0 = 0xFF)) ∧
          t.spi.xfer.isSome = true))

/-- Chip selects frame SPI transfers, and their bytes are served. The model's choices that this rests on: log 7. -/
def Obligations.SpiTransfersAreFramedAndServed : Prop :=
  Sys2Proof.Claims.ChipSelectsFrameTransfers ∧
  Sys2Proof.Claims.TransferBytesAreServed

/-! ## The two-wire channels -/

/-- R208, R219, R223 to R227: an address match wakes HIF and MEM_B; with HIF ON the module takes part at once, with HIF asleep it
stretches the clock in ASYNC mode and answers NACK, with EV43, in NACK-FIRST mode; HIF running takes a stretched transaction
over, and HIF still not running after 1 ms fails it with EV37. Another address leaves the bus busy and the module out. -/
def Sys2Proof.Claims.AddressMatchWakesTheHost : Prop :=
  ∀ (s : State) (addr : BitVec 7) (read : Bool),
    let heard : Tw :=
      { s.tw with
        busy := true, hscl := true, hsda := true, startHeld := false, readFirst := read, sent := [], phase := .idle, acked := false }
    (s.portUp .tw = false ∨ s.tw.sbsActive = true → exec (.twAddressMatch addr read) s = .next s) ∧
    (s.portUp .tw = true → s.tw.sbsActive = false → s.bin.strapBusy = true ∨ addr ≠ s.tw.addr →
      exec (.twAddressMatch addr read) s = .next { s with tw := heard }) ∧
    (s.portUp .tw = true → s.tw.sbsActive = false → s.bin.strapBusy = false → addr = s.tw.addr →
      ∃ t, exec (.twAddressMatch addr read) s = .next t ∧ t = { s with tw := t.tw, dom := t.dom, ev := t.ev } ∧
        (s.dom.wakeEn.getLsbD 16 = true → t.dom.wakeFlags.getLsbD 16 = true ∧
          (s.dom.hif.st = .off → s.powered = true → t.dom.hif.st = .leaving .off)) ∧
        (s.isOn .hif = true → t.tw = { heard with phase := .active, acked := true } ∧ t.ev = s.ev) ∧
        (s.isOn .hif = false → s.tw.sleepAsync = true → t.tw = { heard with phase := .stretched, acked := true } ∧
          t.ev = s.ev ∧ t.hsclPad = .low) ∧
        (s.isOn .hif = false → s.tw.sleepAsync = false →
          t.tw = { heard with phase := .ignored, stat := s.tw.stat ||| 0x80 } ∧ t.ev.raised.getLsbD 43 = true)) ∧
    (s.tw.phase = .stretched → s.isOn .hif = true →
      exec .twAsyncTakeover s = .next { s with tw := { s.tw with phase := .active } } ∧ exec .twWakeFail s = .next s) ∧
    (s.tw.phase = .stretched → s.isOn .hif = false →
      exec .twAsyncTakeover s = .next s ∧
      exec .twWakeFail s = .next (({ s with tw :=
        { s.tw with phase := .ignored, acked := false, stat := s.tw.stat ||| 0x08 } } : State).raiseWhenHif 37)) ∧
    (s.tw.phase ≠ .stretched → exec .twAsyncTakeover s = .next s ∧ exec .twWakeFail s = .next s)

/-- The commands that run the rest of a transaction whose first address byte wrote. -/
def Sys2Proof.Claims.twWriteFirst (bytes extra : List Byte) (n : Nat) (whole : Bool) (k : Fin 8) (code : Byte) : List Instr :=
  [.twReadByte extra n, .twReadWord extra n, .twFixedRead k extra n whole, .twRing bytes, .twBlockWrite code bytes,
   .twProcessCall bytes n whole, .twPointerWrite bytes, .twPtrBlockWrite bytes, .twPtrBlockRead n whole]

/-- R27, R211, R224: the eight fixed blocks are those of R211; the rest of an ignored transaction only ends; with none, or
one that waits for HIF, nothing happens. -/
def Sys2Proof.Claims.OtherTransactionsDoNothing : Prop :=
  (List.finRange 8).map fixedBlock = [(0x0100, 32), (0x0120, 16), (0x0130, 16), (0x0140, 32), (0x0160, 16), (0x0170, 8),
    (0x0180, 32), (0x01A0, 32)] ∧
  ∀ (s : State) (bytes extra : List Byte) (n : Nat) (whole : Bool) (k : Fin 8) (code : Byte),
    (s.tw.phase = .ignored → ∀ c ∈ .twReceiveByte n :: Sys2Proof.Claims.twWriteFirst bytes extra n whole k code,
      exec c s = .next { s with tw := { s.tw with phase := .idle, busy := false, sent := [], acked := false } }) ∧
    (s.tw.phase = .idle ∨ s.tw.phase = .stretched →
      ∀ c ∈ .twReceiveByte n :: Sys2Proof.Claims.twWriteFirst bytes extra n whole k code, exec c s = .next s)

/-- A two-wire address match wakes or stretches, and other transactions do nothing. The model's choices that this rests on:
logs 2 and 7. -/
def Obligations.TwoWireAddressing : Prop :=
  Sys2Proof.Claims.AddressMatchWakesTheHost ∧
  Sys2Proof.Claims.OtherTransactionsDoNothing

/-- R210 to R214, R217, R220, R221: a read phase sends the command's own bytes, then the PEC over the whole transaction,
then 0xFF: fresh LIVE bytes, LIVE, EVSUM, the eight fixed blocks, or RLEN bytes from PTR, which advances. -/
def Sys2Proof.Claims.TwoWireReadsSendTheirBytes : Prop :=
  ∀ (s : State) (n : Nat) (k : Fin 8), s.tw.phase = .active →
    let w : Byte := BitVec.ofNat 8 (2 * s.tw.addr.toNat)
    let phase (code : Byte) (own : List Byte) : List Byte := (own ++ [pec ([w, code, w ||| 1] ++ own)] ++ List.replicate n 0xFF).take n
    let done (sent : List Byte) : Tw := { s.tw with phase := .idle, busy := false, sent := sent, acked := true }
    let a := (fixedBlock k).1
    let len := (fixedBlock k).2
    (s.tw.readFirst = true → exec (.twReceiveByte n) s = .next { s with tw := done (List.replicate n (s.live .tw)) }) ∧
    (s.tw.readFirst = false →
      exec (.twReadByte [] n) s = .next { s with tw := done (phase 0x01 [s.live .tw]) } ∧
      exec (.twReadWord [] n) s = .next { s with tw := done (phase 0x02 (leBytes 2 (s.evsum .tw).toNat)) } ∧
      (∃ t, exec (.twFixedRead k [] n true) s = .next t ∧
        let r := s.xferReads { port := .tw } a (min n len)
        t = { r.2.2 with tw := t.tw } ∧ t.tw.phase = .idle ∧ t.tw.sent.length = n ∧
        (n ≤ len → t.tw.sent = r.1) ∧ (len < n → t.tw.sent = phase (0x10 + BitVec.ofNat 8 k.val) r.1)) ∧
      (∃ t, exec (.twPtrBlockRead n true) s = .next t ∧
        let r := s.xferReads { port := .tw } s.tw.ptr.toNat (min (n - 1) s.tw.rlen.toNat)
        t = { r.2.2 with tw := t.tw } ∧ t.tw.phase = .idle ∧ t.tw.sent.length = n ∧
        t.tw.sent = (if s.tw.rlen.toNat < n then phase 0x61 (s.tw.rlen :: r.1) else (s.tw.rlen :: r.1).take n) ∧
        t.tw.ptr.toNat = (s.tw.ptr.toNat + min (n - 1) s.tw.rlen.toNat) % 65536))

/-- R192, R213, R214: a last byte that begins and does not complete has the effects of its checks and none of its completion:
it is not counted as sent, and PTR does not move by it. -/
def Sys2Proof.Claims.BegunBytesOnlyMeetTheirChecks : Prop :=
  ∀ (s : State) (n : Nat) (k : Fin 8), s.tw.phase = .active → s.tw.readFirst = false →
    let a := (fixedBlock k).1
    (n < (fixedBlock k).2 → ∃ t, exec (.twFixedRead k [] (n + 1) false) s = .next t ∧
      let r := s.xferReads { port := .tw } a n
      t = { (r.2.2.xferRead r.2.1 (a + n) false).2.2 with tw := t.tw } ∧ t.tw.sent = r.1) ∧
    (n < s.tw.rlen.toNat → ∃ t, exec (.twPtrBlockRead (n + 2) false) s = .next t ∧
      let r := s.xferReads { port := .tw } s.tw.ptr.toNat n
      t = { (r.2.2.xferRead r.2.1 ((s.tw.ptr.toNat + n) % 65536) false).2.2 with tw := t.tw } ∧
      t.tw.sent = s.tw.rlen :: r.1 ∧ t.tw.ptr.toNat = (s.tw.ptr.toNat + n) % 65536)

/-- R210, R213, R215, R220, R221: a well-formed write transaction takes effect at its end, with or, where PECs are not
required, without its PEC: a ring, bytes of a berth's request mailbox, PTR with RLEN, bytes from PTR. A required PEC that is
missing and a wrong PEC have no effect but EV33 and their records. A code that only reads has no effect as a write. -/
def Sys2Proof.Claims.TwoWireWritesTakeEffectAtTheirEnd : Prop :=
  ∀ (s : State) (b : Fin 4) (lo hi len o d0 d1 p : Byte), s.tw.phase = .active → s.tw.readFirst = false →
    let w : Byte := BitVec.ofNat 8 (2 * s.tw.addr.toNat)
    let ended (t : State) : State := { t with tw := { t.tw with phase := .idle, busy := false, sent := [], acked := true } }
    let bb : Byte := BitVec.ofNat 8 b.val
    let perBerth := s.berths.blk[b].pecReq
    let two := (s.xferWrites { port := .tw } (0x1000 + 0x400 * b.val + o.toNat) [d0, d1]).2
    let atPtr := (s.xferWrites { port := .tw } s.tw.ptr.toNat [d0, d1]).2
    (∀ bytes, exec (.twBlockWrite 0x20 bytes) s = exec (.twRing bytes) s ∧
      exec (.twBlockWrite 0x41 bytes) s = exec (.twProcessCall bytes 0 true) s ∧
      exec (.twBlockWrite 0x60 bytes) s = exec (.twPointerWrite bytes) s ∧
      exec (.twBlockWrite 0x61 bytes) s = exec (.twPtrBlockWrite bytes) s) ∧
    (perBerth = false → exec (.twRing [bb]) s = .next (ended (s.ring .tw b)) ∧
      (o.toNat ≤ 254 → exec (.twBlockWrite 0x40 [4, bb, o, d0, d1]) s = .next (ended two))) ∧
    (s.tw.pecReq = false →
      (len ≠ 0 → exec (.twPointerWrite [lo, hi, len]) s = .next (ended { s with tw :=
        { s.tw with ptr := BitVec.ofNat 16 (lo.toNat + 256 * hi.toNat), rlen := len } })) ∧
      exec (.twPtrBlockWrite [2, d0, d1]) s = .next (ended { atPtr with tw := { atPtr.tw with ptr := atPtr.tw.ptr + 2 } })) ∧
    let rows : List ((List Byte → Instr) × Byte × List Byte × Bool × State) :=
      [(.twRing, 0x20, [bb], perBerth, s.ring .tw b),
       (.twBlockWrite 0x40, 0x40, [4, bb, o, d0, d1], perBerth, two),
       (.twPointerWrite, 0x60, [lo, hi, len], s.tw.pecReq,
         { s with tw := { s.tw with ptr := BitVec.ofNat 16 (lo.toNat + 256 * hi.toNat), rlen := len } }),
       (.twPtrBlockWrite, 0x61, [2, d0, d1], s.tw.pecReq, { atPtr with tw := { atPtr.tw with ptr := atPtr.tw.ptr + 2 } }),
       (.twBlockWrite 0x01, 0x01, [], false, s), (.twBlockWrite 0x17, 0x17, [], false, s)]
    (len ≠ 0 → o.toNat ≤ 254 → ∀ r ∈ rows,
      (r.2.2.2.1 = false → exec (r.1 r.2.2.1) s = .next (ended r.2.2.2.2)) ∧
      (r.2.2.2.1 = true → exec (r.1 r.2.2.1) s =
        .next ((ended { s with tw := { s.tw with stat := s.tw.stat ||| 0x20 } }).raise 33)) ∧
      exec (r.1 (r.2.2.1 ++ [pec ([w, r.2.1] ++ r.2.2.1)])) s = .next (ended r.2.2.2.2) ∧
      (p ≠ pec ([w, r.2.1] ++ r.2.2.1) → exec (r.1 (r.2.2.1 ++ [p])) s = .next (({ s with tw :=
        { s.tw with
          pecCnt := satInc s.tw.pecCnt, stat := s.tw.stat ||| 0x10
          phase := .idle, busy := false, sent := [], acked := false } } : State).raise 33)))

/-- R210, R214, R217, R220: a process call of berth, offset and length returns the length and that many bytes of the berth's
response mailbox, then the PEC, then 0xFF; without a read phase it has no effect. -/
def Sys2Proof.Claims.ProcessCallReadsTheResponse : Prop :=
  ∀ (s : State) (b : Fin 4) (o l : Byte) (n : Nat), s.tw.phase = .active → s.tw.readFirst = false →
    l ≠ 0 → o.toNat + l.toNat ≤ 256 →
    let w : Byte := BitVec.ofNat 8 (2 * s.tw.addr.toNat)
    let bytes : List Byte := [3, BitVec.ofNat 8 b.val, o, l]
    let r := s.xferReads { port := .tw } (0x1100 + 0x400 * b.val + o.toNat) (min (n - 1) l.toNat)
    (n ≠ 0 → ∃ t, exec (.twProcessCall bytes n true) s = .next t ∧ t = { r.2.2 with tw := t.tw } ∧ t.tw.phase = .idle ∧
      t.tw.sent = (if l.toNat < n
        then (l :: r.1 ++ [pec ([w, 0x41] ++ bytes ++ [w ||| 1] ++ (l :: r.1))] ++ List.replicate n 0xFF).take n
        else (l :: r.1).take n)) ∧
    (s.berths.blk[b].pecReq = false → exec (.twProcessCall bytes 0 true) s =
      .next { s with tw := { s.tw with phase := .idle, busy := false, sent := [], acked := true } })

/-- Two-wire reads send their bytes, and writes take effect at their end. The model's choices that this rests on: logs 2 and
7. -/
def Obligations.TwoWireTransactions : Prop :=
  Sys2Proof.Claims.TwoWireReadsSendTheirBytes ∧
  Sys2Proof.Claims.BegunBytesOnlyMeetTheirChecks ∧
  Sys2Proof.Claims.TwoWireWritesTakeEffectAtTheirEnd ∧
  Sys2Proof.Claims.ProcessCallReadsTheResponse

/-- R216: each malformed transaction changes nothing but TW_STAT, the cause and EV38: the cause and a transaction that has
it. (That a byte between the code of a read and its read phase is cause 5 is the model's choice, log 81.) -/
def Sys2Proof.Claims.MalformedTransactionsAreRecorded : Prop :=
  ∀ (s : State) (x y : Byte) (b : Fin 4) (k : Fin 8), s.tw.phase = .active → s.tw.readFirst = false →
    let bb : Byte := BitVec.ofNat 8 b.val
    let w : Byte := BitVec.ofNat 8 (2 * s.tw.addr.toNat)
    let call (bytes : List Byte) : Instr := .twProcessCall bytes 1 true
    (∀ r ∈ [(Instr.twBlockWrite 0x7F [], (1 : BitVec 3)), (.twBlockWrite 0x40 [2], 2), (call [2], 2),
        (call [3, bb, x, 0], 2), (.twPtrBlockWrite [0], 2), (.twRing [0x04], 3), (.twBlockWrite 0x40 [3, 0x80], 3),
        (call [3, 0x10], 3), (.twBlockWrite 0x40 [4, bb, 0xFF, x, y], 4), (call [3, bb, 0xFF, 2], 4),
        (.twRing [bb, pec [w, 0x20, bb], x], 5), (.twBlockWrite 0x02 [pec [w, 0x02], x], 5), (.twReadByte [x] 1, 5),
        (.twReadWord [x] 1, 5), (.twFixedRead k [x] 1 true, 5), (call [3, bb, 0, 1, x], 5), (.twRing [], 6),
        (.twBlockWrite 0x40 [3, bb], 6), (call [3, bb], 6),
        (.twPointerWrite [x, y], 6), (.twPtrBlockWrite [2, x], 6), (.twPointerWrite [x, y, 0], 7)],
      exec r.1 s = .next (({ s with tw :=
        { s.tw with
          protoCause := r.2, stat := s.tw.stat ||| 0x40, phase := .idle, busy := false, sent := []
          acked := decide (r.2 = 6) } } : State).raise 38))

/-- R27, R228 to R235, R240, R244: HSCL held low and HSDA stuck low are flagged with EV34 and EV35, the first abandoning what is
on the bus; a due recovery pulses HSCL until HSDA is free, with EV46, or fails, and waits for the end of a quiet window; a lost
arbitration is counted, and the read is tried again up to three times in all or the module becomes the target; losing it at a
repeated START aborts with EV36. -/
def Sys2Proof.Claims.TwoWireTimeoutsAndArbitration : Prop :=
  ∀ s : State,
    (s.portUp .tw = true → ∃ t, exec .twClockLowTimeout s = .next t ∧ t = { s with tw := t.tw, ev := t.ev, dom := t.dom } ∧
      t.tw.tlowCnt = satInc s.tw.tlowCnt ∧ t.tw.stat = s.tw.stat ||| 0x01 ∧ t.ev.raised.getLsbD 34 = true ∧
      t.tw.phase = (if s.tw.phase = .idle then .idle else .ignored) ∧ t.tw.sbsActive = false ∧
      (s.tw.sbsActive = true → t.tw.sbsCause = 5 ∧ t.ev.raised.getLsbD 39 = true)) ∧
    (s.portUp .tw = true → exec .twStuckTimeout s = .next (({ s with tw :=
      { s.tw with hsda := false, hscl := true, stat := s.tw.stat ||| 0x02 } } : State).raise 35)) ∧
    (s.portUp .tw = false → exec .twClockLowTimeout s = .next s ∧ exec .twStuckTimeout s = .next s) ∧
    (s.recovering = true → s.link.window = none →
      (∀ k, exec (.twBusRecovery (some k)) s = .next (({ s with tw :=
        { s.tw with
          recovCnt := satInc s.tw.recovCnt, stat := s.tw.stat &&& 0xFD, hsda := true, busy := false
          sbsPending := true, sbsActive := false } } : State).raise 46)) ∧
      exec (.twBusRecovery none) s = .next (({ s with tw :=
        { s.tw with sbsCause := 6, sbsPending := false, sbsActive := false, sbsTries := 0 } } : State).raise 39)) ∧
    (s.recovering = false ∨ s.link.window.isSome = true → ∀ r, exec (.twBusRecovery r) s = .next s) ∧
    (s.tw.sbsActive = true →
      let lost : Tw := { s.tw with arbCnt := satInc s.tw.arbCnt, sbsActive := false, busy := true }
      (∀ a : Byte, (a >>> 1).setWidth 7 = s.tw.addr → ∃ t, exec (.twArbLost (some a)) s = .next t ∧
        t = { s with tw := { lost with sbsPending := true, phase := .active, acked := true, readFirst := a.getLsbD 0, sent := [] }
                     dom := t.dom }) ∧
      (s.tw.sbsTries < 3 → exec (.twArbLost none) s = .next { s with tw := { lost with sbsPending := true } }) ∧
      (3 ≤ s.tw.sbsTries → exec (.twArbLost none) s = .next (({ s with tw :=
        { lost with sbsCause := 3, sbsPending := false, sbsTries := 0 } } : State).raise 39)) ∧
      ∃ t, exec .twArbSr s = .next t ∧ t = { s with tw := t.tw, ev := t.ev, dom := t.dom } ∧
        t.tw.stat = s.tw.stat ||| 0x04 ∧ t.tw.sbsCause = 4 ∧ t.tw.sbsActive = false ∧
        t.ev.raised.getLsbD 36 = true ∧ t.ev.raised.getLsbD 39 = true) ∧
    (s.tw.sbsActive = false → exec .twArbSr s = .next s ∧ ∀ a, exec (.twArbLost a) s = .next s)

/-- Malformed transactions, timeouts, bus recovery and lost arbitration. The model's choices that this rests on: logs 2, 20
and 81. -/
def Obligations.TwoWireErrors : Prop :=
  Sys2Proof.Claims.MalformedTransactionsAreRecorded ∧
  Sys2Proof.Claims.TwoWireTimeoutsAndArbitration

/-- R228, R229, R235, R240: a due smart-battery read waits for the bus and starts when it is free, after the recovery that STUCK
asks for, and at the closing of a quiet window that holds its START. -/
def Sys2Proof.Claims.SmartBatteryReadsStart : Prop :=
  ∀ s : State,
    let free : Tw := { s.tw with phase := .idle, busy := false, hscl := true, hsda := true }
    (s.isOn .hif = true → s.isOn .cpu = true → s.fw.started = true → bitAt s.gauge.cfg 23 0 = true →
      s.tw.sbsPending = false → s.tw.sbsActive = false →
      exec .sbsReadDue s = .next { s with tw := { s.tw with sbsPending := true, sbsTries := 0 } }) ∧
    (s.isOn .hif = false ∨ s.isOn .cpu = false ∨ s.fw.started = false ∨ bitAt s.gauge.cfg 23 0 = false ∨
      s.tw.sbsPending = true ∨ s.tw.sbsActive = true → exec .sbsReadDue s = .next s) ∧
    (s.portUp .tw = false → exec .sbsBusFree s = .next s) ∧
    (s.portUp .tw = true → s.tw.sbsPending = true → s.tw.sbsActive = false → s.isOn .hif = true → s.isOn .cpu = true →
      s.recovering = false →
      (s.link.window = none → exec .sbsBusFree s = .next { s with tw :=
        { free with sbsPending := false, startHeld := false, sbsActive := true, sbsTries := s.tw.sbsTries + 1, busy := true } }) ∧
      (s.link.window.isSome = true → exec .sbsBusFree s = .next { s with tw := { free with startHeld := true } } ∧
        (s.tw.startHeld = true → s.closeWindow.tw.sbsActive = true ∧ s.closeWindow.tw.sbsPending = false))) ∧
    (s.portUp .tw = true → s.tw.sbsPending = false ∨ s.tw.sbsActive = true ∨ s.isOn .hif = false ∨ s.isOn .cpu = false ∨
      s.recovering = true → exec .sbsBusFree s = .next { s with tw := free })

/-- R228, R232, R240, R421, R422: a smart-battery read ends outside a quiet window, with HIF and CPU ON: success raises EV45 with
an SBS record in the order of the table of R422, and each failure sets its SBS_CAUSE with EV39. Without SBS_PEC the PEC byte
decides nothing. -/
def Sys2Proof.Claims.SmartBatteryReadsEnd : Prop :=
  ∀ (s : State) (words : List Half),
    let ended : Tw := { s.tw with sbsActive := false, sbsTries := 0, busy := false }
    let w (k : Nat) : List Byte := leBytes 2 (words.getD k 0).toNat
    let fields := w 1 ++ w 2 ++ [(words.getD 3 0).setWidth 8, 0] ++ w 4 ++ w 0 ++ w 5 ++ w 6
    (s.tw.sbsActive = true → s.isOn .hif = true → s.isOn .cpu = true → s.link.window = none →
      (s.holderOf 6 = none ∨ bitAt s.gauge.cfg 27 3 = false → exec (.sbsReadComplete .ok words) s =
        .next (({ s with tw := ended } : State).raise 45)) ∧
      (∀ b, s.holderOf 6 = some b → bitAt s.gauge.cfg 27 3 = true → exec (.sbsReadComplete .ok words) s =
        .next ((({ s with tw := ended } : State).record b s.cal.stamp 0x23 0 (s.gaugeFlags false) fields).raise 45)) ∧
      (∀ r ∈ [(BusEnd.addrNack, (1 : BitVec 3)), (.dataNack, 2)],
        exec (.sbsReadComplete r.1 words) s = .next (({ s with tw :=
          { ended with sbsCause := r.2, sbsPending := false } } : State).raise 39)) ∧
      (bitAt s.gauge.cfg 23 1 = true → exec (.sbsReadComplete .pec words) s = .next (({ s with tw :=
        { ended with sbsCause := 7, sbsPending := false } } : State).raise 39)) ∧
      (bitAt s.gauge.cfg 23 1 = false → exec (.sbsReadComplete .pec words) s = exec (.sbsReadComplete .ok words) s)) ∧
    (s.tw.sbsActive = false ∨ s.isOn .hif = false ∨ s.isOn .cpu = false ∨ s.link.window.isSome = true →
      ∀ how, exec (.sbsReadComplete how words) s = .next s)

/-- R236 to R240, R459: a probe transfer in progress, with HIF and CPU ON and its lines free to move, ends: a read with its bytes
and EV44, a write after it is acknowledged while polling, or with its PB_CAUSE, PB_FAIL and EV40; the command is answered OK
with the cause. Without one nothing happens, and inside a quiet window nothing but the end of the polling time. -/
def Sys2Proof.Claims.ProbeTransfersEnd : Prop :=
  ∀ (s : State) (bytes : List Byte) (acked : Bool),
    let moves : List Instr := [.probeTransferDone .ok bytes, .probeTransferDone .addrNack bytes, .probeTransferDone .dataNack bytes,
      .probeTransferDone .pec bytes, .probeWritePoll acked, .probeBusConflict]
    (s.isOn .hif = false ∨ s.isOn .cpu = false ∨ s.tw.probe = none →
      exec .probePollTimeout s = .next s ∧ ∀ c ∈ moves, exec c s = .next s) ∧
    (s.link.window.isSome = true ∨ s.tw.pbStuck = true → ∀ c ∈ moves, exec c s = .next s) ∧
    (s.isOn .hif = true → s.isOn .cpu = true → ∀ o, s.tw.probe = some o →
      let ok (data : List Byte) : State :=
        (({ s with tw := { s.tw with probe := none, pbCause := 0 } } : State).raise 44).answer o.berth .ok (0 :: data)
      let failed (cause : BitVec 3) : State :=
        (({ s with tw := { s.tw with probe := none, pbCause := cause, pbFail := true } } : State).raise 40).answer o.berth .ok
          [cause.setWidth 8]
      (o.polling = true → exec .probePollTimeout s = .next (failed 3)) ∧
      (o.polling = false → exec .probePollTimeout s = .next s ∧ exec (.probeWritePoll acked) s = .next s) ∧
      (s.link.window = none → s.tw.pbStuck = false →
        exec (.probeTransferDone .addrNack bytes) s = .next (failed 1) ∧
        exec (.probeTransferDone .dataNack bytes) s = .next (failed 2) ∧
        exec .probeBusConflict s = .next (failed 6) ∧
        (o.polling = true → exec (.probeWritePoll true) s = .next (ok []) ∧ exec (.probeWritePoll false) s = .next s ∧
          exec (.probeTransferDone .ok bytes) s = .next s) ∧
        (o.polling = false →
          (o.write = true → exec (.probeTransferDone .ok bytes) s =
            .next { s with tw := { s.tw with probe := some { o with polling := true } } }) ∧
          (o.write = false → bytes.length = o.count → exec (.probeTransferDone .ok bytes) s = .next (ok bytes)))))

/-- R233 to R235, R240, R241: PSCL low for 25 ms fails a transfer with cause 4; PSDA stuck is recovered with EV46, whether or not
a transfer runs, and only a line still low after nine pulses fails one, with cause 5. (That a recovered transfer is made again
is the model's choice, log 21.) -/
def Sys2Proof.Claims.ProbeLinesAreRecovered : Prop :=
  ∀ (s : State) (stuck recovered : Bool),
    (s.isOn .hif = false ∨ s.isOn .cpu = false → exec (.probeTimeout stuck recovered) s = .next s) ∧
    (s.isOn .hif = true → s.isOn .cpu = true →
      (s.link.window = none → exec (.probeTimeout true true) s = .next (({ s with tw :=
        { s.tw with pbStuck := false, pbRecovCnt := satInc s.tw.pbRecovCnt } } : State).raise 46)) ∧
      (s.link.window.isSome = true → exec (.probeTimeout true recovered) s = .next s) ∧
      (s.tw.probe = none → exec (.probeTimeout false recovered) s = .next s ∧
        (s.link.window = none → exec (.probeTimeout true false) s = .next { s with tw := { s.tw with pbStuck := true } })) ∧
      (∀ o, s.tw.probe = some o →
        let failed (cause : BitVec 3) (tw : Tw) : State :=
          (({ s with tw := { tw with probe := none, pbCause := cause, pbFail := true } } : State).raise 40).answer o.berth .ok
            [cause.setWidth 8]
        exec (.probeTimeout false recovered) s = .next (failed 4 s.tw) ∧
        (s.link.window = none → exec (.probeTimeout true false) s = .next (failed 5 { s.tw with pbStuck := true }))))

/-- Smart-battery reads and probe transfers run, end and fail. The model's choices that this rests on: logs 2, 21 and 77. -/
def Obligations.ControllerReads : Prop :=
  Sys2Proof.Claims.SmartBatteryReadsStart ∧
  Sys2Proof.Claims.SmartBatteryReadsEnd ∧
  Sys2Proof.Claims.ProbeTransfersEnd ∧
  Sys2Proof.Claims.ProbeLinesAreRecovered

/-! ## Firmware's own work -/

/-- R246, R248, R254 to R256, R270, R297, R442: a start loads the active charter, whose ports become the bindings, whose rights
become the control blocks' and the grants; after a wake from OFF flash and the totals stay; after any other reset the valid copy
with the higher SERIAL, or the default charter, is active, every berth with an epoch left under its key takes the next one, and
the policies return to their reset values. The model's choices that this rests on: logs 2, 9, 19, 34 and 80. -/
def Obligations.FirmwareStartLoadsTheCharter : Prop :=
  ∀ s : State,
    (s.isOn .cpu = false ∨ s.fw.started = true → exec .firmwareStart s = .next s) ∧
    (s.isOn .cpu = true → s.fw.started = false → ∃ t, exec .firmwareStart s = .next t ∧
      t.fw.started = true ∧ t.fw.coldStart = false ∧ t.dom.pllcReq = true ∧
      (∀ n : Fin 4, t.bindOf n.val = t.fw.charter.entries[n].port.toNat ∧
        t.berths.blk[n].rights = t.fw.charter.entries[n].rights ∧ t.berths.blk[n].sealed = t.fw.charter.entries[n].sealed ∧
        t.berths.blk[n].pecReq = t.fw.charter.entries[n].pecReq) ∧
      (∀ p : Fin 3,
        (t.bin.chgGrant.getLsbD p.val = true ↔ ∃ n : Fin 4, t.fw.charter.entries[n].rights.getLsbD 7 = true ∧
          t.fw.charter.entries[n].port.toNat = p.val) ∧
        (t.bin.rtcGrant.getLsbD p.val = true ↔ ∃ n : Fin 4, t.fw.charter.entries[n].rights.getLsbD 8 = true ∧
          t.fw.charter.entries[n].port.toNat = p.val) ∧
        (t.bin.sysonGrant.getLsbD p.val = true ↔ ∃ n : Fin 4, t.fw.charter.entries[n].rights.getLsbD 9 = true ∧
          t.fw.charter.entries[n].port.toNat = p.val)) ∧
      (s.fw.coldStart = false → t.fw.charter = s.fw.charter ∧ t.flash = s.flash ∧ t.log.a.totals = s.log.a.totals ∧
        t.log.b.totals = s.log.b.totals ∧ ∀ n : Fin 4, t.berths.blk[n].macCtr = s.berths.blk[n].macCtr) ∧
      (s.flash.storeA = none → s.flash.storeB = none → t.fw.trimPolicy = trimReset ∧
        t.log.a.acq = acqReset ∧ t.log.b.flow = flowReset ∧ t.log.rtdBlk = rtdReset ∧ t.log.a.acqOk = false) ∧
      (s.fw.coldStart = true →
        ((∀ e ∈ s.flash.logbook, e.kind ≠ 3 ∧ e.kind ≠ 4) →
          let copyA := Charter.ofImage s.flash.charterA
          let copyB := Charter.ofImage s.flash.charterB
          (∀ a b, copyA = some a → copyB = some b → t.fw.charter = if a.serial.toNat < b.serial.toNat then b else a) ∧
          (∀ a, copyA = some a → copyB = none → t.fw.charter = a) ∧
          (∀ b, copyA = none → copyB = some b → t.fw.charter = b) ∧
          (copyA = none → copyB = none → t.fw.charter = defaultCharter ∧ t.fw.isDefault = true) ∧
          (∀ n : Fin 4,
            let key := t.fw.charter.entries[n].key
            let top := s.flash.topEpoch n key
            (top < 0xFFFF → t.berths.blk[n].macCtr = BitVec.ofNat 32 ((top + 1) * 0x10000) ∧
              t.berths.blk[n].noEpoch = false ∧ t.flash.topEpoch n key = top + 1 ∧
              ∀ other, other ≠ key → t.flash.topEpoch n other = s.flash.topEpoch n other) ∧
            (0xFFFF ≤ top → t.berths.blk[n].noEpoch = true ∧ t.flash.epochs[n] = s.flash.epochs[n]))) ∧
        t.fw.pfArmed = true ∧ t.dom.pdLow = 0x555 ∧ t.dom.wakeEn = 0x0003F000 ∧ t.ev.wakeEn = 0 ∧
        (∀ k : Fin 6, t.dom.idle[k] = 0) ∧ t.log.a.gain = acqPga t.log.a.acq ∧ t.log.b.gain = acqPga t.log.b.acq) ∧
      t.line = s.line ∧ t.power = s.power ∧ t.gauge = s.gauge ∧ t.tw = s.tw ∧ t.spi = s.spi ∧ t.cal = s.cal ∧
      (s.fw.recQ = [] → t.berths.mem = s.berths.mem) ∧ t.ev.pend = s.ev.pend)

/-- R248, R254: a charter's image is 276 bytes with MAGIC, FORMAT, LENGTH, SERIAL and the CRC of bytes 0 to 271; a copy with any
of them wrong is not valid, and a valid one gives back its SERIAL and each entry's port, rights and flags. -/
def Sys2Proof.Claims.CharterImagesAreJudged : Prop :=
  ∀ (c : Charter) (p : List Byte),
    c.image.length = 276 ∧ slice c.image 0 4 = [0x43, 0x48, 0x52, 0x31] ∧ leAt c.image 4 2 = 0x0001 ∧ leAt c.image 6 2 = 276 ∧
    leAt c.image 8 4 = c.serial.toNat ∧ leAt c.image 12 4 = 0 ∧ leAt c.image 272 4 = (crc32 (slice c.image 0 272)).toNat ∧
    (∀ n : Fin 4, leAt c.image (16 + 64 * n.val + 2) 2 = c.entries[n].rights.toNat ∧
      slice c.image (16 + 64 * n.val + 24) 32 = slice c.entries[n].key 0 32) ∧
    (∃ d, Charter.ofImage c.image = some d ∧ d.serial = c.serial ∧ ∀ n : Fin 4, d.entries[n].port = c.entries[n].port ∧
      d.entries[n].rights = c.entries[n].rights ∧ d.entries[n].sealed = c.entries[n].sealed ∧
      d.entries[n].pecReq = c.entries[n].pecReq ∧ d.entries[n].logQuota = c.entries[n].logQuota) ∧
    (slice p 0 8 ≠ slice c.image 0 8 ∨ leAt p 272 4 ≠ (crc32 (slice p 0 272)).toNat → Charter.ofImage p = none)

/-- R181, R264, R265, R269, R271 to R275: firmware takes the oldest ring: PEND clears and ACK sets, and the first check that
fails answers: a bad header BAD_LEN; a repeat of the last accepted frame its stored response; a locked berth, or a sealed one
without a MAC, MAC_FAIL; a SEQ seen before SEQ_ERROR; an unknown code UNKNOWN_CMD. A request that passes is held for
execution, with its place in the order of requests. Without a ring to take nothing happens. The model's choices that this
rests on: logs 2, 36 and 46. -/
def Obligations.RequestsAreTakenAndChecked : Prop :=
  ∀ (s : State) (b : Fin 4),
    ((s.isOn .cpu && s.fw.started && s.isOn .memB && !s.fw.resetDue && s.nextRing == some b) = false →
      exec (.firmwareTakeRequest b) s = .next s) ∧
    (s.isOn .cpu = true → s.fw.started = true → s.isOn .memB = true → s.fw.resetDue = false → s.nextRing = some b →
      let bytes := memReadAll s.berths.mem (windowBase b.val) 256
      let k := s.berths.blk[b]
      let len := leAt bytes 4 2
      let flags := bytes.getD 3 0
      let bad := leAt bytes 6 2 != (crc16 (slice bytes 0 6)).toNat || decide (240 < len) || flags &&& 0xF8 != 0
      let frame := slice bytes 0 (8 + len + (if flags.getLsbD 0 then 8 else 0))
      ∃ t, exec (.firmwareTakeRequest b) s = .next t ∧
        t.dom.bells[b].pend = false ∧ t.dom.bells[b].ack = true ∧ t.dom.ringOrder = s.dom.ringOrder.erase b ∧
        t.fw.turns = s.fw.turns + 1 ∧
        (∀ n, n ≠ b → t.berths.blk[n] = s.berths.blk[n] ∧ t.dom.bells[n] = s.dom.bells[n]) ∧
        (bad = true → t.berths.blk[b].cur = none ∧ t.berths.blk[b].respRdy = true ∧
          memRead t.berths.mem (windowBase b.val + 0x108) = 0x03 ∧ t.berths.blk[b].lastSeq = k.lastSeq ∧
          t.berths.blk[b].lastStatus = k.lastStatus) ∧
        (bad = false → frame = k.lastFrame → ∀ r, k.stored = some r → t.berths.blk[b] = { k with respRdy := true } ∧
          t.ev.raised.getLsbD (48 + b.val) = true ∧
          t.berths.mem = memWriteAll s.berths.mem (windowBase b.val + 0x100) r) ∧
        (bad = false → frame ≠ k.lastFrame ∨ k.stored = none →
          (k.macLock = true → t.berths.blk[b].cur = none ∧ memRead t.berths.mem (windowBase b.val + 0x108) = 0x07 ∧
            (∀ j < 4, memRead t.berths.mem (windowBase b.val + 0x109 + j) = (leBytes 4 k.macCtr.toNat).getD j 0) ∧
            t.berths.blk[b].macFails = k.macFails) ∧
          (k.macLock = false → k.sealed = true → flags.getLsbD 0 = false →
            t.berths.blk[b].cur = none ∧ memRead t.berths.mem (windowBase b.val + 0x108) = 0x07 ∧
            (k.noEpoch = false → k.macFails < 7 → t.berths.blk[b].macFails = k.macFails + 1 ∧ t.berths.blk[b].macLock = false) ∧
            (k.noEpoch = false → 7 ≤ k.macFails → t.berths.blk[b].macFails = 0 ∧ t.berths.blk[b].macLock = true ∧
              t.ev.raised.getLsbD 91 = true)) ∧
          (k.macLock = false → k.sealed = false → flags.getLsbD 0 = false →
            (k.seqKnown = true → k.lastSeq = bytes.getD 2 0 → t.berths.blk[b].cur = none ∧
              memRead t.berths.mem (windowBase b.val + 0x108) = 0x0A) ∧
            (k.seqKnown = false ∨ k.lastSeq ≠ bytes.getD 2 0 →
              t.berths.blk[b].lastSeq = bytes.getD 2 0 ∧ t.berths.blk[b].seqKnown = true ∧
              (commandCodes.contains (BitVec.ofNat 16 (leAt bytes 0 2)) = false →
                t.berths.blk[b].cur = none ∧ memRead t.berths.mem (windowBase b.val + 0x108) = 0x02) ∧
              (commandCodes.contains (BitVec.ofNat 16 (leAt bytes 0 2)) = true →
                t.berths.blk[b].cur = some { cmd := BitVec.ofNat 16 (leAt bytes 0 2), seq := bytes.getD 2 0, flags
                                             payload := slice bytes 8 len, mac := false, ctr := 0, frame
                                             turn := s.fw.turns + 1 } ∧
                t.berths.mem = s.berths.mem)))) ∧
        t.line = s.line ∧ t.power = s.power ∧ t.gauge = s.gauge ∧ t.log = s.log ∧ t.spi = s.spi ∧ t.cal = s.cal)

/-- R251, R272, R290, R300: the lockout ends; a confirmed image ends its probation with a logbook entry, which names the release
that ran before it, and raises the security floor; a quota window opens with every charge at 0 and LOG_USED shown. -/
def Obligations.LockProbationAndQuotaEnd : Prop :=
  ∀ (s : State) (b : Fin 4),
    exec (.macLockExpire b) s = .next { s with berths := { s.berths with
      blk := s.berths.blk.set b { s.berths.blk[b] with macLock := false } } } ∧
    (s.fw.probation = false ∨ s.fw.started = false → exec .fwProbationEnd s = .next s) ∧
    (s.fw.probation = true → s.fw.started = true → ∃ t, exec .fwProbationEnd s = .next t ∧
      t = { s with flash := t.flash, fw := t.fw } ∧ t.flash.trial = false ∧ t.fw.probation = false ∧
      t.flash.topSecVer = (if s.flash.topSecVer.toNat < s.flash.active.secVer.toNat then s.flash.active.secVer
        else s.flash.topSecVer) ∧ t.flash.logbook = s.flash.logbook ∧
      ∃ e, t.fw.logQ = s.fw.logQ ++ [e] ∧ e.kind = 7 ∧ e.stamp = s.cal.stamp ∧ slice e.data 0 4 = slice s.flash.prior 0 4 ∧
        slice e.data 4 4 = slice s.flash.active.release 0 4 ∧ leAt e.data 8 2 = s.flash.active.secVer.toNat) ∧
    (∃ t, exec .logQuotaWindow s = .next t ∧
      (∀ n : Fin 4, t.berths.blk[n] = { s.berths.blk[n] with
        logTime := 0, logUsed := if s.isOn .memB then BitVec.ofNat 16 (divRound s.berths.blk[n].logTime 128000000).toNat
          else s.berths.blk[n].logUsed }) ∧
      (s.freeSlot = false → t = { s with berths := t.berths }) ∧ t.flash = s.flash ∧ t.fw = s.fw ∧ t.line = s.line ∧
      t.berths.mem = s.berths.mem)

/-- R259, R260, R262, R292, R294, R386: the oldest entry that waits becomes durable in the logbook. A totals entry raises
EV78; a SEAL entry seals its berth's charter entry, SERIAL one on, in the spare copy, with EV88; an UNSEAL_BEGIN entry begins
the erasure of the store; an UNSEAL_DONE entry raises EV88. -/
def Sys2Proof.Claims.LogbookEntriesBecomeDurable : Prop :=
  ∀ s : State,
    (s.fw.logQ = [] → exec .logbookEntryDurable s = .next s) ∧
    (∀ e rest, s.fw.logQ = e :: rest → ∃ t, exec .logbookEntryDurable s = .next t ∧
      t.flash.logbook = bookAdd s.flash.logbook e ∧ t.fw.logQ = rest ∧
      (e.isTotals = true → t.ev.raised.getLsbD 78 = true) ∧
      (e.kind = 3 → e.berth.toNat < 4 → t.ev.raised.getLsbD 88 = true ∧ t.fw.charter.serial = s.fw.charter.serial + 1 ∧
        (if s.fw.spareIsB then t.flash.charterB else t.flash.charterA) = t.fw.charter.image ∧
        (if s.fw.spareIsB then t.flash.charterA = s.flash.charterA else t.flash.charterB = s.flash.charterB) ∧
        ∀ n : Fin 4, n.val = e.berth.toNat →
          t.fw.charter.entries = s.fw.charter.entries.set n { s.fw.charter.entries[n] with
            sealed := true, sealStamp := e.stamp, sealAudit := BitVec.ofNat 32 (leAt e.data 0 4) } ∧
          t.berths.blk[n].sealed = true) ∧
      (e.kind = 4 → e.berth.toNat < 4 → t.fw.charter = s.fw.charter ∧ ∀ n : Fin 4, n.val = e.berth.toNat →
        (s.fw.charter.entries[n].rights.getLsbD 0 = true → t.log.a.totals = {} ∧ t.log.a.template = none ∧
          t.log.a.leeway = 0 ∧ t.log.a.card = cardReset) ∧
        (s.fw.charter.entries[n].rights.getLsbD 0 = false → t.log.a = s.log.a) ∧
        (s.fw.charter.entries[n].rights.getLsbD 1 = true → t.log.b.totals = {} ∧ t.log.b.template = none ∧
          t.log.b.leeway = 0 ∧ t.log.b.card = cardReset) ∧
        (s.fw.charter.entries[n].rights.getLsbD 1 = false → t.log.b = s.log.b) ∧
        ∃ w, t.fw.storeQ = s.fw.storeQ ++ [w] ∧ w.erases = some n ∧ w.answer = false ∧ w.image.seq = s.store.seq + 1) ∧
      (e.kind = 5 → t.ev.raised.getLsbD 88 = true ∧ t.fw.charter = s.fw.charter) ∧
      (e.kind ≠ 4 → t.log = s.log ∧ t.fw.storeQ = s.fw.storeQ) ∧
      (e.kind ≠ 3 → t.flash.charterA = s.flash.charterA ∧ t.flash.charterB = s.flash.charterB) ∧
      t.flash.auditCtr = s.flash.auditCtr ∧ t.flash.storeA = s.flash.storeA ∧ t.flash.storeB = s.flash.storeB ∧
      t.line = s.line ∧ t.power = s.power ∧ t.gauge = s.gauge ∧ t.cal = s.cal)

/-- R260, R297: the oldest image that waits becomes durable in the copy that does not hold the latest one, and the command
that wrote it is answered; the image of an unseal also unseals its berth and queues the UNSEAL_DONE entry. -/
def Sys2Proof.Claims.StoreImagesBecomeDurable : Prop :=
  ∀ s : State,
    (s.fw.storeQ = [] → exec .configStoreDurable s = .next s) ∧
    (∀ w rest, s.fw.storeQ = w :: rest → ∃ t, exec .configStoreDurable s = .next t ∧ t.fw.storeQ = rest ∧
      (∀ a b, s.flash.storeA = some a → s.flash.storeB = some b →
        (a.seq < b.seq → t.flash.storeA = some w.image ∧ t.flash.storeB = some b) ∧
        (b.seq ≤ a.seq → t.flash.storeA = some a ∧ t.flash.storeB = some w.image)) ∧
      (∀ a, s.flash.storeA = some a → s.flash.storeB = none → t.flash.storeA = some a ∧ t.flash.storeB = some w.image) ∧
      (s.flash.storeA = none → t.flash.storeA = some w.image ∧ t.flash.storeB = s.flash.storeB) ∧
      (w.answer = true → ∀ rq, s.berths.blk[w.berth].cur = some rq → rq.waiting = true →
        t.berths.blk[w.berth].cur = none ∧ (rq.accepted = true → t.berths.blk[w.berth].lastStatus = 0x00) ∧
        (rq.flags.getLsbD 1 = true → t.ev.raised.getLsbD (48 + w.berth.val) = true ∧
          memRead t.berths.mem (windowBase w.berth.val + 0x108) = 0x00)) ∧
      (w.answer = false → t.berths.mem = s.berths.mem) ∧
      (w.erases = none → t.fw = { s.fw with storeQ := rest } ∧ t.flash.charterA = s.flash.charterA) ∧
      (∀ n, w.erases = some n → t.fw.charter.serial = s.fw.charter.serial + 1 ∧
        t.fw.charter.entries = s.fw.charter.entries.set n { s.fw.charter.entries[n] with sealed := false } ∧
        t.berths.blk[n].sealed = false ∧
        ∃ e, t.fw.logQ = s.fw.logQ ++ [e] ∧ e.kind = 5 ∧ e.berth.toNat = n.val ∧ leAt e.data 0 4 = s.flash.auditCtr.toNat) ∧
      t.flash.logbook = s.flash.logbook ∧ t.flash.auditCtr = s.flash.auditCtr ∧ t.log = s.log ∧ t.line = s.line ∧
      t.power = s.power ∧ t.gauge = s.gauge ∧ t.cal = s.cal)

/-- R248, R254, R260, R297, R294: charter images are judged; logbook entries and store images become durable, and what waited for
them is done. The model's choices that this rests on: logs 2 and 31. -/
def Obligations.FlashWritesBecomeDurable : Prop :=
  Sys2Proof.Claims.CharterImagesAreJudged ∧
  Sys2Proof.Claims.LogbookEntriesBecomeDurable ∧
  Sys2Proof.Claims.StoreImagesBecomeDurable

/-! ## The Log engine -/

/-- R316, R324, R356, R359, R375, R376: a path's due time moves on by its interval; a sounding that falls due while the path's
last one runs or waits is dropped; in a free slot it starts with SNUM one on and the configuration then in force; with LOG not
ON, LOG is brought ON for it; a running conversion delays one that its quota would let start, and it starts at the conversion's
end with EV70. The model's choices that this rests on: logs 2 and 28. -/
def Obligations.SoundingsFallDueAndStart : Prop :=
  ∀ (s : State) (p : Path),
    let k := s.log.path p
    let fits := s.fitsQuota (s.pathHolder p) (shotsTime k.acq (acqShots k.acq))
    ((s.fw.started && (k.configured || s.leewayOn p)) = false → exec (.soundingDue p) s = .next s) ∧
    ((s.fw.started && (k.configured || s.leewayOn p)) = true →
      let drop := k.due || s.leewayFull p || (s.log.cur.map fun x => x.path == p).getD false
      ∃ t, exec (.soundingDue p) s = .next t ∧
        (t.log.path p).lastDue = k.nextDue ∧
        (t.log.path p).nextDue = k.nextDue + (if k.flowing || s.leewayOn p then flowRateInt k.flow else flowIdleInt k.flow) ∧
        (drop = true → t = { s with log := t.log } ∧ t.log.cur = s.log.cur ∧ (t.log.path p).snum = k.snum ∧
          (t.log.path p).due = k.due ∧ (t.log.path p).dueAt = k.dueAt) ∧
        (drop = false → s.isOn .log = false → t.log.cur = s.log.cur ∧ (t.log.path p).due = true ∧
          (t.log.path p).dueAt = k.nextDue ∧ t.dom = (s.bringOn .log).dom) ∧
        (drop = false → s.isOn .log = true → (s.log.rtd.map (·.running)).getD false = true →
          t = { s with log := t.log } ∧ t.log.cur = s.log.cur ∧ (t.log.path p).due = true ∧
          (t.log.path p).delayed = (k.delayed || fits)) ∧
        (drop = false → s.freeSlot = true → s.rtdAged = false → s.delayedReady .a = false → s.delayedReady .b = false →
          k.delayed = false → fits = true → p = .a ∨ s.startable .a = false →
          (t.log.path p).due = false ∧ (t.log.path p).snum = k.snum + 1 ∧
          t.log.cur = some { path := p, cal := if s.leewayOn p then some .leeway else none, delayed := false, snum := k.snum + 1
                             due := k.nextDue, portA := k.portA, portB := k.portB
                             gain := k.gain, acq := k.acq, flow := k.flow, card := k.card, fluid := k.fluid
                             template := k.template, leeway := k.leeway } ∧ t = { s with log := t.log }) ∧
        t.gauge = s.gauge ∧ t.flash = s.flash ∧ t.berths = s.berths ∧ t.line = s.line ∧ t.fw = s.fw) ∧
    ((s.freeSlot && s.delayedReady p && !(p == .b && s.delayedReady .a)) = true →
      ∃ t, exec (.soundingDelayedStart p) s = .next t ∧ t = { s with log := t.log, ev := t.ev, dom := t.dom } ∧
        (t.log.path p).due = false ∧ (t.log.path p).snum = k.snum + 1 ∧ t.ev.raised.getLsbD 70 = true ∧
        t.log.cur.map (fun x => (x.path, x.delayed, x.snum, x.due)) = some (p, true, k.snum + 1, k.dueAt)) ∧
    ((s.freeSlot && s.delayedReady p && !(p == .b && s.delayedReady .a)) = false →
      exec (.soundingDelayedStart p) s = .next s)

/-- R29, R167, R315 to R319, R321, R323, R348: a port rests while LOG is not ON or its pads are held, or while it belongs to no
configured path; the termination values; the order of the shots; which port fires and receives, on which leg and with which
polarity; and the burst: cycles, then braking in antiphase, each edge on the grid point nearest to it, nothing after the last.
(That the grid point is the nearest one, and that a burst which is not inverted starts with UTnP high, are the model's reading,
log 73.) -/
def Sys2Proof.Claims.PortsAndBurstsFollowTheShot : Prop :=
  ∀ (s : State) (x : Sounding) (n : Fin 4) (a : List Byte) (g m : Nat) (inv : Bool),
    (s.isOn .log = false ∨ s.dom.padHeld.getLsbD 2 = true ∨ s.log.portUsed n = false → s.portSt n = .rest) ∧
    (termOhms 0b00, termOhms 0b01, termOhms 0b10, termOhms 0b11) = (some 50, some 200, some 1000, none) ∧
    shotPlan false = [⟨false, false⟩, ⟨true, false⟩] ∧
    shotPlan true = [⟨false, false⟩, ⟨true, false⟩, ⟨true, true⟩, ⟨false, true⟩] ∧
    (x.plan.up = false → x.firing = x.portA ∧ x.receiving = x.portB ∧ x.leg = (if x.plan.swapped then .leg0 else .leg1)) ∧
    (x.plan.up = true → x.firing = x.portB ∧ x.receiving = x.portA ∧ x.leg = (if x.plan.swapped then .leg1 else .leg0)) ∧
    x.inverted = (if x.plan.swapped then !acqPol x.acq else acqPol x.acq) ∧
    (acqFd a ≠ 0 → 2 * ((acqFd a : Int) * halfCycleAt (acqFd a) m - 2048000 * m) ≤ acqFd a ∧
      -(acqFd a : Int) ≤ 2 * ((acqFd a : Int) * halfCycleAt (acqFd a) m - 2048000 * m)) ∧
    driveEnd a = halfCycleAt (acqFd a) (2 * (acqBurst a + acqBrake a)) ∧
    (driveEnd a ≤ g → driveAt a inv g = none) ∧
    (g < driveEnd a → ∃ high, driveAt a inv g = some (high, !high && !acqHalf a) ∧
      driveAt a (!inv) g = some (!high, high && !acqHalf a)) ∧
    (acqBurst a ≠ 0 → 0 < driveEnd a → driveAt a false 0 = some (true, false))

/-- What the end of a shot of the sounding `x` with the result `r` makes of a state (R321, R342, R343, R348 to R350, R353, R366,
R368 to R371): its events, its ports at their termination, and the next shot or the sounding's end, whose interval is credited
with the reported flow, with the held flow, or as missing time; a shot of a learn is counted for the learn. -/
def Sys2Proof.Claims.ShotEnded (s t : State) (x : Sounding) (r : ShotResult) (samples : List (BitVec 14)) : Prop :=
  let k := s.log.path x.path
  let after := t.log.path x.path
  let made : Sounding := { x with shots := x.shots ++ [r], shot := {} }
  let res := soundingResult made.shots
  let found := s.flowOfSounding made res
  let leeway := x.cal = some .leeway
  (r.cause ≠ 0 → t.ev.raised.getLsbD 66 = true) ∧ (r.cause = 1 → t.ev.raised.getLsbD 79 = true) ∧
  (r.cause = 10 → t.ev.raised.getLsbD 68 = true) ∧ (r.multipath = true → t.ev.raised.getLsbD 67 = true) ∧
  (r.noisy = true → t.ev.raised.getLsbD 69 = true) ∧ (∀ n : Fin 4, t.log.ports[n] = s.log.ports[n].settle) ∧
  (x.shots.length + 1 ≠ x.shotsPlanned.length →
    t.log.cur = some made ∧ after.totals = k.totals ∧ after.hold = k.hold ∧
    (r.cause ≠ 0 → x.cal ≠ some .learn → t.log = { s.log with cur := t.log.cur, ports := t.log.ports })) ∧
  (x.cal = some .learn → after.totals = k.totals ∧ after.hold = k.hold ∧ after.tracks = k.tracks ∧
    ∀ c, s.log.cal = some c → c.kind = .learn → c.path = x.path → t.log.cal =
      some { c with made := c.made + 1, learned := if r.cause = 0 then samples :: c.learned else c.learned }) ∧
  (x.shots.length + 1 = x.shotsPlanned.length → t.log.cur ≠ some x ∧
    (x.cal ≠ some .learn → after.lastDtof = res.map (·.2) ∧ after.lastTof = res.map (·.1) ∧
      t.ev.raised.getLsbD (64 + pathNo x.path) = true ∧
      ∀ f, k.missFrom = none → flowHeat k.flow = false → k.tPrev = some f → f.edge < x.firstEdge →
        let n := x.inst.units - f.units
        let lost := k.totals.noFlow n
        (found.cause ≠ 0 → k.hold = .invalid → after.hold = .invalid ∧ after.totals = lost ∧ after.tPrev = some x.inst) ∧
        (found.cause ≠ 0 → k.hold = .normal → k.lastValid.isSome = true → x.firstEdge < k.holdClose.edge →
          t.ev.raised.getLsbD 71 = true ∧ after.hold = .hold ∧ after.lastQ = k.lastQ ∧ after.tPrev = some x.inst ∧
          (leeway → after.totals = lost) ∧ (¬ leeway → after.totals = k.totals.volume k.lastQ n)) ∧
        (found.cause ≠ 0 → k.hold = .hold → x.firstEdge < k.holdClose.edge → after.hold = .hold ∧ after.tPrev = some x.inst ∧
          (leeway → after.totals = lost) ∧ (¬ leeway → after.totals = k.totals.volume k.lastQ n)) ∧
        (found.cause = 0 → k.hold ≠ .hold → after.hold = .normal ∧ after.lastValid = some x.inst ∧ after.tPrev = some x.inst ∧
          (leeway ∨ k.hold = .invalid → after.totals = lost) ∧
          (¬ leeway → k.hold = .normal → after.totals = k.totals.volume after.lastQ n)))) ∧
  t.gauge = s.gauge ∧ t.flash = s.flash ∧ t.fw = { s.fw with recQ := t.fw.recQ } ∧ t.line = s.line ∧ t.cal = s.cal ∧
  t.power = s.power

/-- R78, R84, R108, R331, R333, R334: the engine asks for a quiet window QLEAD before the capture, outside the guard time, and
grants itself one while the link is DOWN. -/
def Sys2Proof.Claims.ShotsAskForQuiet : Prop :=
  ∀ (s : State) (edge : Nat) (lclk : Word),
    (s.log.cur = none → exec (.shotQuietRequest edge lclk) s = .next s) ∧
    (∀ x, s.log.cur = some x →
      let len := quietLength x.acq
      let req : QuietReq := ⟨s.log.quietTag, len⟩
      let mine : Shot := { x.shot with asked := some edge, tag := some s.log.quietTag }
      let asked : State := { s with log := { s.log with cur := some { x with shot := mine }, quietTag := s.log.quietTag + 1 } }
      let open_ (w : CoreWindow) : Prop := s.link.windowLocal = true ∧ edge < w.closeEdge
      ((s.askAt x edge && !s.inGuard lclk 0) = false → exec (.shotQuietRequest edge lclk) s = .next s) ∧
      ((s.askAt x edge && !s.inGuard lclk 0) = true →
        (s.link.state ≠ .down → s.link.downlinkRuns = false → exec (.shotQuietRequest edge lclk) s = .next asked) ∧
        (s.link.state ≠ .down → s.link.downlinkRuns = true → exec (.shotQuietRequest edge lclk) s = .next { asked with
          link := (Link.send { s.link with quietQ := s.link.quietQ ++ [req], quietDue := s.link.quietDue ++ [req] })
          power := { s.power with paused := true } }) ∧
        (s.link.state = .down → (∀ w, s.link.window = some w → ¬ open_ w) → len ≠ 0 →
          exec (.shotQuietRequest edge lclk) s = .next { asked with
            link := { s.link with
              window := some ⟨edge, edge + windowEdges len⟩, windowLocal := true, overrideAt := none }
            power := { s.power with paused := true } }) ∧
        (s.link.state = .down → len = 0 ∨ (∃ w, s.link.window = some w ∧ open_ w) →
          ∃ t, exec (.shotQuietRequest edge lclk) s = .next t ∧ t.link.window = s.link.window ∧
            t.log.cur = some { x with shot := { mine with refused := true } } ∧ t.power = s.power)))

/-- R11, R251, R316, R318, R320 to R323, R329, R334, R350: a shot fires no earlier than SHOT_GAP after the last, with the drive
supply in limits: one port drives and the other receives, the launch conversion is charged, and TIME is that of the CK32 edge
that follows. Otherwise it ends with cause DRIVE, as an over-current of 2.0 A within its burst does. -/
def Sys2Proof.Claims.ShotsFire : Prop :=
  ∀ (s : State) (edge vdrv ma : Nat) (lclk : Word) (launch : Option Nat),
    (s.log.cur = none → ∀ c ∈ [Instr.shotFire edge lclk vdrv launch, .driveOvercurrent edge ma], exec c s = .next s) ∧
    (∀ x, s.log.cur = some x →
      let x' : Sounding := { x with firstStamp := if x.shots.isEmpty then s.nextStamp else x.firstStamp
                                    firstEdge := if x.shots.isEmpty then s.trim.raw + 1 else x.firstEdge
                                    shot := { x.shot with stamp := s.nextStamp, edge := s.trim.raw + 1 } }
      let d : Option Nat := if s.dom.padHeld.getLsbD 2 then none else launch
      let z := acqTermZ x.acq
      let drives (f : Nat) : Prop := 2000 ≤ ma ∧ f ≤ edge ∧ (edge - f) * 64 < driveEnd x.acq ∧ x.shot.capture = none
      ((s.isOn .log && s.fireAt x edge lclk) = false → exec (.shotFire edge lclk vdrv launch) s = .next s) ∧
      ((s.isOn .log && s.fireAt x edge lclk) = true →
        (driveBad s.log.pump vdrv = false → ∃ t, exec (.shotFire edge lclk vdrv launch) s = .next t ∧
          t = { s with log := { s.log with cur := t.log.cur, lastFire := some edge, ports := t.log.ports }, berths := t.berths } ∧
          t.log.cur = some { x' with shot := { x'.shot with fire := some edge, launch := d } } ∧
          t.log.ports[x.receiving] = .receiving x.leg z ∧
          (x.firing ≠ x.receiving → t.log.ports[x.firing] = .driving x.inverted z) ∧
          (∀ n : Fin 4, n ≠ x.firing → n ≠ x.receiving → t.log.ports[n] = s.log.ports[n].settle) ∧
          t.berths.mem = s.berths.mem ∧
          (∀ b : Fin 4, t.berths.blk[b] = { s.berths.blk[b] with logTime := s.berths.blk[b].logTime +
            (if s.pathHolder x.path = some b then d.getD (1048576 * 2000) else 0) })) ∧
        (driveBad s.log.pump vdrv = true → ∃ t, exec (.shotFire edge lclk vdrv launch) s = .next t ∧
          Sys2Proof.Claims.ShotEnded s t x' { x.base with cause := 1 } [])) ∧
      (x.shot.fire = none ∨ (∃ f, x.shot.fire = some f ∧ ¬ drives f) → exec (.driveOvercurrent edge ma) s = .next s) ∧
      (∀ f, x.shot.fire = some f → drives f → ∃ t, exec (.driveOvercurrent edge ma) s = .next t ∧
        Sys2Proof.Claims.ShotEnded s t x { x.base with cause := 1 } []))

/-- R251, R321, R330, R332, R333, R335, R342, R352: DELAY after the fire edge the capture opens inside the core-side window, for
as many whole blocks as fit it; a refused request gives cause 3, no window cause 4, after a launch offset out of range cause
2. At its close the Log time is charged and the shot is judged from its samples. -/
def Sys2Proof.Claims.CapturesOpenAndClose : Prop :=
  ∀ (s : State) (edge : Nat) (samples : List (BitVec 14)),
    (s.log.cur = none → ∀ c ∈ [Instr.captureOpen edge, .captureClose samples], exec c s = .next s) ∧
    (∀ x, s.log.cur = some x →
      (x.shot.fire = none ∨ x.shot.capture.isSome = true → exec (.captureOpen edge) s = .next s) ∧
      (∀ f, x.shot.fire = some f → x.shot.capture = none →
        (edge ≠ f + acqDelay x.acq → exec (.captureOpen edge) s = .next s) ∧
        (edge = f + acqDelay x.acq →
          let within := (s.link.window.map fun w => decide (w.openEdge ≤ edge) && decide (edge < w.closeEdge)).getD false
          (x.shot.refused = false → within = true → ∀ w, s.link.window = some w →
            exec (.captureOpen edge) s = .next { s with log := { s.log with
              ports := s.log.ports.map PortSt.endBurst
              cur := some { x with shot := { x.shot with
                capture := some (edge, min (acqSamples x.acq) ((w.closeEdge - edge) / 64 * 64)) } } } }) ∧
          (x.shot.refused = true ∨ within = false → ∃ t, exec (.captureOpen edge) s = .next t ∧
            Sys2Proof.Claims.ShotEnded s t x
              { x.base with cause := (if badLaunch x.shot.launch then 2 else if x.shot.refused then 3 else 4) } []))) ∧
      (x.shot.capture = none → exec (.captureClose samples) s = .next s) ∧
      (∀ oc, x.shot.capture = some oc →
        (samples.length ≠ oc.2 → exec (.captureClose samples) s = .next s) ∧
        (samples.length = oc.2 → ∃ t, exec (.captureClose samples) s = .next t ∧
          (∀ b : Fin 4, t.berths.blk[b].logTime = s.berths.blk[b].logTime +
            (if s.pathHolder x.path = some b then oc.2 * 2000 else 0)) ∧
          Sys2Proof.Claims.ShotEnded s t x (judgeShot (x.cal == some .learn) x.acq x.template x.plan.swapped (s.trackOf x)
            { x.base with noisy := (s.link.overrideAt.map fun e => decide (e < oc.1 + oc.2)).getD false
                          trunc := oc.2 < acqSamples x.acq } samples) samples)))

/-- Shots ask for quiet, fire and capture; a sounding's end credits its interval. The model's choices that this rests on:
logs 2, 25, 28, 50, 59, 73 and 75. -/
def Obligations.ShotsAndCapturesAreMade : Prop :=
  Sys2Proof.Claims.PortsAndBurstsFollowTheShot ∧
  Sys2Proof.Claims.ShotsAskForQuiet ∧
  Sys2Proof.Claims.ShotsFire ∧
  Sys2Proof.Claims.CapturesOpenAndClose

/-- R358, R364 to R366, R369, R382: the windows of a path end: FLOWING returns to IDLE with EV74, HOLD goes INVALID with EV72, its
history cleared and the held flow credited up to the window's closing, or that time missing in a leeway calibration, and an RTD
set becomes stale. -/
def Sys2Proof.Claims.PathWindowsEnd : Prop :=
  ∀ (s : State) (p : Path),
    let k := s.log.path p
    ((k.flowing && k.quietOpen) = false → exec (.flowQuietExpire p) s = .next s) ∧
    ((k.flowing && k.quietOpen) = true → exec (.flowQuietExpire p) s = .next ((s.onPath p fun _ =>
      { k with
        flowing := false, quietOpen := false, detCount := 0
        nextDue := if s.leewayOn p then k.nextDue else k.lastDue + flowIdleInt k.flow }).raise 74)) ∧
    (k.hold ≠ .hold → exec (.holdExpire p) s = .next s) ∧
    (k.hold = .hold → ∃ t, exec (.holdExpire p) s = .next t ∧ t = { s with log := t.log, ev := t.ev, dom := t.dom } ∧
      t.ev.raised.getLsbD 72 = true ∧ (t.log.path p).hold = .invalid ∧ (t.log.path p).history = [] ∧
      (∀ f, k.tPrev = some f → f.edge < k.holdClose.edge → flowHeat k.flow = false → (t.log.path p).tPrev = some k.holdClose ∧
        (t.log.path p).totals = (if s.leewayOn p then k.totals.noFlow (k.holdClose.units - f.units)
          else k.totals.volume k.lastQ (k.holdClose.units - f.units))) ∧
      (∀ f, k.tPrev = some f → k.holdClose.edge ≤ f.edge → (t.log.path p).totals = k.totals) ∧
      ∀ q, q ≠ p → t.log.path q = s.log.path q) ∧
    exec (.rtdSetStale p) s = .next (s.onPath p fun _ => { k with rtdFresh := false })

/-- R384, R385, R430: every 900 s, and once when a line loss meets a low or invalid gauge state, a totals entry is queued for
each configured path whose right a berth holds, with kinds 0x01 and 0x02, and MEM_M, which holds them, is brought ON; the
power-fail save is then disarmed. -/
def Sys2Proof.Claims.TotalsAreSaved : Prop :=
  ∀ s : State,
    let due := s.fw.started && s.cal.lsec.toNat % 900 == 0
    let fail := s.fw.started && s.fw.pfArmed && s.fw.pfLoss && (!s.gauge.stateValid || decide (1 ≤ s.gauge.dstate))
    let any := s.log.a.configured || s.log.b.configured
    let paths := [Path.a, .b].filter fun p => (s.log.path p).configured && (s.pathHolder p).isSome
    let queued (kind : Byte) (t : State) : Prop :=
      t.dom = (if any then (s.need .memM).dom else s.dom) ∧ t.fw.logQ.take s.fw.logQ.length = s.fw.logQ ∧
      (t.fw.logQ.drop s.fw.logQ.length).map (fun e => (e.kind, e.stamp, some e.berth.toNat, e.data)) = paths.map fun p =>
        (kind, s.cal.stamp, (s.pathHolder p).map (·.val),
          totalsData p (s.log.path p) (((s.pathHolder p).map fun b => s.berths.blk[b].sealed).getD false))
    (due = false → exec .totalsPeriodicSave s = .next s) ∧ (fail = false → exec .powerfailSave s = .next s) ∧
    (due = true → ∃ t, exec .totalsPeriodicSave s = .next t ∧
      t = { s with dom := t.dom, fw := { s.fw with logQ := t.fw.logQ } } ∧ queued 0x01 t) ∧
    (fail = true → ∃ t, exec .powerfailSave s = .next t ∧
      t = { s with dom := t.dom, fw := { s.fw with logQ := t.fw.logQ, pfArmed := false, pfLoss := false } } ∧ queued 0x02 t)

/-- FLOWING, HOLD and RTD windows end, and totals are saved. The model's choices that this rests on: logs 2 and 57. -/
def Obligations.PathWindowsEndAndTotalsAreSaved : Prop :=
  Sys2Proof.Claims.PathWindowsEnd ∧
  Sys2Proof.Claims.TotalsAreSaved

/-- R297, R343, R344, R365: an arrival learn all of whose shots are made, with enough good ones of close D_env, stores the template
formed from their captures, and a leeway calibration with enough valid soundings of close DTOF its mean as LEEWAY, both in the
store as well; one that is rejected stores nothing. CAL_RESULT has the outcome of either, and a leeway calibration raises EV77.
The model's choices that this rests on: logs 2 and 49. -/
def Obligations.CalibrationsEnd : Prop :=
  ∀ s : State,
    (s.log.cal = none → ∀ c ∈ [Instr.arrivalLearnDone, .leewayCalDone], exec c s = .next s) ∧
    (∀ c, s.log.cal = some c →
      let k := s.log.path c.path
      (c.kind = .leeway ∨ c.made ≠ 2 * acqLearnShots k.acq → exec .arrivalLearnDone s = .next s) ∧
      (c.kind = .learn → c.made = 2 * acqLearnShots k.acq →
        let found := learnTemplate k.acq c.learned.reverse
        let ds := (found.map (·.2)).getD []
        let bad := learnRejected k.acq c.made c.learned.length ds
        ∃ t, exec .arrivalLearnDone s = .next t ∧
          t = { s with log := t.log, fw := t.fw } ∧ t.log.cal = none ∧
          (t.log.path c.path).lastCal = some ⟨.learn, !bad, (found.map (·.2.length)).getD c.learned.length,
            (found.map (·.1.dEnv)).getD 0⟩ ∧
          (bad = true ∨ found = none → (t.log.path c.path).template = k.template ∧ t.fw = s.fw) ∧
          (∀ y, found = some y → bad = false → (t.log.path c.path).template = some y.1 ∧
            t.fw.storeQ.length = s.fw.storeQ.length + 1) ∧
          (t.log.path c.path).totals = k.totals ∧
          ∀ q, q ≠ c.path → (t.log.path q).template = (s.log.path q).template ∧ (t.log.path q).leeway = (s.log.path q).leeway) ∧
      ((s.leewayFull c.path && s.log.cur.isNone) = false → exec .leewayCalDone s = .next s) ∧
      ((s.leewayFull c.path && s.log.cur.isNone) = true →
        let bad := leewayRejected (flowLeewayN k.flow) c.dtofs
        let mean := ((leewayStats c.dtofs).1.map roundRat).getD 0
        ∃ t, exec .leewayCalDone s = .next t ∧ t.ev.raised.getLsbD 77 = true ∧ t.log.cal = none ∧
          (t.log.path c.path).lastCal = some ⟨.leeway, !bad, c.dtofs.length, mean⟩ ∧
          (bad = true → (t.log.path c.path).leeway = k.leeway ∧ t.fw.storeQ = s.fw.storeQ) ∧
          (bad = false → (t.log.path c.path).leeway = mean ∧ t.fw.storeQ.length = s.fw.storeQ.length + 1) ∧
          t.flash = s.flash ∧ t.gauge = s.gauge ∧ t.line = s.line ∧ (t.log.path c.path).totals = k.totals))

/-- R9, R251, R372, R373, R375, R382: a set falls due with a TREF conversion before and after those of the enabled inputs; each
starts in a free slot that no sounding takes and ends with its time, if its discharge ends before the closing of the 900 µs, or
without one at it; the last one completes the set: its number, a result per enabled input, EV75, EV76 for a fault, and a fresh
window. The model's choices that this rests on: logs 2, 29 and 49. -/
def Obligations.RtdSetsRun : Prop :=
  ∀ (s : State) (time : Nat),
    let ins := rtdInputs s.log.rtdBlk
    ((s.fw.started && !ins.isEmpty && s.log.rtd.isNone) = false → exec .rtdSetDue s = .next s) ∧
    ((s.fw.started && !ins.isEmpty && s.log.rtd.isNone) = true → ∃ t, exec .rtdSetDue s = .next t ∧
      t.log = { s.log with rtd := some { blk := s.log.rtdBlk, left := 4 :: ins.map Fin.castSucc ++ [4], since := s.trim.raw } } ∧
      (s.isOn .log = true → t.dom = s.dom) ∧ (s.isOn .log = false → t.dom = (s.bringOn .log).dom) ∧
      t.berths = s.berths ∧ t.flash = s.flash ∧ t.fw = s.fw) ∧
    (s.log.rtd = none → ∀ c ∈ [Instr.rtdConversionStart, .rtdConversionDone time, .rtdDischargeTimeout], exec c s = .next s) ∧
    (∀ r, s.log.rtd = some r →
      (r.left = [] → ∀ c ∈ [Instr.rtdConversionStart, .rtdConversionDone time, .rtdDischargeTimeout], exec c s = .next s) ∧
      (∀ c rest, r.left = c :: rest →
        let may := s.freeSlot && !s.delayedReady .a && !s.delayedReady .b &&
          (s.rtdAged || !(s.startable .a || s.startable .b || s.learnReady.isSome)) &&
          s.fitsQuota (s.rtdHolder r.blk c) 153600000
        let charged (t : State) (n : Nat) : Prop := ∀ b : Fin 4, t.berths.blk[b].logTime = s.berths.blk[b].logTime +
          (if s.rtdHolder r.blk c = some b then n else 0)
        (may = false → exec .rtdConversionStart s = .next s) ∧
        (may = true → ∃ t, exec .rtdConversionStart s = .next t ∧ t = { s with log := t.log } ∧
          t.log.rtd = some { r with running := true } ∧ t.log.cur = none ∧
          ∀ p, (t.log.path p).delayed = ((s.log.path p).delayed || s.startable p)) ∧
        (r.running = false ∨ 115200000 ≤ time → exec (.rtdConversionDone time) s = .next s) ∧
        (r.running = false → exec .rtdDischargeTimeout s = .next s) ∧
        (r.running = true → time < 115200000 → ∃ t, exec (.rtdConversionDone time) s = .next t ∧
          charged t (38400000 + time) ∧
          (rest ≠ [] → t.log.rtd = some { r with
            left := rest, done := r.done ++ [(c, some time)], running := false, since := s.trim.raw } ∧
            t.log.rtdLast = s.log.rtdLast) ∧
          (rest = [] → t.log.rtd = none ∧ t.log.rtdSetNo = s.log.rtdSetNo + 1 ∧ t.ev.raised.getLsbD 75 = true ∧
            t.log.a.rtdFresh = true ∧ t.log.b.rtdFresh = true ∧ t.log.rtdLast.map (·.1) = rtdInputs r.blk ∧
            ((∃ x ∈ t.log.rtdLast, x.2.cause ≠ 0) → t.ev.raised.getLsbD 76 = true)) ∧
          t.flash = s.flash ∧ t.gauge = s.gauge ∧ t.fw = { s.fw with recQ := t.fw.recQ } ∧ t.line = s.line) ∧
        (r.running = true → ∃ t, exec .rtdDischargeTimeout s = .next t ∧ charged t 153600000 ∧
          (rest ≠ [] → t.log.rtd = some { r with
            left := rest, done := r.done ++ [(c, none)], running := false, since := s.trim.raw }) ∧
          (rest = [] → t.log.rtd = none ∧ t.log.rtdSetNo = s.log.rtdSetNo + 1 ∧
            ∀ x ∈ t.log.rtdLast, (List.find? (fun d => d.1 == x.1.castSucc) (r.done ++ [(c, none)])).bind (·.2) = none →
              x.2.temp = none ∧ (x.2.cause = 1 ∨ x.2.cause = 4)))))

/-! ## The gauge -/

/-- R397, R399, R400, R406, R409: a conversion end adds the result, held to ±100 mV, to ACC, held to 48 bits; CONV_CNT
counts it, OVR tells of either limit, and with STATE_VALID at 1 SOC is reckoned from the anchor. A quiet conversion keeps
the rest window, another one ends it and opens a PENDING learn. With GAUGE OFF there is none. The model's choices that this
rests on: logs 2 and 30. -/
def Obligations.ConversionsAccumulate : Prop :=
  ∀ (s : State) (i : Int),
    (s.dom.gauge.st = .off ∨ s.bin.held = true → exec (.gaugeConversionEnd i) s = .next s) ∧
    (s.dom.gauge.st ≠ .off → s.bin.held = false → ∃ t, exec (.gaugeConversionEnd i) s = .next t ∧
      let r := max (-200000000) (min 200000000 i)
      let quiet := decide (r.natAbs * 5 < gIRest s.gauge.cfg * gShunt s.gauge.cfg) &&
        !(s.power.chg == .pre || s.power.chg == .cc || s.power.chg == .cv)
      t.gauge.iLast = r ∧ t.gauge.acc = max (-2 ^ 47) (min (2 ^ 47 - 1) (s.gauge.acc + r)) ∧
      t.gauge.convCnt = s.gauge.convCnt + 1 ∧
      (t.gauge.ovr = true ↔ s.gauge.ovr = true ∨ i < -200000000 ∨ 200000000 < i ∨ t.gauge.acc = -2 ^ 47 ∨
        t.gauge.acc = 2 ^ 47 - 1) ∧
      (s.gauge.stateValid = true → t.gauge.soc = (s.gauge.socA.toNat : Int) +
        divRound (t.gauge.acc - s.gauge.accA) (max 1 s.gauge.socK.toNat)) ∧
      (s.gauge.stateValid = false → t.gauge.soc = s.gauge.soc) ∧
      (quiet = true → t.gauge.lastQuiet = some true ∧
        (s.gauge.lastQuiet ≠ some true ∨ s.gauge.afterFix = true →
          t.gauge.restOpen = some t.gauge.convCnt.toNat ∧ t.gauge.restTime = 0) ∧
        (s.gauge.lastQuiet = some true → s.gauge.afterFix = false → t.gauge.restOpen = s.gauge.restOpen ∧
          ∀ o, s.gauge.restOpen = some o → t.gauge.restTime = BitVec.ofNat 16 (min 65535 (t.gauge.convCnt.toNat - o)))) ∧
      (quiet = false → t.gauge.lastQuiet = some false ∧ t.gauge.restOpen = none ∧ t.gauge.restTime = 0 ∧
        (s.gauge.learn = .pending → learnTempBad s.gauge.fixTemp = false → s.cal.onLrc = false →
          r = i → t.gauge.acc ≠ -2 ^ 47 → t.gauge.acc ≠ 2 ^ 47 - 1 → t.gauge.learn = .opened ∧
          t.gauge.openConv = t.gauge.convCnt.toNat)) ∧
      (s.gauge.learn = .opened → s.cal.onLrc = true → t.gauge.learn = .none ∧ t.gauge.lastDisq = 10 ∧
        t.ev.raised.getLsbD 84 = true) ∧
      t.gauge.restMet = s.gauge.restMet ∧ t.gauge.cfg = s.gauge.cfg ∧ t.gauge.socA = s.gauge.socA ∧ t.gauge.accA = s.gauge.accA ∧
      t.gauge.qFull = s.gauge.qFull ∧ t.gauge.vcell = s.gauge.vcell ∧
      t.line = s.line ∧ t.power = s.power ∧ t.flash = s.flash ∧ t.log = s.log ∧ t.fw = { s.fw with recQ := t.fw.recQ } ∧
      t.cal = s.cal ∧ t.tw = s.tw)

/-- R106, R402, R404, R413, R422: a telemetry reading, while GAUGE is ON and telemetry or charging asks for it, gives VCELL of one
cell and the pack temperature, the latest TS result, whose charge zone is entered at once while PWR is ON; a level whose voltage
threshold it meets is entered with its event. -/
def Sys2Proof.Claims.TelemetryReadsThePack : Prop :=
  ∀ (s : State) (bsns : BitVec 14) (rts : Nat),
    ((s.isOn .gauge && (gTlmInt s.gauge.cfg != 0 || s.power.chgEn)) = false → exec (.gaugeTelemetry bsns rts) s = .next s) ∧
    ((s.isOn .gauge && (gTlmInt s.gauge.cfg != 0 || s.power.chgEn)) = true →
      ∃ t, exec (.gaugeTelemetry bsns rts) s = .next t ∧
        t.gauge.vcell = BitVec.ofNat 16 (divRound ((180000 * bsns.toNat : Nat) : Int) (16384 * max 1 (gCells s.gauge.cfg))).toNat ∧
        (t.gauge.tpack, t.gauge.tsOpen, t.gauge.tsShort) = tsReading (gNtcB s.gauge.cfg) rts ∧
        (500000 < rts → t.gauge.tpack = -500 ∧ t.gauge.tsOpen = true) ∧
        (rts < 100 → t.gauge.tpack = 1500 ∧ t.gauge.tsShort = true) ∧
        (∀ k : Fin 3, s.gauge.levels.getLsbD k.val = false → t.gauge.vcell.toNat ≤ 10 * gLevelV s.gauge.cfg k.val →
          t.ev.raised.getLsbD (85 + k.val) = true) ∧
        t.power = { s.power with
          tsAt := some s.trim.raw, tsTemp := t.gauge.tpack
          zone := if s.isOn .pwr then zoneOf s.power.zone t.gauge.tpack else s.power.zone } ∧
        (t.power.zone ≠ s.power.zone → t.ev.raised.getLsbD 11 = true) ∧
        t.gauge.acc = s.gauge.acc ∧ t.gauge.soc = s.gauge.soc ∧ t.gauge.convCnt = s.gauge.convCnt ∧ t.gauge.cfg = s.gauge.cfg ∧
        t.line = s.line ∧ t.flash = s.flash ∧ t.log = s.log ∧ t.fw = { s.fw with recQ := t.fw.recQ } ∧ t.cal = s.cal)

/-- R405 to R411: a rest window that has lasted T_REST sets REST_MET and keeps ACC; the fix that follows takes one reading
of 16 results, ends the rest, and, where a segment of the profile is steep enough or the voltage lies outside it, writes the
anchor with EV82. A learn open for LEARN_MAX ends with cause AGE and EV84. -/
def Sys2Proof.Claims.RestsFixesAndLearnAge : Prop :=
  ∀ (s : State) (bsns : List (BitVec 14)) (rts : Nat),
    let ready := s.gaugeRuns && s.gauge.lastQuiet == some true &&
      (s.gauge.restOpen.map fun o => decide (gTRest s.gauge.cfg ≤ s.gauge.convCnt.toNat - o)).getD false
    (ready = false → exec .restWindowComplete s = .next s) ∧
    (ready = true → exec .restWindowComplete s =
      .next { s with gauge := { s.gauge with restMet := true, restOpen := none, restAcc := s.gauge.acc } }) ∧
    ((s.fw.started && s.isOn .gauge && s.gauge.restMet && bsns.length == 16) = false →
      exec (.fixAttempt bsns rts) s = .next s) ∧
    ((s.fw.started && s.isOn .gauge && s.gauge.restMet && bsns.length == 16) = true →
      ∃ t, exec (.fixAttempt bsns rts) s = .next t ∧ t.gauge.restMet = false ∧ t.gauge.restOpen = none ∧
        t.gauge.restTime = 0 ∧ t.gauge.afterFix = true ∧
        t.gauge.vcell = BitVec.ofNat 16 (divRound ((180000 * (bsns.map BitVec.toNat).sum : Nat) : Int)
          (16384 * 16 * max 1 (gCells s.gauge.cfg))).toNat ∧
        (t.gauge.tpack, t.gauge.tsOpen, t.gauge.tsShort) = tsReading (gNtcB s.gauge.cfg) rts ∧
        (t.gauge.tsOpen = true ∨ t.gauge.tsShort = true ∨ t.gauge.tpack < -200 ∨ 600 < t.gauge.tpack ∨ s.gauge.profile = none →
          t.gauge.socA = s.gauge.socA ∧ t.gauge.accA = s.gauge.accA ∧ t.gauge.stateValid = s.gauge.stateValid ∧
          t.gauge.soc = s.gauge.soc ∧ t.gauge.qFull = s.gauge.qFull) ∧
        (t.gauge.tsOpen = false → t.gauge.tsShort = false → -200 ≤ t.gauge.tpack → t.gauge.tpack ≤ 600 →
          ∀ p, s.gauge.profile = some p →
            let v : Int := 1000 * t.gauge.vcell.toNat
            let applied (soc : Int) : Prop := t.gauge.socA = BitVec.ofInt 16 soc ∧ t.gauge.accA = s.gauge.restAcc ∧
              t.gauge.stateValid = true ∧ t.gauge.restored = false ∧ t.ev.raised.getLsbD 82 = true ∧
              t.gauge.fixSoc = t.gauge.socA
            (segment p t.gauge.tpack v = none → applied (if v < profileAt p t.gauge.tpack 0 then 0 else 10000)) ∧
            ∀ x, segment p t.gauge.tpack v = some x →
              let lo := x.2.1
              let hi := x.2.2
              (1000 * (gFlatMin s.gauge.cfg : Int) ≤ hi - lo → lo < hi →
                applied (roundRat (625 / 2 * ((x.1 : Rat) + mkRat (v - lo) (hi - lo).toNat)))) ∧
              (hi - lo < 1000 * gFlatMin s.gauge.cfg → t.gauge.socA = s.gauge.socA ∧ t.gauge.accA = s.gauge.accA)) ∧
        (t.gauge.qFull ≠ s.gauge.qFull → s.gauge.learn = .opened ∧ t.gauge.learnCnt = s.gauge.learnCnt + 1 ∧
          t.ev.raised.getLsbD 83 = true) ∧
        (s.gauge.learn = .opened → t.gauge.learn = .opened ∨ t.ev.raised.getLsbD 83 = true ∨ t.ev.raised.getLsbD 84 = true) ∧
        t.gauge.acc = s.gauge.acc ∧ t.gauge.convCnt = s.gauge.convCnt ∧ t.gauge.cfg = s.gauge.cfg ∧
        t.line = s.line ∧ t.power = s.power ∧ t.flash = s.flash ∧ t.log = s.log ∧ t.fw = { s.fw with recQ := t.fw.recQ }) ∧
    (s.gauge.learn ≠ .opened ∨ s.gauge.convCnt.toNat - s.gauge.openConv < gLearnMax s.gauge.cfg →
      exec .learnAgeExpire s = .next s) ∧
    (s.gauge.learn = .opened → gLearnMax s.gauge.cfg ≤ s.gauge.convCnt.toNat - s.gauge.openConv →
      ∃ t, exec .learnAgeExpire s = .next t ∧ t.gauge = { s.gauge with learn := .none, lastDisq := 9 } ∧
        t.ev.raised.getLsbD 84 = true ∧ t.line = s.line ∧ t.power = s.power ∧ t.flash = s.flash ∧ t.log = s.log)

/-- Telemetry reads the pack; rests end in fixes, and an old learn ends. The model's choices that this rests on: logs 2 and
30. -/
def Obligations.ReadingsRestsAndFixes : Prop :=
  Sys2Proof.Claims.TelemetryReadsThePack ∧
  Sys2Proof.Claims.RestsFixesAndLearnAge

/-! ## The mailbox commands -/

/-- The berth's entry of the active charter lacks a right (R249, R250). -/
def Sys2Proof.Claims.without (k : Nat) (b : Fin 4) (_ : Request) (s : State) : Bool := !s.fw.charter.entries[b].rights.getLsbD k

/-- No request is refused on this ground. -/
def Sys2Proof.Claims.never (_ : Fin 4) (_ : Request) (_ : State) : Bool := false

/-- What a command does for the berth whose request it serves (R250, R273): DENIED without its right, SEALED on a sealed item,
BAD_LEN with a payload of another length than `lo` to `hi`, all changing nothing else; past these, `P` of the request and the
state, which says what the command then answers. -/
def Sys2Proof.Claims.Served (c : Fin 4 → Instr) (cmd : Half) (denied sealed_ : Fin 4 → Request → State → Bool) (lo hi : Nat)
    (P : Fin 4 → Request → State → Prop) : Prop :=
  ∀ (b : Fin 4) (s : State) (rq : Request), s.InHand b cmd rq →
    (denied b rq s = true → exec (c b) s = .next (s.answer b .denied [])) ∧
    (denied b rq s = false → sealed_ b rq s = true → exec (c b) s = .next (s.answer b .sealed [])) ∧
    (denied b rq s = false → sealed_ b rq s = false → rq.payload.length < lo ∨ hi < rq.payload.length →
      exec (c b) s = .next (s.answer b .badLen [])) ∧
    (denied b rq s = false → sealed_ b rq s = false → lo ≤ rq.payload.length → rq.payload.length ≤ hi → P b rq s)

/-- R427, R433, R441, R444, R447 to R449, R456: the commands that are open and take no payload answer OK with what they
read. -/
def Sys2Proof.Claims.OpenReadsAnswer : Prop :=
  Sys2Proof.Claims.Served .nop 0x0100 Sys2Proof.Claims.never Sys2Proof.Claims.never 0 0 (fun b _ s =>
    exec (.nop b) s = .next (s.answer b .ok [])) ∧
  Sys2Proof.Claims.Served .version 0x0101 Sys2Proof.Claims.never Sys2Proof.Claims.never 0 0 (fun b _ s =>
    let k := if s.flash.activeB then s.flash.bankB else s.flash.bankA
    exec (.version b) s = .next (s.answer b .ok (slice k.release 0 4 ++ leBytes 2 k.secVer.toNat ++
      [if s.flash.activeB then 1 else 0, if s.fw.probation then 1 else 0, 0x20, 0x46, 0xB1]))) ∧
  Sys2Proof.Claims.Served .status 0x0102 Sys2Proof.Claims.never Sys2Proof.Claims.never 0 0 (fun b _ s =>
    exec (.status b) s = .next (s.answer b .ok ([BitVec.ofNat 8 b.val] ++ leBytes 4 s.flash.auditCtr.toNat ++
      leBytes 4 s.fw.charter.serial.toNat ++ leBytes 4 ((s.fw.committed.map (·.serial.toNat)).getD 0) ++
      [byteOf ((List.finRange 4).map fun n => s.fw.charter.entries[n].sealed)] ++
      leBytes 2 s.fw.charter.entries[b].rights.toNat ++ [s.dom.rstCause.setWidth 8, if s.fw.isDefault then 1 else 0]))) ∧
  Sys2Proof.Claims.Served .routeGet 0x0105 Sys2Proof.Claims.never Sys2Proof.Claims.never 0 0 (fun b _ s =>
    exec (.routeGet b) s = .next (s.answer b .ok (((List.range 12).map fun k => byteOf ((List.range 8).map fun j =>
      (s.ev.route.toList.getD (8 * k + j) 0).getLsbD b.val)) ++ [BitVec.ofNat 8 (s.ev.irqSel.toNat / 4 ^ b.val % 4)]))) ∧
  Sys2Proof.Claims.Served .policyGet 0x0303 Sys2Proof.Claims.never Sys2Proof.Claims.never 0 0 (fun b _ s =>
    let holds := s.berths.blk[0].holdOn ||| s.berths.blk[1].holdOn ||| s.berths.blk[2].holdOn ||| s.berths.blk[3].holdOn
    exec (.policyGet b) s = .next (s.answer b .ok (leBytes 2 s.dom.pdLow.toNat ++ s.dom.idle.toList ++ [holds.setWidth 8] ++
      leBytes 2 (s.dom.wakeEn.toNat % 0x1000) ++ leBytes 12 s.ev.wakeEn.toNat ++ [byteOf [s.ev.irqModeA, s.ev.irqModeB]]))) ∧
  Sys2Proof.Claims.Served .trimGet 0x0403 Sys2Proof.Claims.never Sys2Proof.Claims.never 0 0 (fun b _ s =>
    exec (.trimGet b) s = .next (s.answer b .ok (slice s.fw.trimPolicy 0 3))) ∧
  Sys2Proof.Claims.Served .gaugeCfgRead 0x0501 Sys2Proof.Claims.never Sys2Proof.Claims.never 0 0 (fun b _ s =>
    (s.dom.gauge.st = .off → exec (.gaugeCfgRead b) s = .next (s.answer b .notReady [])) ∧
    (s.dom.gauge.st ≠ .off → exec (.gaugeCfgRead b) s = .next (s.answer b .ok (slice s.gauge.cfg 0 32)))) ∧
  Sys2Proof.Claims.Served .rtdRead 0x0605 Sys2Proof.Claims.never Sys2Proof.Claims.never 0 0 (fun b _ s =>
    exec (.rtdRead b) s = .next (s.answer b .ok (slice s.log.rtdBlk 0 16))) ∧
  Sys2Proof.Claims.Served .fwInfo 0x0804 Sys2Proof.Claims.never Sys2Proof.Claims.never 0 0 (fun b _ s =>
    let bank (k : Bank) : List Byte := [if k.valid then 1 else 0] ++ slice k.release 0 4 ++ leBytes 2 k.secVer.toNat
    exec (.fwInfo b) s = .next (s.answer b .ok ([if s.flash.activeB then 1 else 0] ++ bank s.flash.bankA ++
      bank s.flash.bankB ++ leBytes 2 s.flash.topSecVer.toNat)))

/-- R427, R430, R448: the commands that read one path answer OK with it, TOTALS_READ with MEM_M brought ON; a path byte
above 1 is BAD_PARAM with offset 0. -/
def Sys2Proof.Claims.PathReadsAnswer : Prop :=
  Sys2Proof.Claims.Served .acqRead 0x0601 Sys2Proof.Claims.never Sys2Proof.Claims.never 1 1 (fun b rq s =>
    (1 < (rq.payload.getD 0 0).toNat → exec (.acqRead b) s = .next (s.answer b .badParam [0])) ∧
    ∀ x : Path, (rq.payload.getD 0 0).toNat = pathNo x → exec (.acqRead b) s = .next (s.answer b .ok
      (slice (s.log.path x).acq 0 32 ++
        [BitVec.ofNat 8 (s.log.path x).portA.val, BitVec.ofNat 8 (s.log.path x).portB.val]))) ∧
  Sys2Proof.Claims.Served .flowRead 0x0603 Sys2Proof.Claims.never Sys2Proof.Claims.never 1 1 (fun b rq s =>
    (1 < (rq.payload.getD 0 0).toNat → exec (.flowRead b) s = .next (s.answer b .badParam [0])) ∧
    ∀ x : Path, (rq.payload.getD 0 0).toNat = pathNo x → exec (.flowRead b) s = .next (s.answer b .ok
      (slice (s.log.path x).flow 0 32 ++ sleBytes 4 (s.log.path x).leeway ++ slice (s.log.path x).flow 36 12))) ∧
  Sys2Proof.Claims.Served .cardRead 0x0607 Sys2Proof.Claims.never Sys2Proof.Claims.never 1 1 (fun b rq s =>
    (1 < (rq.payload.getD 0 0).toNat → exec (.cardRead b) s = .next (s.answer b .badParam [0])) ∧
    ∀ x : Path, (rq.payload.getD 0 0).toNat = pathNo x →
      exec (.cardRead b) s = .next (s.answer b .ok (slice (s.log.path x).card 0 72))) ∧
  Sys2Proof.Claims.Served .fluidRead 0x0609 Sys2Proof.Claims.never Sys2Proof.Claims.never 1 1 (fun b rq s =>
    (1 < (rq.payload.getD 0 0).toNat → exec (.fluidRead b) s = .next (s.answer b .badParam [0])) ∧
    ∀ x : Path, (rq.payload.getD 0 0).toNat = pathNo x →
      exec (.fluidRead b) s = .next (s.answer b .ok (slice (s.log.path x).fluid 0 52))) ∧
  Sys2Proof.Claims.Served .totalsRead 0x060E Sys2Proof.Claims.never Sys2Proof.Claims.never 1 1 (fun b rq s =>
    (1 < (rq.payload.getD 0 0).toNat → exec (.totalsRead b) s = .next (s.answer b .badParam [0])) ∧
    ∀ x : Path, (rq.payload.getD 0 0).toNat = pathNo x →
      let t := (s.log.path x).totals
      exec (.totalsRead b) s = .next ((s.need .memM).answer b .ok (leBytes 8 t.volFwd.val ++ leBytes 8 t.volRev.val ++
        leBytes 8 t.eHeat.val ++ leBytes 8 t.eCool.val ++ leBytes 4 t.missFlow.val ++
        leBytes 4 t.missHeat.val ++ leBytes 8 s.cal.stamp.toNat)))

/-- The commands that only read answer what their tables say. The model's choices that this rests on: logs 56 and 76. -/
def Obligations.ReadsAnswer : Prop :=
  Sys2Proof.Claims.OpenReadsAnswer ∧
  Sys2Proof.Claims.PathReadsAnswer

/-- R384, R430, R434 to R436, R488: ROUTE_SET writes the requester's bit of every routable event and its IRQ_SEL field and
nothing of another berth's; LOG_READ answers entries from an ESEQ that the berth may read; RESET queues the totals entries,
answers once they are durable, and schedules the reset. -/
def Sys2Proof.Claims.RoutingLogbookAndReset : Prop :=
  Sys2Proof.Claims.Served .routeSet 0x0104 Sys2Proof.Claims.never Sys2Proof.Claims.never 13 13 (fun b rq s =>
    (3 < (rq.payload.getD 12 0).toNat → exec (.routeSet b) s = .next (s.answer b .badParam [12])) ∧
    ((rq.payload.getD 12 0).toNat ≤ 3 → ∃ t, exec (.routeSet b) s = .next t ∧ t.berths.blk[b].cur = none ∧
      (∀ e : Fin 96, (48 ≤ e.val ∧ e.val < 64 → t.ev.route[e] = s.ev.route[e]) ∧
        (e.val < 48 ∨ 64 ≤ e.val → ∀ n : Fin 4, t.ev.route[e].getLsbD n.val =
          if n = b then (rq.payload.getD (e.val / 8) 0).getLsbD (e.val % 8) else s.ev.route[e].getLsbD n.val)) ∧
      (∀ n : Fin 4, t.ev.irqSel.toNat / 4 ^ n.val % 4 =
        if n = b then (rq.payload.getD 12 0).toNat % 4 else s.ev.irqSel.toNat / 4 ^ n.val % 4) ∧
      t.flash = s.flash ∧ t.line = s.line ∧ t.log = s.log ∧ t.gauge = s.gauge ∧ t.ev.pend = s.ev.pend ∧
      (s.isOn .hif = true → t.dom.hif = s.dom.hif))) ∧
  Sys2Proof.Claims.Served .logRead 0x0106 Sys2Proof.Claims.never Sys2Proof.Claims.never 5 5 (fun b rq s =>
    let n := (rq.payload.getD 4 0).toNat
    let es := (s.flash.logbook.filter fun e => decide (leAt rq.payload 0 4 ≤ e.eseq.toNat) &&
      (!(e.kind == 1 || e.kind == 2) || e.berth.toNat == b.val)).take n
    (n = 0 ∨ 3 < n → exec (.logRead b) s = .next (s.answer b .badParam [4])) ∧
    (1 ≤ n → n ≤ 3 → exec (.logRead b) s =
      .next (s.answer b .ok ([BitVec.ofNat 8 es.length, 0, 0] ++ es.flatMap LogEntry.bytes)))) ∧
  Sys2Proof.Claims.Served .reset 0x0103 (Sys2Proof.Claims.without 13) Sys2Proof.Claims.never 1 1 (fun b rq s =>
    (rq.payload ≠ [0xA5] → exec (.reset b) s = .next (s.answer b .badParam [0])) ∧
    (rq.payload = [0xA5] → ∃ t, exec (.reset b) s = .next t ∧
      t.fw.logQ.take s.fw.logQ.length = s.fw.logQ ∧
      ((t.fw.logQ.any fun e => e.kind == 1 || e.kind == 2) = true → t.fw.resetDue = s.fw.resetDue ∧ t.fw.resetWait = some b ∧
        t.berths.blk[b].cur = some { rq with waiting := true }) ∧
      ((t.fw.logQ.any fun e => e.kind == 1 || e.kind == 2) = false → t.fw.resetDue = true ∧ t.fw.resetWait = none ∧
        t.berths.blk[b].cur = none) ∧
      t.flash = s.flash ∧ t.line = s.line ∧ t.log = s.log ∧ t.gauge = s.gauge ∧ t.cal = s.cal ∧ t.power = s.power))

/-- R430, R441, R442: PD_POLICY sets PD_LOW, the idle times and the requester's HOLD_ON mask, whose domains are brought ON;
WAKE_POLICY sets WAKE_EN bits 11:0, EV_WAKE_EN and IRQ_MODE. A reserved bit is BAD_PARAM with its byte. -/
def Sys2Proof.Claims.PoliciesAreSet : Prop :=
  Sys2Proof.Claims.Served .pdPolicy 0x0300 (Sys2Proof.Claims.without 13) Sys2Proof.Claims.never 9 9 (fun b rq s =>
    let p := rq.payload
    let bad0 := p.getD 0 0 &&& 0xAA != 0
    let bad1 := p.getD 1 0 &&& 0xFA != 0
    let bad8 := p.getD 8 0 &&& 0xF8 != 0
    (bad0 = true → exec (.pdPolicy b) s = .next (s.answer b .badParam [0])) ∧
    (bad0 = false → bad1 = true → exec (.pdPolicy b) s = .next (s.answer b .badParam [1])) ∧
    (bad0 = false → bad1 = false → bad8 = true → exec (.pdPolicy b) s = .next (s.answer b .badParam [8])) ∧
    (bad0 = false → bad1 = false → bad8 = false → ∃ t, exec (.pdPolicy b) s = .next t ∧
      t.dom.pdLow = BitVec.ofNat 12 (leAt p 0 2) ∧ (∀ k : Fin 6, t.dom.idle[k] = p.getD (2 + k.val) 0) ∧
      (∀ n : Fin 4, t.berths.blk[n].holdOn = if n = b then (p.getD 8 0).setWidth 3 else s.berths.blk[n].holdOn) ∧
      t.berths.blk[b].cur = none ∧
      ((p.getD 8 0).getLsbD 0 = false ∨ s.isOn .memM = true → t.dom.memM = s.dom.memM) ∧
      ((p.getD 8 0).getLsbD 0 = true → s.powered = true → s.dom.memM.st = .off → t.dom.memM.st = .leaving .off) ∧
      ((p.getD 8 0).getLsbD 1 = true → s.powered = true → s.dom.gauge.st = .off → t.dom.gauge.st = .leaving .off) ∧
      ((p.getD 8 0).getLsbD 2 = true → s.powered = true → s.dom.pwr.st = .off → t.dom.pwr.st = .leaving .off) ∧
      t.dom.wakeEn = s.dom.wakeEn ∧ t.flash = s.flash ∧ t.log = s.log ∧ t.gauge = s.gauge ∧ t.fw = s.fw)) ∧
  Sys2Proof.Claims.Served .wakePolicy 0x0301 (Sys2Proof.Claims.without 13) Sys2Proof.Claims.never 15 15 (fun b rq s =>
    let p := rq.payload
    (p.getD 1 0 &&& 0xF0 ≠ 0 → exec (.wakePolicy b) s = .next (s.answer b .badParam [1])) ∧
    (p.getD 1 0 &&& 0xF0 = 0 → p.getD 14 0 &&& 0xFC ≠ 0 → exec (.wakePolicy b) s = .next (s.answer b .badParam [14])) ∧
    (p.getD 1 0 &&& 0xF0 = 0 → p.getD 14 0 &&& 0xFC = 0 → ∃ t, exec (.wakePolicy b) s = .next t ∧
      t.dom.wakeEn.toNat = s.dom.wakeEn.toNat / 0x1000 * 0x1000 + leAt p 0 2 % 0x1000 ∧
      t.ev.wakeEn = BitVec.ofNat 96 (leAt p 2 12) ∧ t.ev.irqModeA = (p.getD 14 0).getLsbD 0 ∧
      t.ev.irqModeB = (p.getD 14 0).getLsbD 1 ∧ t.ev.route = s.ev.route ∧ t.ev.pend = s.ev.pend ∧
      t.berths.blk[b].cur = none ∧ t.dom.pdLow = s.dom.pdLow ∧ (s.isOn .hif = true → t.dom.hif = s.dom.hif) ∧
      t.flash = s.flash ∧ t.log = s.log ∧ t.gauge = s.gauge))

/-- Routing, the logbook, RESET and the domain and wake policies. The model's choices that this rests on: logs 36 and 44. -/
def Obligations.RoutingLogbookResetAndPolicies : Prop :=
  Sys2Proof.Claims.RoutingLogbookAndReset ∧
  Sys2Proof.Claims.PoliciesAreSet

/-- R248, R252 to R254, R257, R429, R437 to R439: the charter commands. READ shows an entry with its key check value; STAGE
stages the fields, or part of the key, and never the sealing; COMMIT, when every rule holds, writes the image of the copy that
is not active, queues its logbook entry, sets CHARTER_PEND and raises EV89, the active charter unchanged; DISCARD drops what
is staged. -/
def Sys2Proof.Claims.ChartersAreReadStagedAndCommitted : Prop :=
  Sys2Proof.Claims.Served .charterRead 0x0200 Sys2Proof.Claims.never Sys2Proof.Claims.never 2 2 (fun b rq s =>
    let copy := (rq.payload.getD 0 0).toNat
    (2 < copy → exec (.charterRead b) s = .next (s.answer b .badParam [0])) ∧
    (copy ≤ 2 → 3 < (rq.payload.getD 1 0).toNat → exec (.charterRead b) s = .next (s.answer b .badParam [1])) ∧
    (∀ n : Fin 4, (rq.payload.getD 1 0).toNat = n.val →
      (copy = 0 → exec (.charterRead b) s =
        .next (s.answer b .ok (leBytes 4 s.fw.charter.serial.toNat ++ s.fw.charter.entries[n].shown))) ∧
      (copy = 1 → s.fw.committed = none → exec (.charterRead b) s = .next (s.answer b .notReady [])) ∧
      (∀ c, s.fw.committed = some c → copy = 1 → exec (.charterRead b) s =
        .next (s.answer b .ok (leBytes 4 c.serial.toNat ++ c.entries[n].shown))) ∧
      (copy = 2 → s.fw.staged = none → exec (.charterRead b) s = .next (s.answer b .notReady [])) ∧
      (∀ x, s.fw.staged = some x → copy = 2 → exec (.charterRead b) s =
        .next (s.answer b .ok (leBytes 4 s.fw.charter.serial.toNat ++ x.entries[n].shown))))) ∧
  Sys2Proof.Claims.Served .charterStage 0x0201 (Sys2Proof.Claims.without 12)
      (fun _ rq s => (List.finRange 4).any fun n => (rq.payload.getD 0 0).toNat == n.val && s.fw.charter.entries[n].sealed)
      40 40 (fun b rq s =>
    let p := rq.payload
    let st := s.fw.staged.getD { entries := s.fw.charter.entries }
    (4 ≤ (p.getD 0 0).toNat → exec (.charterStage b) s = .next (s.answer b .badParam [0])) ∧
    (∀ n : Fin 4, (p.getD 0 0).toNat = n.val → s.fw.charter.entries[n].sealed = false →
      (∀ k, stageBad p = some k → exec (.charterStage b) s = .next (s.answer b .badParam [BitVec.ofNat 8 k])) ∧
      (stageBad p = none → (p.getD 3 0).toNat = 0 → ∃ t, exec (.charterStage b) s = .next t ∧
        t.fw = { s.fw with staged := some { st with entries := st.entries.set n { st.entries[n] with
          port := BitVec.ofNat 2 (p.getD 1 0).toNat, pecReq := (p.getD 2 0).getLsbD 1, rights := BitVec.ofNat 16 (leAt p 4 2)
          logQuota := BitVec.ofNat 16 (leAt p 6 2), memQuota := p.getD 8 0 } } } ∧
        t.berths.blk[b].cur = none ∧ t.flash = s.flash ∧ t.log = s.log) ∧
      (stageBad p = none → (p.getD 3 0).toNat = 1 → ∃ t x, exec (.charterStage b) s = .next t ∧ t.fw.staged = some x ∧
        x.incomplete = st.incomplete ||| (1#4 <<< n.val) ∧ x.entries[n].key = slice p 10 30 ++ [0, 0] ∧
        x.entries[n].sealed = st.entries[n].sealed ∧ t.berths.blk[b].cur = none ∧ t.flash = s.flash) ∧
      (stageBad p = none → (p.getD 3 0).toNat = 2 → st.parts = [] →
        exec (.charterStage b) s = .next (s.answer b .notReady [])))) ∧
  Sys2Proof.Claims.Served .charterCommit 0x0202 (Sys2Proof.Claims.without 12) Sys2Proof.Claims.never 0 0 (fun b _ s =>
    (s.fw.staged = none → exec (.charterCommit b) s = .next (s.answer b .notReady [])) ∧
    (∀ x, s.fw.staged = some x →
      (sealedChange s.fw.charter.entries x.entries = true → exec (.charterCommit b) s = .next (s.answer b .sealed [])) ∧
      (sealedChange s.fw.charter.entries x.entries = false → charterBad x.entries = true →
        exec (.charterCommit b) s = .next (s.answer b .badParam [0xFF])) ∧
      (sealedChange s.fw.charter.entries x.entries = false → charterBad x.entries = false → x.incomplete ≠ 0 →
        exec (.charterCommit b) s = .next (s.answer b .notReady [])) ∧
      (sealedChange s.fw.charter.entries x.entries = false → charterBad x.entries = false → x.incomplete = 0 →
        s.flashHeld b = true → exec (.charterCommit b) s = .next (s.answer b .resourceHeld [])) ∧
      (sealedChange s.fw.charter.entries x.entries = false → charterBad x.entries = false → x.incomplete = 0 →
        s.flashHeld b = false →
        let c : Charter := { serial := s.fw.charter.serial + 1, entries := commitEntries s.fw.charter.entries x.entries }
        ∃ t, exec (.charterCommit b) s = .next t ∧ t.berths.blk[b].cur = none ∧
          t.fw.charter = s.fw.charter ∧ t.fw.committed = some c ∧ t.fw.staged = none ∧
          (s.fw.spareIsB = true → t.flash.charterB = c.image ∧ t.flash.charterA = s.flash.charterA) ∧
          (s.fw.spareIsB = false → t.flash.charterA = c.image ∧ t.flash.charterB = s.flash.charterB) ∧
          (∀ n : Fin 4, t.berths.blk[n].charterPend = true ∧ t.berths.blk[n].rights = s.berths.blk[n].rights) ∧
          (∀ n : Fin 4, n ≠ b → ∀ q, s.berths.blk[n].cur = some q → q.waiting = false → q.writes = true →
            t.berths.blk[n].cur = some { q with held := true }) ∧
          t.ev.raised.getLsbD 89 = true ∧ t.dom.bind = s.dom.bind ∧ t.fw.logQ.length = s.fw.logQ.length + 1 ∧
          (t.fw.logQ.getLast?.map fun e => (e.kind, e.berth.toNat)) = some (6, b.val)))) ∧
  Sys2Proof.Claims.Served .charterDiscard 0x0203 (Sys2Proof.Claims.without 12) Sys2Proof.Claims.never 0 0 (fun b _ s =>
    exec (.charterDiscard b) s = .next (({ s with fw := { s.fw with staged := none } } : State).answer b .ok []))

/-- R258 to R260, R263, R429, R440: SEAL of a bound berth with a key needs a verified MAC, and queues its SEAL entry with
AUDIT_CTR; UNSEAL of the own berth needs a verified MAC, of another one CHARTER, counts AUDIT_CTR and queues its UNSEAL_BEGIN
entry. Both are answered later, and neither changes the charter yet. -/
def Sys2Proof.Claims.SealsAndUnsealsBegin : Prop :=
  (∀ (b : Fin 4) (s : State) (rq : Request), s.InHand b 0x0204 rq →
    let e := s.fw.charter.entries[b]
    let unfit := e.port = 0b11 ∨ noKey e.key = true
    (e.sealed = true → exec (.seal b) s = .next (s.answer b .sealed [])) ∧
    (e.sealed = false → rq.payload ≠ [] → exec (.seal b) s = .next (s.answer b .badLen [])) ∧
    (e.sealed = false → rq.payload = [] → unfit → exec (.seal b) s = .next (s.answer b .badParam [0xFF])) ∧
    (e.sealed = false → rq.payload = [] → ¬unfit → rq.mac = false → exec (.seal b) s = .next (s.macFail b true)) ∧
    (e.sealed = false → rq.payload = [] → ¬unfit → rq.mac = true →
      (s.fw.committed.isSome = true → exec (.seal b) s = .next (s.answer b .notReady [])) ∧
      (s.fw.committed = none → s.flashHeld b = true → exec (.seal b) s = .next (s.answer b .resourceHeld [])) ∧
      (s.fw.committed = none → s.flashHeld b = false →
        ∃ t, exec (.seal b) s = .next t ∧ t = { s with fw := { s.fw with logQ := t.fw.logQ }, berths := t.berths } ∧
          t.berths.blk[b].cur = some { rq with waiting := true } ∧ t.berths.mem = s.berths.mem ∧
          ∃ x, t.fw.logQ = s.fw.logQ ++ [x] ∧ x.kind = 3 ∧ x.berth.toNat = b.val ∧ x.stamp = s.cal.stamp ∧
            x.data = leBytes 4 s.flash.auditCtr.toNat))) ∧
  (∀ (b n : Fin 4) (s : State) (rq : Request), s.InHand b 0x0205 rq → rq.payload = [BitVec.ofNat 8 n.val] →
    let may := if n = b then rq.mac else s.fw.charter.entries[b].rights.getLsbD 12
    (may = false → exec (.unseal b) s = .next (s.answer b .denied [])) ∧
    (may = true → s.fw.charter.entries[n].sealed = false → exec (.unseal b) s = .next (s.answer b .badParam [0])) ∧
    (may = true → s.fw.charter.entries[n].sealed = true → s.fw.committed.isSome = true →
      exec (.unseal b) s = .next (s.answer b .notReady [])) ∧
    (may = true → s.fw.charter.entries[n].sealed = true → s.fw.committed = none → s.flashHeld b = true →
      exec (.unseal b) s = .next (s.answer b .resourceHeld [])) ∧
    (may = true → s.fw.charter.entries[n].sealed = true → s.fw.committed = none → s.flashHeld b = false →
      ∃ t, exec (.unseal b) s = .next t ∧ t.flash = { s.flash with auditCtr := s.flash.auditCtr + 1 } ∧
        t.fw.charter = s.fw.charter ∧ t.berths.blk[b].cur = some { rq with waiting := true } ∧
        t.gauge = s.gauge ∧ t.line = s.line ∧
        (t.fw.logQ.drop s.fw.logQ.length).map (fun x => (x.kind, x.berth.toNat, x.data)) =
          [(4, n.val, leBytes 4 (s.flash.auditCtr + 1).toNat ++ [BitVec.ofNat 8 b.val])]))

/-- Charters are read, staged, committed and discarded; seals and unseals begin. The model's choices that this rests on:
logs 31, 36, 37 and 52. -/
def Obligations.ChartersAndSeals : Prop :=
  Sys2Proof.Claims.ChartersAreReadStagedAndCommitted ∧
  Sys2Proof.Claims.SealsAndUnsealsBegin

/-- R52, R53, R443: CONV_CTL with the link UP stops the converter with a STOP symbol and SOFT-STOP frames, or ends the
host's stop with REG frames of mode RUN unless VAUX still stops it; with the link not UP it answers NOT_READY. Each row
serves its own action and leaves the other's request alone. -/
def Sys2Proof.Claims.TheConverterIsStoppedAndRestarted : Prop :=
  ∀ (b : Fin 4) (s : State) (rq : Request), s.InHand b 0x0302 rq →
    let held := s.fw.charter.entries[b].rights.getLsbD 13
    let up := s.isOn .pwr && s.link.state == .up
    (rq.payload = [1] → exec (.convCtlStop b) s = .next s) ∧ (rq.payload = [0] → exec (.convCtlRestart b) s = .next s) ∧
    (rq.payload = [0] → held = false → exec (.convCtlStop b) s = .next (s.answer b .denied [])) ∧
    (rq.payload = [0] → held = true → up = false → exec (.convCtlStop b) s = .next (s.answer b .notReady [])) ∧
    (rq.payload = [0] → held = true → up = true → exec (.convCtlStop b) s =
      .next (({ s with link := { s.link with
        stopSymbolDue := true, downFlight := none, regMode := .softStop, stopHost := true } } : State).answer b .ok [])) ∧
    (rq.payload = [1] → held = false → exec (.convCtlRestart b) s = .next (s.answer b .denied [])) ∧
    (rq.payload = [1] → held = true → up = false → exec (.convCtlRestart b) s = .next (s.answer b .notReady [])) ∧
    (rq.payload = [1] → held = true → up = true → exec (.convCtlRestart b) s =
      .next (({ s with link := { s.link with
        stopHost := false, regMode := (if s.link.stopVaux then .softStop else .run) } } : State).answer b .ok [])) ∧
    (held = true → 2 ≤ (rq.payload.getD 0 0).toNat → rq.payload.length = 1 →
      exec (.convCtlStop b) s = .next (s.answer b .badParam [0])) ∧
    (held = true → rq.payload.length ≠ 1 → exec (.convCtlStop b) s = .next (s.answer b .badLen []))

/-- R126, R127, R130, R131, R444 to R446: TIME_SET stages the time and commits it, answering after the load; a staged time
that fails its check is BAD_PARAM, a commit or a shift already pending BUSY. TIME_SHIFT writes SHIFT. TRIM_POLICY is applied
at once and stored, and answered once it is durable. -/
def Sys2Proof.Claims.TimeAndTrimAreCommanded : Prop :=
  Sys2Proof.Claims.Served .timeSet 0x0400 (Sys2Proof.Claims.without 8) Sys2Proof.Claims.never 8 8 (fun b rq s =>
    let p := rq.payload
    let mode := (p.getD 0 0).toNat
    let staged : Cal := { s.cal with secS := p.getD 1 0, minS := p.getD 2 0, hourS := p.getD 3 0, dayS := p.getD 4 0
                                     monthS := p.getD 5 0, yearS := p.getD 6 0, centS := p.getD 7 0 }
    (mode ≠ 1 → mode ≠ 2 → exec (.timeSet b) s = .next (s.answer b .badParam [0])) ∧
    (mode = 1 ∨ mode = 2 → s.cal.commit.isSome = true ∨ s.cal.shift.isSome = true →
      exec (.timeSet b) s = .next (s.answer b .busy [])) ∧
    (mode = 1 ∨ mode = 2 → s.cal.commit = none → s.cal.shift = none →
      (staged.stagedOk = true → ∃ t, exec (.timeSet b) s = .next t ∧
        t.cal = { staged with commit := some (if mode = 1 then .setr else .sett), calRej := t.cal.calRej } ∧
        t.berths.blk[b].cur = some { rq with waiting := true } ∧ t.berths.mem = s.berths.mem ∧
        t.line = s.line ∧ t.flash = s.flash ∧ t.log = s.log ∧ t.gauge = s.gauge ∧ t.trim = s.trim) ∧
      (staged.stagedOk = false → ∃ t, exec (.timeSet b) s = .next t ∧ t.cal.commit = none ∧ t.cal.calRej = true ∧
        t.cal.lsec = s.cal.lsec ∧ t.berths.blk[b].cur = none ∧ t.log = s.log ∧ t.trim = s.trim))) ∧
  Sys2Proof.Claims.Served .timeShift 0x0401 (Sys2Proof.Claims.without 8) Sys2Proof.Claims.never 2 2 (fun b rq s =>
    (s.cal.commit.isSome = true ∨ s.cal.shift.isSome = true → exec (.timeShift b) s = .next (s.answer b .busy [])) ∧
    (s.cal.commit = none → s.cal.shift = none → exec (.timeShift b) s =
      .next { s with cal := { s.cal with shift := some (BitVec.ofNat 16 (leAt rq.payload 0 2)) }
                     berths := { s.berths with
                       blk := s.berths.blk.set b { s.berths.blk[b] with cur := some { rq with waiting := true } } } })) ∧
  Sys2Proof.Claims.Served .trimPolicy 0x0402 (Sys2Proof.Claims.without 8) Sys2Proof.Claims.never 3 3 (fun b rq s =>
    let p := rq.payload
    let src := (p.getD 0 0).toNat
    (2 < src → exec (.trimPolicy b) s = .next (s.answer b .badParam [0])) ∧
    (src ≤ 2 → p.getD 1 0 &&& 0xF0 ≠ 0 → exec (.trimPolicy b) s = .next (s.answer b .badParam [1])) ∧
    (src ≤ 2 → p.getD 1 0 &&& 0xF0 = 0 → s.flashHeld b = true → exec (.trimPolicy b) s = .next (s.answer b .resourceHeld [])) ∧
    (src ≤ 2 → p.getD 1 0 &&& 0xF0 = 0 → s.flashHeld b = false → ∃ t, exec (.trimPolicy b) s = .next t ∧
      t.fw.trimPolicy = p ∧ t.berths.blk[b].cur = some { rq with waiting := true } ∧ t.berths.mem = s.berths.mem ∧
      (src = 0 → t.trim.active = false ∧ (s.trim.active = true → t.trim.run = false)) ∧
      (0 < src → t.trim.run = true ∧ t.trim.active = true ∧ t.trim.src = (src == 2) ∧
        t.trim.fnom = (p.getD 1 0).getLsbD 0 ∧ t.trim.auto = (p.getD 1 0).getLsbD 1 ∧ t.trim.cont = (p.getD 1 0).getLsbD 2 ∧
        t.trim.k.toNat = min 22 (p.getD 2 0).toNat) ∧
      t.trim.trim = s.trim.trim ∧
      (t.fw.storeQ.drop s.fw.storeQ.length).map (fun w => (w.image.trim, w.answer, w.berth)) = [(some ⟨b, p⟩, true, b)] ∧
      t.line = s.line ∧ t.flash = s.flash ∧ t.log = s.log ∧ t.gauge = s.gauge ∧ t.cal = s.cal))

/-- CONV_CTL, TIME_SET, TIME_SHIFT and TRIM_POLICY. The model's choices that this rests on: log 33. -/
def Obligations.ConverterTimeAndTrimAreCommanded : Prop :=
  Sys2Proof.Claims.TheConverterIsStoppedAndRestarted ∧
  Sys2Proof.Claims.TimeAndTrimAreCommanded

/-- R411, R417 to R419, R424, R425, R447: a gauge block is checked, and a GAUGE that is not ON gives NOT_READY;
configuration and profile are written, a save counts SAVE_SEQ and answers the state block, and a restore takes the anchor
and the capacity of a block it accepts and names the reason for one it refuses. -/
def Obligations.GaugeBlocksAreWrittenAndSaved : Prop :=
  Sys2Proof.Claims.Served .gaugeCfgWrite 0x0500 (Sys2Proof.Claims.without 6) Sys2Proof.Claims.never 32 32 (fun b rq s =>
    let p := rq.payload
    let old := s.gauge.cfg
    let same := gCells old == gCells p && gProf old == gProf p && gShunt old == gShunt p
    (∀ k, gaugeCfgBad p = some k → exec (.gaugeCfgWrite b) s = .next (s.answer b .badParam [BitVec.ofNat 8 k])) ∧
    (gaugeCfgBad p = none → s.isOn .gauge = false → exec (.gaugeCfgWrite b) s = .next (s.answer b .notReady [])) ∧
    (gaugeCfgBad p = none → s.isOn .gauge = true →
      (same = true ∨ s.gauge.learn = .none → exec (.gaugeCfgWrite b) s = .next (({ s with gauge := { s.gauge with
        cfg := p, socK := (if s.gauge.stateValid then ({ s.gauge with cfg := p } : Gauge).kFor s.gauge.qFull.toNat
          else s.gauge.socK) } } : State).answer b .ok [])) ∧
      (same = false → ∃ t, exec (.gaugeCfgWrite b) s = .next t ∧
        t.gauge.learn = .none ∧ t.gauge.cfg = p ∧ t.gauge.acc = s.gauge.acc ∧ t.berths.blk[b].cur = none ∧
        (s.gauge.learn = .opened → t.gauge.lastDisq = 13 ∧ t.ev.raised.getLsbD 84 = true)))) ∧
  Sys2Proof.Claims.Served .gaugeProfile 0x0502 (Sys2Proof.Claims.without 6) Sys2Proof.Claims.never 140 140 (fun b rq s =>
    let p := rq.payload
    let one := p.getD 0 0 == 1
    (∀ k, profileBad p = some k → exec (.gaugeProfile b) s = .next (s.answer b .badParam [BitVec.ofNat 8 k])) ∧
    (profileBad p = none → s.isOn .gauge = false → exec (.gaugeProfile b) s = .next (s.answer b .notReady [])) ∧
    (profileBad p = none → s.isOn .gauge = true → exec (.gaugeProfile b) s = .next (({ s with gauge := { s.gauge with
      prof0 := (if one then s.gauge.prof0 else some p), prof1 := (if one then some p else s.gauge.prof1)
      stateValid := s.gauge.stateValid && one != gProf s.gauge.cfg } } : State).answer b .ok []))) ∧
  Sys2Proof.Claims.Served .gaugeSave 0x0503 (Sys2Proof.Claims.without 6) Sys2Proof.Claims.never 0 0 (fun b _ s =>
    (s.isOn .gauge = false ∨ s.gauge.stateValid = false → exec (.gaugeSave b) s = .next (s.answer b .notReady [])) ∧
    (s.isOn .gauge = true → s.gauge.stateValid = true →
      let s' : State := { s with gauge := { s.gauge with saveSeq := s.gauge.saveSeq + 1 } }
      exec (.gaugeSave b) s = .next (s'.answer b .ok s'.gaugeBlock) ∧ s'.gaugeBlock.length = 64 ∧
      leAt s'.gaugeBlock 4 4 = (s.gauge.saveSeq + 1).toNat ∧ leAt s'.gaugeBlock 18 2 = s.gauge.qFull.toNat)) ∧
  Sys2Proof.Claims.Served .gaugeRestore 0x0504 (Sys2Proof.Claims.without 6) Sys2Proof.Claims.never 64 64 (fun b rq s =>
    let p := rq.payload
    (s.isOn .gauge = false → exec (.gaugeRestore b) s = .next (s.answer b .notReady [])) ∧
    (s.isOn .gauge = true →
      (leAt p 60 4 ≠ (crc32 (slice p 0 60)).toNat → exec (.gaugeRestore b) s = .next (s.answer b .restoreRejected [1])) ∧
      (leAt p 60 4 = (crc32 (slice p 0 60)).toNat → leAt p 0 2 ≠ 1 ∨ (∃ k < 24, p.getD (36 + k) 0 ≠ 0) →
        exec (.gaugeRestore b) s = .next (s.answer b .restoreRejected [2])) ∧
      (leAt p 60 4 = (crc32 (slice p 0 60)).toNat → leAt p 0 2 = 1 → (∀ k < 24, p.getD (36 + k) 0 = 0) →
        (leAt p 4 4 ≤ s.gauge.saveSeq.toNat → exec (.gaugeRestore b) s = .next (s.answer b .restoreRejected [3])) ∧
        (s.gauge.saveSeq.toNat < leAt p 4 4 → leAt p 22 2 ≠ cfgCrc s.gauge.cfg →
          exec (.gaugeRestore b) s = .next (s.answer b .restoreRejected [4])) ∧
        (s.gauge.saveSeq.toNat < leAt p 4 4 → leAt p 22 2 = cfgCrc s.gauge.cfg →
          (p.getD 2 0).toNat = (if gProf s.gauge.cfg then 1 else 0) → (p.getD 3 0).toNat = gCells s.gauge.cfg →
          ∃ t, exec (.gaugeRestore b) s = .next t ∧
          t.gauge.qFull.toNat = leAt p 18 2 ∧ t.gauge.learnCnt.toNat = leAt p 20 2 ∧ t.gauge.saveSeq.toNat = leAt p 4 4 ∧
          t.gauge.dchgTotal.toNat = leAt p 24 4 ∧ t.gauge.socA.toNat = leAt p 16 2 ∧ t.gauge.accA = s.gauge.acc ∧
          t.gauge.acc = s.gauge.acc ∧ t.gauge.stateValid = true ∧ t.gauge.restored = true ∧ t.gauge.learn = .none ∧
          (s.gauge.learn = .opened → t.gauge.lastDisq = 5) ∧ t.berths.blk[b].cur = none ∧
          t.line = s.line ∧ t.flash = s.flash ∧ t.log = s.log ∧ t.fw = { s.fw with recQ := t.fw.recQ }))))

/-- How a write of one path's block is answered where it is turned away (R273, R427, R429, R431, R448, R453): a path byte above
1 and a block that fails its check are BAD_PARAM; a schedule or memory beyond the quota is OUT_OF_QUOTA where the block declares
any; a running calibration of the path is BUSY, another berth's flash write RESOURCE_HELD. `k` is the path with the block. -/
def Sys2Proof.Claims.BlockRefused (c : Fin 4 → Instr) (declares : Bool) (bad : List Byte → Option Nat)
    (k : Path → PathSt) (b : Fin 4) (rq : Request) (s : State) : Prop :=
  let raw := rq.payload.drop 1
  (1 < (rq.payload.getD 0 0).toNat → exec (c b) s = .next (s.answer b .badParam [0])) ∧
  ∀ x : Path, (rq.payload.getD 0 0).toNat = pathNo x →
    let beyond := declares && (s.overQuotaWith b x (k x) || s.overMem b x (k x))
    (∀ n, bad raw = some n →
      exec (c b) s = .next (s.answer b .badParam [BitVec.ofNat 8 (if n = 0xFF then 0xFF else n + 1)])) ∧
    (bad raw = none → beyond = true → exec (c b) s = .next (s.answer b .outOfQuota [])) ∧
    (bad raw = none → beyond = false → s.calBusy b x = true → exec (c b) s = .next (s.answer b .busy [])) ∧
    (bad raw = none → beyond = false → s.calBusy b x = false → s.flashHeld b = true →
      exec (c b) s = .next (s.answer b .resourceHeld []))

/-- What a write of one path's block leaves behind (R297, R429): the path stands as `k`, with a sounding due where it has just
become configured; an image that holds the `block` as its item is queued, and the request waits for it. -/
def Sys2Proof.Claims.BlockKept (block : List Byte) (x : Path) (k : PathSt) (item : PathItems → Option Item)
    (b : Fin 4) (rq : Request) (s t : State) : Prop :=
  t.log.path x = { k with lastDue := (t.log.path x).lastDue, nextDue := (t.log.path x).nextDue } ∧
  (∀ y, y ≠ x → t.log.path y = s.log.path y) ∧ t.log.rtdBlk = s.log.rtdBlk ∧
  t.berths.blk[b].cur = some { rq with waiting := true } ∧ t.berths.mem = s.berths.mem ∧
  (t.fw.storeQ.drop s.fw.storeQ.length).map (fun w =>
    (item (match x with | .a => w.image.a | .b => w.image.b), w.answer, w.berth, w.image.seq)) =
    [(some ⟨b, block⟩, true, b, s.store.seq + 1)] ∧
  t.flash = s.flash ∧ t.line = s.line ∧ t.gauge = s.gauge ∧ t.cal = s.cal

/-- A path with a new acquisition block: PGA is the gain of its next sounding, and a change of a firing field clears the
template and LEEWAY (R324, R344, R450). -/
def Sys2Proof.Claims.withAcqBlock (blk : List Byte) (k : PathSt) : PathSt :=
  let clears := acqFiring blk != acqFiring k.acq
  { k with acq := blk, acqOk := true, gain := acqPga blk, template := (if clears then none else k.template)
           leeway := (if clears then 0 else k.leeway) }

/-- A path with a new flow block: a change clears the history of its median and what is credited (R364, R368). -/
def Sys2Proof.Claims.withFlowBlock (blk : List Byte) (k : PathSt) : PathSt :=
  let same := k.flowOk && blk == k.flow
  { k with flow := blk, flowOk := true, history := (if same then k.history else [])
           tPrev := (if same then k.tPrev else none), spans := (if same then k.spans else []) }

/-- The berth lacks the right of the path a request names (R249, R448). -/
def Sys2Proof.Claims.withoutPath (b : Fin 4) (rq : Request) (s : State) : Bool :=
  (rq.payload.head? == some 0 && !s.fw.charter.entries[b].rights.getLsbD 0) ||
    (rq.payload.head? == some 1 && !s.fw.charter.entries[b].rights.getLsbD 1)

/-- The requesting berth is sealed (R258, R389). -/
def Sys2Proof.Claims.isSealed (b : Fin 4) (_ : Request) (s : State) : Bool := s.fw.charter.entries[b].sealed

/-- R258, R297, R324, R336, R344, R355, R364, R368, R383, R389, R393, R395, R396, R431, R448, R450: the four block writes of
a path: ACQ_WRITE, whose firing fields clear the calibration and whose DELIVER a sealed berth may change; FLOW_WRITE, which
also needs the rights of its inputs; CARD_WRITE; FLUID_WRITE. -/
def Sys2Proof.Claims.PathBlocksAreWritten : Prop :=
  Sys2Proof.Claims.Served .acqWrite 0x0600 Sys2Proof.Claims.withoutPath
    (fun b rq s => s.fw.charter.entries[b].sealed && !(rq.payload.length == 33 &&
      ((rq.payload.head? == some 0 && (rq.payload.drop 1).set 26 0 == s.log.a.acq.set 26 0) ||
       (rq.payload.head? == some 1 && (rq.payload.drop 1).set 26 0 == s.log.b.acq.set 26 0)))) 33 33 (fun b rq s =>
    let raw := rq.payload.drop 1
    let k (x : Path) := Sys2Proof.Claims.withAcqBlock raw (s.log.path x)
    Sys2Proof.Claims.BlockRefused .acqWrite true acqBad k b rq s ∧
    ∀ x : Path, (rq.payload.getD 0 0).toNat = pathNo x → acqBad raw = none → s.overQuotaWith b x (k x) = false →
      s.overMem b x (k x) = false → s.calBusy b x = false → s.flashHeld b = false →
      ∃ t, exec (.acqWrite b) s = .next t ∧ Sys2Proof.Claims.BlockKept raw x (k x) PathItems.acq b rq s t) ∧
  Sys2Proof.Claims.Served .flowWrite 0x0602
    (fun b rq s => Sys2Proof.Claims.withoutPath b rq s || (rq.payload.length == 49 && (pathOf rq.payload).isSome &&
      (flowInputs (rq.payload.drop 1)).any fun n => !s.fw.charter.entries[b].rights.getLsbD (2 + n.val)))
    Sys2Proof.Claims.isSealed 49 49 (fun b rq s =>
    let raw := rq.payload.drop 1
    let k (x : Path) := Sys2Proof.Claims.withFlowBlock (flowBytes raw 0) (s.log.path x)
    Sys2Proof.Claims.BlockRefused .flowWrite true flowBad k b rq s ∧
    ∀ x : Path, (rq.payload.getD 0 0).toNat = pathNo x → flowBad raw = none → s.overQuotaWith b x (k x) = false →
      s.overMem b x (k x) = false → s.calBusy b x = false → s.flashHeld b = false →
      ∃ t, exec (.flowWrite b) s = .next t ∧
        Sys2Proof.Claims.BlockKept (flowBytes raw 0) x (k x) PathItems.flow b rq s t) ∧
  Sys2Proof.Claims.Served .cardWrite 0x0606 Sys2Proof.Claims.withoutPath Sys2Proof.Claims.isSealed 73 73 (fun b rq s =>
    let raw := rq.payload.drop 1
    let k (x : Path) : PathSt := { s.log.path x with card := raw }
    Sys2Proof.Claims.BlockRefused .cardWrite false cardBad k b rq s ∧
    ∀ x : Path, (rq.payload.getD 0 0).toNat = pathNo x → cardBad raw = none → s.calBusy b x = false → s.flashHeld b = false →
      ∃ t, exec (.cardWrite b) s = .next t ∧ Sys2Proof.Claims.BlockKept raw x (k x) PathItems.card b rq s t) ∧
  Sys2Proof.Claims.Served .fluidWrite 0x0608 Sys2Proof.Claims.withoutPath Sys2Proof.Claims.isSealed 53 53 (fun b rq s =>
    let raw := rq.payload.drop 1
    let k (x : Path) : PathSt := { s.log.path x with fluid := raw }
    Sys2Proof.Claims.BlockRefused .fluidWrite false fluidBad k b rq s ∧
    ∀ x : Path, (rq.payload.getD 0 0).toNat = pathNo x → fluidBad raw = none → s.calBusy b x = false → s.flashHeld b = false →
      ∃ t, exec (.fluidWrite b) s = .next t ∧ Sys2Proof.Claims.BlockKept raw x (k x) PathItems.fluid b rq s t)

/-- R297, R316, R394, R431, R448 to R450, R453: RTD_WRITE needs the right of every input it changes and stores the block;
PATH_PORTS takes two different ports that are not the other path's pair, and a pair that moves clears the template and
LEEWAY. -/
def Sys2Proof.Claims.RtdBlockAndPortsAreWritten : Prop :=
  Sys2Proof.Claims.Served .rtdWrite 0x0604
    (fun b rq s => rq.payload.length == 16 &&
      (rtdNeeds s.log.rtdBlk rq.payload).any fun n => !s.fw.charter.entries[b].rights.getLsbD (2 + n.val))
    Sys2Proof.Claims.isSealed 16 16 (fun b rq s =>
      let p := rq.payload
      let quota := s.overQuota b s.log.a s.log.b p
      let busy := s.calBusyInputs b (rtdNeeds s.log.rtdBlk p)
      (∀ k, rtdBad p = some k → exec (.rtdWrite b) s = .next (s.answer b .badParam [BitVec.ofNat 8 k])) ∧
      (rtdBad p = none → quota = true → exec (.rtdWrite b) s = .next (s.answer b .outOfQuota [])) ∧
      (rtdBad p = none → quota = false → busy = true → exec (.rtdWrite b) s = .next (s.answer b .busy [])) ∧
      (rtdBad p = none → quota = false → busy = false → s.flashHeld b = true →
        exec (.rtdWrite b) s = .next (s.answer b .resourceHeld [])) ∧
      (rtdBad p = none → quota = false → busy = false → s.flashHeld b = false → ∃ t, exec (.rtdWrite b) s = .next t ∧
        t = { s with log := { s.log with rtdBlk := p, rtdOwner := some b }, fw := { s.fw with storeQ := t.fw.storeQ }
                     berths := { s.berths with
                       blk := s.berths.blk.set b { s.berths.blk[b] with cur := some { rq with waiting := true } } } } ∧
        (t.fw.storeQ.drop s.fw.storeQ.length).map (fun w => (w.image.rtd, w.answer, w.berth, w.image.seq)) =
          [(some ⟨b, p⟩, true, b, s.store.seq + 1)])) ∧
  Sys2Proof.Claims.Served .pathPorts 0x060A Sys2Proof.Claims.withoutPath Sys2Proof.Claims.isSealed 3 3 (fun b rq s =>
    let pa := (rq.payload.getD 1 0).toNat
    let pb := (rq.payload.getD 2 0).toNat
    (1 < (rq.payload.getD 0 0).toNat → exec (.pathPorts b) s = .next (s.answer b .badParam [0])) ∧
    ∀ x : Path, (rq.payload.getD 0 0).toNat = pathNo x →
      let k := s.log.path x
      let o := s.log.path (if x = .a then .b else .a)
      let clash := pa = pb ∨ (o.portA.val = pa ∧ o.portB.val = pb) ∨ (o.portA.val = pb ∧ o.portB.val = pa)
      let moved := k.portA.val ≠ pa ∨ k.portB.val ≠ pb
      (3 < pa → exec (.pathPorts b) s = .next (s.answer b .badParam [1])) ∧
      (pa ≤ 3 → 3 < pb → exec (.pathPorts b) s = .next (s.answer b .badParam [2])) ∧
      (pa ≤ 3 → pb ≤ 3 → clash → exec (.pathPorts b) s = .next (s.answer b .badParam [0xFF])) ∧
      (pa ≤ 3 → pb ≤ 3 → ¬clash → s.calBusy b x = true → exec (.pathPorts b) s = .next (s.answer b .busy [])) ∧
      (pa ≤ 3 → pb ≤ 3 → ¬clash → s.calBusy b x = false → s.flashHeld b = true →
        exec (.pathPorts b) s = .next (s.answer b .resourceHeld [])) ∧
      (pa ≤ 3 → pb ≤ 3 → ¬clash → s.calBusy b x = false → s.flashHeld b = false → ∃ t, exec (.pathPorts b) s = .next t ∧
        (t.log.path x).portA.val = pa ∧ (t.log.path x).portB.val = pb ∧
        (moved → (t.log.path x).template = none ∧ (t.log.path x).leeway = 0) ∧
        (¬moved → (t.log.path x).template = k.template ∧ (t.log.path x).leeway = k.leeway) ∧
        (t.log.path x).tracks = k.tracks ∧ (t.log.path x).totals = k.totals ∧ (∀ y, y ≠ x → t.log.path y = s.log.path y) ∧
        t.berths.blk[b].cur = some { rq with waiting := true } ∧ t.fw.storeQ.length = s.fw.storeQ.length + 1 ∧
        t.flash = s.flash ∧ t.line = s.line ∧ t.gauge = s.gauge))

/-- The blocks of a path, the RTD block and the ports are checked, kept and stored. The model's choices that this rests on:
logs 24, 36, 38 and 53. -/
def Obligations.LogBlocksAreWritten : Prop :=
  Sys2Proof.Claims.PathBlocksAreWritten ∧
  Sys2Proof.Claims.RtdBlockAndPortsAreWritten

/-- R343, R365, R389, R429, R430, R448, R451, R452: a calibration starts on a path with its block, or with a template and a
flow block, unless one runs; its outcome is read once it has ended; TOTALS_RESET zeroes the totals and queues a totals entry,
answered when it is durable. -/
def Sys2Proof.Claims.CalibrationsStartAndTotalsReset : Prop :=
  Sys2Proof.Claims.Served .arrivalLearn 0x060B Sys2Proof.Claims.withoutPath Sys2Proof.Claims.isSealed 1 1 (fun b rq s =>
    (1 < (rq.payload.getD 0 0).toNat → exec (.arrivalLearn b) s = .next (s.answer b .badParam [0])) ∧
    ∀ x : Path, (rq.payload.getD 0 0).toNat = pathNo x →
      ((s.log.path x).acqOk = false → exec (.arrivalLearn b) s = .next (s.answer b .notReady [])) ∧
      ((s.log.path x).acqOk = true → (∀ c, s.log.cal = some c →
        (c.berth = b → exec (.arrivalLearn b) s = .next (s.answer b .busy [])) ∧
        (c.berth ≠ b → exec (.arrivalLearn b) s = .next (s.answer b .resourceHeld []))) ∧
        (s.log.cal = none → ∃ t, exec (.arrivalLearn b) s = .next t ∧
          t.log.cal = some { kind := .learn, path := x, berth := b } ∧ t.berths.blk[b].cur = none ∧
          (s.isOn .log = false ∨ s.log.cur.isSome = true → t.log = { s.log with cal := t.log.cal }) ∧
          (s.isOn .log = true → t.dom.log = s.dom.log) ∧ t.flash = s.flash ∧ t.fw = s.fw))) ∧
  Sys2Proof.Claims.Served .leewayCal 0x060C Sys2Proof.Claims.withoutPath Sys2Proof.Claims.isSealed 1 1 (fun b rq s =>
    (1 < (rq.payload.getD 0 0).toNat → exec (.leewayCal b) s = .next (s.answer b .badParam [0])) ∧
    ∀ x : Path, (rq.payload.getD 0 0).toNat = pathNo x →
      let k := s.log.path x
      (k.template = none ∨ k.flowOk = false → exec (.leewayCal b) s = .next (s.answer b .notReady [])) ∧
      (k.template.isSome = true → k.flowOk = true → (∀ c, s.log.cal = some c →
        (c.berth = b → exec (.leewayCal b) s = .next (s.answer b .busy [])) ∧
        (c.berth ≠ b → exec (.leewayCal b) s = .next (s.answer b .resourceHeld []))) ∧
        (s.log.cal = none → ∃ t, exec (.leewayCal b) s = .next t ∧
          t.log.cal = some { kind := .leeway, path := x, berth := b } ∧
          t.log.path x = { k with due := false, delayed := false, lastDue := s.trim.raw, nextDue := s.trim.raw } ∧
          (∀ y, y ≠ x → t.log.path y = s.log.path y) ∧ t.berths.blk[b].cur = none ∧ t.flash = s.flash ∧ t.fw = s.fw))) ∧
  Sys2Proof.Claims.Served .calResult 0x060D Sys2Proof.Claims.never Sys2Proof.Claims.never 1 1 (fun b rq s =>
    (1 < (rq.payload.getD 0 0).toNat → exec (.calResult b) s = .next (s.answer b .badParam [0])) ∧
    ∀ x : Path, (rq.payload.getD 0 0).toNat = pathNo x →
      let runs := (s.log.cal.map fun c => c.path == x).getD false
      (runs = true → exec (.calResult b) s = .next (s.answer b .busy [])) ∧
      (runs = false → (s.log.path x).lastCal = none → exec (.calResult b) s = .next (s.answer b .notReady [])) ∧
      (∀ o, (s.log.path x).lastCal = some o → runs = false →
        exec (.calResult b) s = .next (s.answer b (if o.stored then .ok else .calRejected) ([if o.kind = .learn then 1 else 2] ++
          leBytes 2 (min o.valid 65535) ++ sleBytes 4 (max (-2147483648) (min 2147483647 o.value)) ++ [0])))) ∧
  Sys2Proof.Claims.Served .totalsReset 0x060F Sys2Proof.Claims.withoutPath Sys2Proof.Claims.isSealed 1 1 (fun b rq s =>
    (1 < (rq.payload.getD 0 0).toNat → exec (.totalsReset b) s = .next (s.answer b .badParam [0])) ∧
    ∀ x : Path, (rq.payload.getD 0 0).toNat = pathNo x →
      (s.flashHeld b = true → exec (.totalsReset b) s = .next (s.answer b .resourceHeld [])) ∧
      (s.flashHeld b = false → ∃ t, exec (.totalsReset b) s = .next t ∧
        (t.log.path x).totals = {} ∧ (t.log.path x).history = (s.log.path x).history ∧
        (∀ y, y ≠ x → t.log.path y = s.log.path y) ∧ t.berths.blk[b].cur = some { rq with waiting := true } ∧
        t.berths.mem = s.berths.mem ∧ t.fw.logQ.take s.fw.logQ.length = s.fw.logQ ∧
        (∀ h, s.pathHolder x = some h → (t.fw.logQ.drop s.fw.logQ.length).map (fun e => (e.kind, e.berth.toNat, leAt e.data 0 1,
          leAt e.data 4 8, leAt e.data 12 8)) = [(1, h.val, pathNo x, 0, 0)]) ∧
        t.flash = s.flash ∧ t.line = s.line ∧ t.gauge = s.gauge))

/-- R379, R380, R390, R392, R430, R454, R455: W2W answers hydraulic power, efficiency and mean flow where the path is
configured, has no missing flow time over AVG and knows its fluid, and makes a record where FLAGS asks for one; FLUID_PROPS
answers the properties of a path's fluid at a temperature in its range. -/
def Sys2Proof.Claims.WireToWaterAndFluidProperties : Prop :=
  Sys2Proof.Claims.Served .w2w 0x0700 Sys2Proof.Claims.never Sys2Proof.Claims.never 12 12 (fun b rq s =>
    let p := rq.payload
    (1 < (p.getD 0 0).toNat → exec (.w2w b) s = .next (s.answer b .badParam [0])) ∧
    ∀ x : Path, (p.getD 0 0).toNat = pathNo x →
      let avg := (p.getD 1 0).toNat
      let pel := leAt p 4 4
      let k := s.log.path x
      let m := s.need .memM
      (avg = 0 ∨ 60 < avg → exec (.w2w b) s = .next (s.answer b .badParam [1])) ∧
      (1 ≤ avg → avg ≤ 60 → p.getD 2 0 ≠ 0 → exec (.w2w b) s = .next (s.answer b .badParam [2])) ∧
      (1 ≤ avg → avg ≤ 60 → p.getD 2 0 = 0 → p.getD 3 0 ≠ 0 → exec (.w2w b) s = .next (s.answer b .badParam [3])) ∧
      (1 ≤ avg → avg ≤ 60 → p.getD 2 0 = 0 → p.getD 3 0 = 0 → pel = 0 → exec (.w2w b) s = .next (s.answer b .badParam [4])) ∧
      (1 ≤ avg → avg ≤ 60 → p.getD 2 0 = 0 → p.getD 3 0 = 0 → pel ≠ 0 →
        (k.configured = false ∨ k.meanFlow s.trim.raw (avg * 32768) = none ∨
            fluidAt k.flow k.fluid (s.meterTemp x k.flow).1 = none →
          exec (.w2w b) s = .next (m.answer b .notReady [])) ∧
        (k.configured = true → ∀ q, k.meanFlow s.trim.raw (avg * 32768) = some q →
          ∀ f, fluidAt k.flow k.fluid (s.meterTemp x k.flow).1 = some f →
            let w := f.rho * (980665 / 100000) * (sleAt p 8 4 : Int) * q / 1000000000
            let eta := roundRat (w / pel * 10000)
            let body := intField 4 (roundRat w) ++ sleBytes 2 eta ++ intField 4 (roundRat q)
            (32767 < eta.natAbs → exec (.w2w b) s = .next (m.answer b .badParam [0xFF])) ∧
            (eta.natAbs ≤ 32767 → rq.flags.getLsbD 2 = false → exec (.w2w b) s = .next (m.answer b .ok body)) ∧
            (eta.natAbs ≤ 32767 → rq.flags.getLsbD 2 = true → exec (.w2w b) s =
              .next ((m.record b s.cal.stamp 0x15 (BitVec.ofNat 8 (pathNo x)) 0
                (leBytes 4 pel ++ body ++ sleBytes 4 (sleAt p 8 4) ++ [p.getD 1 0])).answer b .ok body))))) ∧
  Sys2Proof.Claims.Served .fluidProps 0x0701 Sys2Proof.Claims.never Sys2Proof.Claims.never 4 4 (fun b rq s =>
    let p := rq.payload
    (1 < (p.getD 0 0).toNat → exec (.fluidProps b) s = .next (s.answer b .badParam [0])) ∧
    ∀ x : Path, (p.getD 0 0).toNat = pathNo x →
      let at_ := fluidAt (s.log.path x).flow (s.log.path x).fluid (mkRat (sleAt p 2 2) 100)
      (p.getD 1 0 ≠ 0 → exec (.fluidProps b) s = .next (s.answer b .badParam [1])) ∧
      (p.getD 1 0 = 0 → at_ = none ∨ (∃ f, at_ = some f ∧ f.mu = none) →
        exec (.fluidProps b) s = .next (s.answer b .badParam [2])) ∧
      (∀ f mu, at_ = some f → f.mu = some mu → p.getD 1 0 = 0 → exec (.fluidProps b) s =
        .next (s.answer b .ok (natField 2 (roundRat (10 * f.rho)).toNat ++
          natField 2 (roundRat f.cp).toNat ++ intField 4 (roundRat f.h) ++ natField 4 (roundRat (mu * 1000000)).toNat))))

/-- Calibrations start, totals reset, wire-to-water and fluid properties. The model's choices that this rests on: logs 39,
54 and 74. -/
def Obligations.CalibrationsTotalsAndWireToWater : Prop :=
  Sys2Proof.Claims.CalibrationsStartAndTotalsReset ∧
  Sys2Proof.Claims.WireToWaterAndFluidProperties

/-- R287 to R289, R384, R429, R456, R457: an update begins with the inactive bank erased, takes contiguous data up to its
length, is verified as a whole and signed image, which fills the inactive bank, and is activated by choosing that bank and
scheduling a reset. Each success raises EV90; the active bank does not change. -/
def Sys2Proof.Claims.FirmwareIsUpdated : Prop :=
  Sys2Proof.Claims.Served .fwBegin 0x0800 (Sys2Proof.Claims.without 11) Sys2Proof.Claims.never 4 4 (fun b rq s =>
    let len := leAt rq.payload 0 4
    (len = 0 ∨ 368640 < len → exec (.fwBegin b) s = .next (s.answer b .badParam [0])) ∧
    (0 < len → len ≤ 368640 → s.flashHeld b = true → exec (.fwBegin b) s = .next (s.answer b .resourceHeld [])) ∧
    (0 < len → len ≤ 368640 → s.flashHeld b = false → ∃ t, exec (.fwBegin b) s = .next t ∧
      t.flash = (if s.flash.activeB then { s.flash with bankA := { s.flash.bankA with valid := false } }
        else { s.flash with bankB := { s.flash.bankB with valid := false } }) ∧
      t.fw = { s.fw with update := some { len } } ∧ t.ev.raised.getLsbD 90 = true ∧ t.berths.blk[b].cur = none ∧
      t.line = s.line ∧ t.log = s.log ∧ t.gauge = s.gauge)) ∧
  Sys2Proof.Claims.Served .fwData 0x0801 (Sys2Proof.Claims.without 11) Sys2Proof.Claims.never 5 240 (fun b rq s =>
    let p := rq.payload
    (s.fw.update = none → exec (.fwData b) s = .next (s.answer b .notReady [])) ∧
    (∀ u, s.fw.update = some u →
      (leAt p 0 4 ≠ u.image.length ∨ u.len < u.image.length + (p.length - 4) →
        exec (.fwData b) s = .next (s.answer b .badParam [0])) ∧
      (leAt p 0 4 = u.image.length → u.image.length + (p.length - 4) ≤ u.len → s.flashHeld b = true →
        exec (.fwData b) s = .next (s.answer b .resourceHeld [])) ∧
      (leAt p 0 4 = u.image.length → u.image.length + (p.length - 4) ≤ u.len → s.flashHeld b = false →
        ∃ t, exec (.fwData b) s = .next t ∧
        t.fw = { s.fw with update := some { u with image := u.image ++ p.drop 4, verified := false } } ∧
        t.flash = s.flash ∧ t.ev.raised.getLsbD 90 = true ∧ t.berths.blk[b].cur = none ∧ t.log = s.log))) ∧
  Sys2Proof.Claims.Served .fwVerify 0x0802 (Sys2Proof.Claims.without 11) Sys2Proof.Claims.never 0 0 (fun b _ s =>
    (s.fw.update = none → exec (.fwVerify b) s = .next (s.answer b .notReady [])) ∧
    (∀ u, s.fw.update = some u →
      let good := Config.imageLength u.image == u.len && Config.imageSigned u.image &&
        decide (s.flash.topSecVer.toNat ≤ (Config.imageSecVer u.image).toNat)
      (u.image.length < u.len ∨ good = false → exec (.fwVerify b) s = .next (s.answer b .denied [])) ∧
      (u.len ≤ u.image.length → good = true →
        let bank : Bank := ⟨true, slice (Config.imageRelease u.image) 0 4, Config.imageSecVer u.image⟩
        ∃ t, exec (.fwVerify b) s = .next t ∧
        t.flash = (if s.flash.activeB then { s.flash with bankA := bank } else { s.flash with bankB := bank }) ∧
        t.fw = { s.fw with update := some { u with verified := true } } ∧ t.ev.raised.getLsbD 90 = true ∧
        t.berths.blk[b].cur = none ∧ t.log = s.log))) ∧
  Sys2Proof.Claims.Served .fwActivate 0x0803 (Sys2Proof.Claims.without 11) Sys2Proof.Claims.never 0 0 (fun b _ s =>
    ((s.fw.update.map (·.verified)).getD false = false → exec (.fwActivate b) s = .next (s.answer b .notReady [])) ∧
    ((s.fw.update.map (·.verified)).getD false = true → ∃ t, exec (.fwActivate b) s = .next t ∧
      t.flash = { s.flash with nextB := !s.flash.activeB } ∧
      t.fw.resetDue = true ∧ t.fw.logQ.take s.fw.logQ.length = s.fw.logQ ∧ t.ev.raised.getLsbD 90 = true ∧
      t.berths.blk[b].cur = none ∧ t.log = s.log ∧ t.gauge = s.gauge ∧ t.line = s.line))

/-- R236, R238 to R240, R430, R458, R459: PROBE_CFG sets speed, filter, address widths and page sizes; PROBE_READ and
PROBE_WRITE check head, count, address and page, and start a transfer of the address and the data, which a quiet window holds
back, answered when it ends, unless one runs. -/
def Sys2Proof.Claims.ProbeTransfersAreCommanded : Prop :=
  Sys2Proof.Claims.Served .probeCfg 0x0900 (Sys2Proof.Claims.without 10) Sys2Proof.Claims.never 4 4 (fun b rq s =>
    let p := rq.payload
    let speed := (p.getD 0 0).toNat % 4
    let filt := (p.getD 0 0).toNat / 4 % 8
    let bad := 5 < min 5 filt + speed ∨ 32 ≤ (p.getD 0 0).toNat
    (bad → exec (.probeCfg b) s = .next (s.answer b .badParam [0])) ∧
    (¬bad → 16 ≤ (p.getD 1 0).toNat → exec (.probeCfg b) s = .next (s.answer b .badParam [1])) ∧
    (¬bad → (p.getD 1 0).toNat < 16 → p.getD 3 0 ≠ 0 → exec (.probeCfg b) s = .next (s.answer b .badParam [3])) ∧
    (¬bad → (p.getD 1 0).toNat < 16 → p.getD 3 0 = 0 → ∃ t, exec (.probeCfg b) s = .next t ∧
      t.tw = { s.tw with pbSpeed := BitVec.ofNat 2 speed, pbFilt := BitVec.ofNat 3 filt
                         pbWidth := BitVec.ofNat 4 (p.getD 1 0).toNat, pbPage := p.getD 2 0 } ∧
      t.berths.blk[b].cur = none ∧ (s.isOn .hif = true → t = ({ s with tw := t.tw } : State).answer b .ok []) ∧
      t.log = s.log ∧ t.flash = s.flash ∧ t.gauge = s.gauge)) ∧
  Sys2Proof.Claims.Served .probeRead 0x0901 (Sys2Proof.Claims.without 10) Sys2Proof.Claims.never 4 4 (fun b rq s =>
    let p := rq.payload
    let head := (p.getD 0 0).toNat
    let n := (p.getD 1 0).toNat
    let a := leAt p 2 2
    let far := !s.tw.pbWidth.getLsbD head && decide (0x100 ≤ a)
    (3 < head → exec (.probeRead b) s = .next (s.answer b .badParam [0])) ∧
    (head ≤ 3 → n = 0 ∨ 238 < n → exec (.probeRead b) s = .next (s.answer b .badParam [1])) ∧
    (head ≤ 3 → 1 ≤ n → n ≤ 238 → far = true → exec (.probeRead b) s = .next (s.answer b .badParam [2])) ∧
    (head ≤ 3 → 1 ≤ n → n ≤ 238 → far = false → s.tw.probe.isSome = true →
      exec (.probeRead b) s = .next (s.answer b .resourceHeld [])) ∧
    (head ≤ 3 → 1 ≤ n → n ≤ 238 → far = false → s.tw.probe = none → ∃ t, exec (.probeRead b) s = .next t ∧
      t.tw = { s.tw with probe := some { berth := b, write := false, head, addr := a, wide := s.tw.pbWidth.getLsbD head
                                         data := [], count := n, held := s.link.window.isSome } } ∧
      t.berths.blk[b].cur = some { rq with waiting := true } ∧ t.berths.mem = s.berths.mem ∧ t.log = s.log ∧
      (s.isOn .hif = true → t.dom = s.dom))) ∧
  Sys2Proof.Claims.Served .probeWrite 0x0902 (Sys2Proof.Claims.without 10) Sys2Proof.Claims.never 5 68 (fun b rq s =>
    let p := rq.payload
    let head := (p.getD 0 0).toNat
    let a := leAt p 2 2
    let size := 8 * 2 ^ (s.tw.pbPage.toNat / 4 ^ head % 4)
    let far := !s.tw.pbWidth.getLsbD head && decide (0x100 ≤ a)
    (3 < head → exec (.probeWrite b) s = .next (s.answer b .badParam [0])) ∧
    (head ≤ 3 → p.getD 1 0 ≠ 0 → exec (.probeWrite b) s = .next (s.answer b .badParam [1])) ∧
    (head ≤ 3 → p.getD 1 0 = 0 → far = true → exec (.probeWrite b) s = .next (s.answer b .badParam [2])) ∧
    (head ≤ 3 → p.getD 1 0 = 0 → far = false → size < a % size + (p.length - 4) →
      exec (.probeWrite b) s = .next (s.answer b .badParam [0xFF])) ∧
    (head ≤ 3 → p.getD 1 0 = 0 → far = false → a % size + (p.length - 4) ≤ size → s.tw.probe.isSome = true →
      exec (.probeWrite b) s = .next (s.answer b .resourceHeld [])) ∧
    (head ≤ 3 → p.getD 1 0 = 0 → far = false → a % size + (p.length - 4) ≤ size → s.tw.probe = none →
      ∃ t, exec (.probeWrite b) s = .next t ∧
      t.tw = { s.tw with probe := some { berth := b, write := true, head, addr := a, wide := s.tw.pbWidth.getLsbD head
                                         data := p.drop 4, count := p.length - 4, held := s.link.window.isSome } } ∧
      t.berths.blk[b].cur = some { rq with waiting := true } ∧ t.berths.mem = s.berths.mem ∧ t.log = s.log ∧
      (s.isOn .hif = true → t.dom = s.dom)))

/-- Firmware is updated, and probe transfers are commanded. The model's choices that this rests on: logs 14 and 36. -/
def Obligations.FirmwareUpdateAndProbe : Prop :=
  Sys2Proof.Claims.FirmwareIsUpdated ∧
  Sys2Proof.Claims.ProbeTransfersAreCommanded
end

