-- ==== Sys2Proof/Laws/State.lean ====
section
/-! SUPPORT. One lemma per field per update of the state, true by rfl: what an update of one part leaves of every other
part, so that no proof unfolds a record update. -/

namespace Sys2Proof.Machine

variable (s : State)


/-! ## onLine -/

@[simp] theorem State.onLine_line (f : LineDie → LineDie) : (s.onLine f).line = f s.line := rfl
@[simp] theorem State.onLine_link (f : LineDie → LineDie) : (s.onLine f).link = s.link := rfl
@[simp] theorem State.onLine_power (f : LineDie → LineDie) : (s.onLine f).power = s.power := rfl
@[simp] theorem State.onLine_cal (f : LineDie → LineDie) : (s.onLine f).cal = s.cal := rfl
@[simp] theorem State.onLine_trim (f : LineDie → LineDie) : (s.onLine f).trim = s.trim := rfl
@[simp] theorem State.onLine_bin (f : LineDie → LineDie) : (s.onLine f).bin = s.bin := rfl
@[simp] theorem State.onLine_dom (f : LineDie → LineDie) : (s.onLine f).dom = s.dom := rfl
@[simp] theorem State.onLine_spi (f : LineDie → LineDie) : (s.onLine f).spi = s.spi := rfl
@[simp] theorem State.onLine_tw (f : LineDie → LineDie) : (s.onLine f).tw = s.tw := rfl
@[simp] theorem State.onLine_ev (f : LineDie → LineDie) : (s.onLine f).ev = s.ev := rfl
@[simp] theorem State.onLine_berths (f : LineDie → LineDie) : (s.onLine f).berths = s.berths := rfl
@[simp] theorem State.onLine_flash (f : LineDie → LineDie) : (s.onLine f).flash = s.flash := rfl
@[simp] theorem State.onLine_log (f : LineDie → LineDie) : (s.onLine f).log = s.log := rfl
@[simp] theorem State.onLine_gauge (f : LineDie → LineDie) : (s.onLine f).gauge = s.gauge := rfl
@[simp] theorem State.onLine_fw (f : LineDie → LineDie) : (s.onLine f).fw = s.fw := rfl
@[simp] theorem State.onLine_free (f : LineDie → LineDie) : (s.onLine f).free = s.free := rfl
@[simp] theorem State.onLine_pending (f : LineDie → LineDie) : (s.onLine f).pending = s.pending := rfl

/-! ## onLink -/

@[simp] theorem State.onLink_line (f : Link → Link) : (s.onLink f).line = s.line := rfl
@[simp] theorem State.onLink_link (f : Link → Link) : (s.onLink f).link = f s.link := rfl
@[simp] theorem State.onLink_power (f : Link → Link) : (s.onLink f).power = s.power := rfl
@[simp] theorem State.onLink_cal (f : Link → Link) : (s.onLink f).cal = s.cal := rfl
@[simp] theorem State.onLink_trim (f : Link → Link) : (s.onLink f).trim = s.trim := rfl
@[simp] theorem State.onLink_bin (f : Link → Link) : (s.onLink f).bin = s.bin := rfl
@[simp] theorem State.onLink_dom (f : Link → Link) : (s.onLink f).dom = s.dom := rfl
@[simp] theorem State.onLink_spi (f : Link → Link) : (s.onLink f).spi = s.spi := rfl
@[simp] theorem State.onLink_tw (f : Link → Link) : (s.onLink f).tw = s.tw := rfl
@[simp] theorem State.onLink_ev (f : Link → Link) : (s.onLink f).ev = s.ev := rfl
@[simp] theorem State.onLink_berths (f : Link → Link) : (s.onLink f).berths = s.berths := rfl
@[simp] theorem State.onLink_flash (f : Link → Link) : (s.onLink f).flash = s.flash := rfl
@[simp] theorem State.onLink_log (f : Link → Link) : (s.onLink f).log = s.log := rfl
@[simp] theorem State.onLink_gauge (f : Link → Link) : (s.onLink f).gauge = s.gauge := rfl
@[simp] theorem State.onLink_fw (f : Link → Link) : (s.onLink f).fw = s.fw := rfl
@[simp] theorem State.onLink_free (f : Link → Link) : (s.onLink f).free = s.free := rfl
@[simp] theorem State.onLink_pending (f : Link → Link) : (s.onLink f).pending = s.pending := rfl

/-! ## onPower -/

@[simp] theorem State.onPower_line (f : Power → Power) : (s.onPower f).line = s.line := rfl
@[simp] theorem State.onPower_link (f : Power → Power) : (s.onPower f).link = s.link := rfl
@[simp] theorem State.onPower_power (f : Power → Power) : (s.onPower f).power = f s.power := rfl
@[simp] theorem State.onPower_cal (f : Power → Power) : (s.onPower f).cal = s.cal := rfl
@[simp] theorem State.onPower_trim (f : Power → Power) : (s.onPower f).trim = s.trim := rfl
@[simp] theorem State.onPower_bin (f : Power → Power) : (s.onPower f).bin = s.bin := rfl
@[simp] theorem State.onPower_dom (f : Power → Power) : (s.onPower f).dom = s.dom := rfl
@[simp] theorem State.onPower_spi (f : Power → Power) : (s.onPower f).spi = s.spi := rfl
@[simp] theorem State.onPower_tw (f : Power → Power) : (s.onPower f).tw = s.tw := rfl
@[simp] theorem State.onPower_ev (f : Power → Power) : (s.onPower f).ev = s.ev := rfl
@[simp] theorem State.onPower_berths (f : Power → Power) : (s.onPower f).berths = s.berths := rfl
@[simp] theorem State.onPower_flash (f : Power → Power) : (s.onPower f).flash = s.flash := rfl
@[simp] theorem State.onPower_log (f : Power → Power) : (s.onPower f).log = s.log := rfl
@[simp] theorem State.onPower_gauge (f : Power → Power) : (s.onPower f).gauge = s.gauge := rfl
@[simp] theorem State.onPower_fw (f : Power → Power) : (s.onPower f).fw = s.fw := rfl
@[simp] theorem State.onPower_free (f : Power → Power) : (s.onPower f).free = s.free := rfl
@[simp] theorem State.onPower_pending (f : Power → Power) : (s.onPower f).pending = s.pending := rfl

/-! ## onCal -/

@[simp] theorem State.onCal_line (f : Cal → Cal) : (s.onCal f).line = s.line := rfl
@[simp] theorem State.onCal_link (f : Cal → Cal) : (s.onCal f).link = s.link := rfl
@[simp] theorem State.onCal_power (f : Cal → Cal) : (s.onCal f).power = s.power := rfl
@[simp] theorem State.onCal_cal (f : Cal → Cal) : (s.onCal f).cal = f s.cal := rfl
@[simp] theorem State.onCal_trim (f : Cal → Cal) : (s.onCal f).trim = s.trim := rfl
@[simp] theorem State.onCal_bin (f : Cal → Cal) : (s.onCal f).bin = s.bin := rfl
@[simp] theorem State.onCal_dom (f : Cal → Cal) : (s.onCal f).dom = s.dom := rfl
@[simp] theorem State.onCal_spi (f : Cal → Cal) : (s.onCal f).spi = s.spi := rfl
@[simp] theorem State.onCal_tw (f : Cal → Cal) : (s.onCal f).tw = s.tw := rfl
@[simp] theorem State.onCal_ev (f : Cal → Cal) : (s.onCal f).ev = s.ev := rfl
@[simp] theorem State.onCal_berths (f : Cal → Cal) : (s.onCal f).berths = s.berths := rfl
@[simp] theorem State.onCal_flash (f : Cal → Cal) : (s.onCal f).flash = s.flash := rfl
@[simp] theorem State.onCal_log (f : Cal → Cal) : (s.onCal f).log = s.log := rfl
@[simp] theorem State.onCal_gauge (f : Cal → Cal) : (s.onCal f).gauge = s.gauge := rfl
@[simp] theorem State.onCal_fw (f : Cal → Cal) : (s.onCal f).fw = s.fw := rfl
@[simp] theorem State.onCal_free (f : Cal → Cal) : (s.onCal f).free = s.free := rfl
@[simp] theorem State.onCal_pending (f : Cal → Cal) : (s.onCal f).pending = s.pending := rfl

/-! ## onTrim -/

@[simp] theorem State.onTrim_line (f : Trim → Trim) : (s.onTrim f).line = s.line := rfl
@[simp] theorem State.onTrim_link (f : Trim → Trim) : (s.onTrim f).link = s.link := rfl
@[simp] theorem State.onTrim_power (f : Trim → Trim) : (s.onTrim f).power = s.power := rfl
@[simp] theorem State.onTrim_cal (f : Trim → Trim) : (s.onTrim f).cal = s.cal := rfl
@[simp] theorem State.onTrim_trim (f : Trim → Trim) : (s.onTrim f).trim = f s.trim := rfl
@[simp] theorem State.onTrim_bin (f : Trim → Trim) : (s.onTrim f).bin = s.bin := rfl
@[simp] theorem State.onTrim_dom (f : Trim → Trim) : (s.onTrim f).dom = s.dom := rfl
@[simp] theorem State.onTrim_spi (f : Trim → Trim) : (s.onTrim f).spi = s.spi := rfl
@[simp] theorem State.onTrim_tw (f : Trim → Trim) : (s.onTrim f).tw = s.tw := rfl
@[simp] theorem State.onTrim_ev (f : Trim → Trim) : (s.onTrim f).ev = s.ev := rfl
@[simp] theorem State.onTrim_berths (f : Trim → Trim) : (s.onTrim f).berths = s.berths := rfl
@[simp] theorem State.onTrim_flash (f : Trim → Trim) : (s.onTrim f).flash = s.flash := rfl
@[simp] theorem State.onTrim_log (f : Trim → Trim) : (s.onTrim f).log = s.log := rfl
@[simp] theorem State.onTrim_gauge (f : Trim → Trim) : (s.onTrim f).gauge = s.gauge := rfl
@[simp] theorem State.onTrim_fw (f : Trim → Trim) : (s.onTrim f).fw = s.fw := rfl
@[simp] theorem State.onTrim_free (f : Trim → Trim) : (s.onTrim f).free = s.free := rfl
@[simp] theorem State.onTrim_pending (f : Trim → Trim) : (s.onTrim f).pending = s.pending := rfl

/-! ## onBin -/

@[simp] theorem State.onBin_line (f : BinIo → BinIo) : (s.onBin f).line = s.line := rfl
@[simp] theorem State.onBin_link (f : BinIo → BinIo) : (s.onBin f).link = s.link := rfl
@[simp] theorem State.onBin_power (f : BinIo → BinIo) : (s.onBin f).power = s.power := rfl
@[simp] theorem State.onBin_cal (f : BinIo → BinIo) : (s.onBin f).cal = s.cal := rfl
@[simp] theorem State.onBin_trim (f : BinIo → BinIo) : (s.onBin f).trim = s.trim := rfl
@[simp] theorem State.onBin_bin (f : BinIo → BinIo) : (s.onBin f).bin = f s.bin := rfl
@[simp] theorem State.onBin_dom (f : BinIo → BinIo) : (s.onBin f).dom = s.dom := rfl
@[simp] theorem State.onBin_spi (f : BinIo → BinIo) : (s.onBin f).spi = s.spi := rfl
@[simp] theorem State.onBin_tw (f : BinIo → BinIo) : (s.onBin f).tw = s.tw := rfl
@[simp] theorem State.onBin_ev (f : BinIo → BinIo) : (s.onBin f).ev = s.ev := rfl
@[simp] theorem State.onBin_berths (f : BinIo → BinIo) : (s.onBin f).berths = s.berths := rfl
@[simp] theorem State.onBin_flash (f : BinIo → BinIo) : (s.onBin f).flash = s.flash := rfl
@[simp] theorem State.onBin_log (f : BinIo → BinIo) : (s.onBin f).log = s.log := rfl
@[simp] theorem State.onBin_gauge (f : BinIo → BinIo) : (s.onBin f).gauge = s.gauge := rfl
@[simp] theorem State.onBin_fw (f : BinIo → BinIo) : (s.onBin f).fw = s.fw := rfl
@[simp] theorem State.onBin_free (f : BinIo → BinIo) : (s.onBin f).free = s.free := rfl
@[simp] theorem State.onBin_pending (f : BinIo → BinIo) : (s.onBin f).pending = s.pending := rfl

/-! ## onDom -/

@[simp] theorem State.onDom_line (f : Domains → Domains) : (s.onDom f).line = s.line := rfl
@[simp] theorem State.onDom_link (f : Domains → Domains) : (s.onDom f).link = s.link := rfl
@[simp] theorem State.onDom_power (f : Domains → Domains) : (s.onDom f).power = s.power := rfl
@[simp] theorem State.onDom_cal (f : Domains → Domains) : (s.onDom f).cal = s.cal := rfl
@[simp] theorem State.onDom_trim (f : Domains → Domains) : (s.onDom f).trim = s.trim := rfl
@[simp] theorem State.onDom_bin (f : Domains → Domains) : (s.onDom f).bin = s.bin := rfl
@[simp] theorem State.onDom_dom (f : Domains → Domains) : (s.onDom f).dom = f s.dom := rfl
@[simp] theorem State.onDom_spi (f : Domains → Domains) : (s.onDom f).spi = s.spi := rfl
@[simp] theorem State.onDom_tw (f : Domains → Domains) : (s.onDom f).tw = s.tw := rfl
@[simp] theorem State.onDom_ev (f : Domains → Domains) : (s.onDom f).ev = s.ev := rfl
@[simp] theorem State.onDom_berths (f : Domains → Domains) : (s.onDom f).berths = s.berths := rfl
@[simp] theorem State.onDom_flash (f : Domains → Domains) : (s.onDom f).flash = s.flash := rfl
@[simp] theorem State.onDom_log (f : Domains → Domains) : (s.onDom f).log = s.log := rfl
@[simp] theorem State.onDom_gauge (f : Domains → Domains) : (s.onDom f).gauge = s.gauge := rfl
@[simp] theorem State.onDom_fw (f : Domains → Domains) : (s.onDom f).fw = s.fw := rfl
@[simp] theorem State.onDom_free (f : Domains → Domains) : (s.onDom f).free = s.free := rfl
@[simp] theorem State.onDom_pending (f : Domains → Domains) : (s.onDom f).pending = s.pending := rfl

/-! ## onSpi -/

@[simp] theorem State.onSpi_line (f : Spi → Spi) : (s.onSpi f).line = s.line := rfl
@[simp] theorem State.onSpi_link (f : Spi → Spi) : (s.onSpi f).link = s.link := rfl
@[simp] theorem State.onSpi_power (f : Spi → Spi) : (s.onSpi f).power = s.power := rfl
@[simp] theorem State.onSpi_cal (f : Spi → Spi) : (s.onSpi f).cal = s.cal := rfl
@[simp] theorem State.onSpi_trim (f : Spi → Spi) : (s.onSpi f).trim = s.trim := rfl
@[simp] theorem State.onSpi_bin (f : Spi → Spi) : (s.onSpi f).bin = s.bin := rfl
@[simp] theorem State.onSpi_dom (f : Spi → Spi) : (s.onSpi f).dom = s.dom := rfl
@[simp] theorem State.onSpi_spi (f : Spi → Spi) : (s.onSpi f).spi = f s.spi := rfl
@[simp] theorem State.onSpi_tw (f : Spi → Spi) : (s.onSpi f).tw = s.tw := rfl
@[simp] theorem State.onSpi_ev (f : Spi → Spi) : (s.onSpi f).ev = s.ev := rfl
@[simp] theorem State.onSpi_berths (f : Spi → Spi) : (s.onSpi f).berths = s.berths := rfl
@[simp] theorem State.onSpi_flash (f : Spi → Spi) : (s.onSpi f).flash = s.flash := rfl
@[simp] theorem State.onSpi_log (f : Spi → Spi) : (s.onSpi f).log = s.log := rfl
@[simp] theorem State.onSpi_gauge (f : Spi → Spi) : (s.onSpi f).gauge = s.gauge := rfl
@[simp] theorem State.onSpi_fw (f : Spi → Spi) : (s.onSpi f).fw = s.fw := rfl
@[simp] theorem State.onSpi_free (f : Spi → Spi) : (s.onSpi f).free = s.free := rfl
@[simp] theorem State.onSpi_pending (f : Spi → Spi) : (s.onSpi f).pending = s.pending := rfl

/-! ## onTw -/

@[simp] theorem State.onTw_line (f : Tw → Tw) : (s.onTw f).line = s.line := rfl
@[simp] theorem State.onTw_link (f : Tw → Tw) : (s.onTw f).link = s.link := rfl
@[simp] theorem State.onTw_power (f : Tw → Tw) : (s.onTw f).power = s.power := rfl
@[simp] theorem State.onTw_cal (f : Tw → Tw) : (s.onTw f).cal = s.cal := rfl
@[simp] theorem State.onTw_trim (f : Tw → Tw) : (s.onTw f).trim = s.trim := rfl
@[simp] theorem State.onTw_bin (f : Tw → Tw) : (s.onTw f).bin = s.bin := rfl
@[simp] theorem State.onTw_dom (f : Tw → Tw) : (s.onTw f).dom = s.dom := rfl
@[simp] theorem State.onTw_spi (f : Tw → Tw) : (s.onTw f).spi = s.spi := rfl
@[simp] theorem State.onTw_tw (f : Tw → Tw) : (s.onTw f).tw = f s.tw := rfl
@[simp] theorem State.onTw_ev (f : Tw → Tw) : (s.onTw f).ev = s.ev := rfl
@[simp] theorem State.onTw_berths (f : Tw → Tw) : (s.onTw f).berths = s.berths := rfl
@[simp] theorem State.onTw_flash (f : Tw → Tw) : (s.onTw f).flash = s.flash := rfl
@[simp] theorem State.onTw_log (f : Tw → Tw) : (s.onTw f).log = s.log := rfl
@[simp] theorem State.onTw_gauge (f : Tw → Tw) : (s.onTw f).gauge = s.gauge := rfl
@[simp] theorem State.onTw_fw (f : Tw → Tw) : (s.onTw f).fw = s.fw := rfl
@[simp] theorem State.onTw_free (f : Tw → Tw) : (s.onTw f).free = s.free := rfl
@[simp] theorem State.onTw_pending (f : Tw → Tw) : (s.onTw f).pending = s.pending := rfl

/-! ## onEv -/

@[simp] theorem State.onEv_line (f : Events → Events) : (s.onEv f).line = s.line := rfl
@[simp] theorem State.onEv_link (f : Events → Events) : (s.onEv f).link = s.link := rfl
@[simp] theorem State.onEv_power (f : Events → Events) : (s.onEv f).power = s.power := rfl
@[simp] theorem State.onEv_cal (f : Events → Events) : (s.onEv f).cal = s.cal := rfl
@[simp] theorem State.onEv_trim (f : Events → Events) : (s.onEv f).trim = s.trim := rfl
@[simp] theorem State.onEv_bin (f : Events → Events) : (s.onEv f).bin = s.bin := rfl
@[simp] theorem State.onEv_dom (f : Events → Events) : (s.onEv f).dom = s.dom := rfl
@[simp] theorem State.onEv_spi (f : Events → Events) : (s.onEv f).spi = s.spi := rfl
@[simp] theorem State.onEv_tw (f : Events → Events) : (s.onEv f).tw = s.tw := rfl
@[simp] theorem State.onEv_ev (f : Events → Events) : (s.onEv f).ev = f s.ev := rfl
@[simp] theorem State.onEv_berths (f : Events → Events) : (s.onEv f).berths = s.berths := rfl
@[simp] theorem State.onEv_flash (f : Events → Events) : (s.onEv f).flash = s.flash := rfl
@[simp] theorem State.onEv_log (f : Events → Events) : (s.onEv f).log = s.log := rfl
@[simp] theorem State.onEv_gauge (f : Events → Events) : (s.onEv f).gauge = s.gauge := rfl
@[simp] theorem State.onEv_fw (f : Events → Events) : (s.onEv f).fw = s.fw := rfl
@[simp] theorem State.onEv_free (f : Events → Events) : (s.onEv f).free = s.free := rfl
@[simp] theorem State.onEv_pending (f : Events → Events) : (s.onEv f).pending = s.pending := rfl

/-! ## onBerths -/

@[simp] theorem State.onBerths_line (f : Berths → Berths) : (s.onBerths f).line = s.line := rfl
@[simp] theorem State.onBerths_link (f : Berths → Berths) : (s.onBerths f).link = s.link := rfl
@[simp] theorem State.onBerths_power (f : Berths → Berths) : (s.onBerths f).power = s.power := rfl
@[simp] theorem State.onBerths_cal (f : Berths → Berths) : (s.onBerths f).cal = s.cal := rfl
@[simp] theorem State.onBerths_trim (f : Berths → Berths) : (s.onBerths f).trim = s.trim := rfl
@[simp] theorem State.onBerths_bin (f : Berths → Berths) : (s.onBerths f).bin = s.bin := rfl
@[simp] theorem State.onBerths_dom (f : Berths → Berths) : (s.onBerths f).dom = s.dom := rfl
@[simp] theorem State.onBerths_spi (f : Berths → Berths) : (s.onBerths f).spi = s.spi := rfl
@[simp] theorem State.onBerths_tw (f : Berths → Berths) : (s.onBerths f).tw = s.tw := rfl
@[simp] theorem State.onBerths_ev (f : Berths → Berths) : (s.onBerths f).ev = s.ev := rfl
@[simp] theorem State.onBerths_berths (f : Berths → Berths) : (s.onBerths f).berths = f s.berths := rfl
@[simp] theorem State.onBerths_flash (f : Berths → Berths) : (s.onBerths f).flash = s.flash := rfl
@[simp] theorem State.onBerths_log (f : Berths → Berths) : (s.onBerths f).log = s.log := rfl
@[simp] theorem State.onBerths_gauge (f : Berths → Berths) : (s.onBerths f).gauge = s.gauge := rfl
@[simp] theorem State.onBerths_fw (f : Berths → Berths) : (s.onBerths f).fw = s.fw := rfl
@[simp] theorem State.onBerths_free (f : Berths → Berths) : (s.onBerths f).free = s.free := rfl
@[simp] theorem State.onBerths_pending (f : Berths → Berths) : (s.onBerths f).pending = s.pending := rfl

/-! ## onFlash -/

@[simp] theorem State.onFlash_line (f : Flash → Flash) : (s.onFlash f).line = s.line := rfl
@[simp] theorem State.onFlash_link (f : Flash → Flash) : (s.onFlash f).link = s.link := rfl
@[simp] theorem State.onFlash_power (f : Flash → Flash) : (s.onFlash f).power = s.power := rfl
@[simp] theorem State.onFlash_cal (f : Flash → Flash) : (s.onFlash f).cal = s.cal := rfl
@[simp] theorem State.onFlash_trim (f : Flash → Flash) : (s.onFlash f).trim = s.trim := rfl
@[simp] theorem State.onFlash_bin (f : Flash → Flash) : (s.onFlash f).bin = s.bin := rfl
@[simp] theorem State.onFlash_dom (f : Flash → Flash) : (s.onFlash f).dom = s.dom := rfl
@[simp] theorem State.onFlash_spi (f : Flash → Flash) : (s.onFlash f).spi = s.spi := rfl
@[simp] theorem State.onFlash_tw (f : Flash → Flash) : (s.onFlash f).tw = s.tw := rfl
@[simp] theorem State.onFlash_ev (f : Flash → Flash) : (s.onFlash f).ev = s.ev := rfl
@[simp] theorem State.onFlash_berths (f : Flash → Flash) : (s.onFlash f).berths = s.berths := rfl
@[simp] theorem State.onFlash_flash (f : Flash → Flash) : (s.onFlash f).flash = f s.flash := rfl
@[simp] theorem State.onFlash_log (f : Flash → Flash) : (s.onFlash f).log = s.log := rfl
@[simp] theorem State.onFlash_gauge (f : Flash → Flash) : (s.onFlash f).gauge = s.gauge := rfl
@[simp] theorem State.onFlash_fw (f : Flash → Flash) : (s.onFlash f).fw = s.fw := rfl
@[simp] theorem State.onFlash_free (f : Flash → Flash) : (s.onFlash f).free = s.free := rfl
@[simp] theorem State.onFlash_pending (f : Flash → Flash) : (s.onFlash f).pending = s.pending := rfl

/-! ## onLog -/

@[simp] theorem State.onLog_line (f : Log → Log) : (s.onLog f).line = s.line := rfl
@[simp] theorem State.onLog_link (f : Log → Log) : (s.onLog f).link = s.link := rfl
@[simp] theorem State.onLog_power (f : Log → Log) : (s.onLog f).power = s.power := rfl
@[simp] theorem State.onLog_cal (f : Log → Log) : (s.onLog f).cal = s.cal := rfl
@[simp] theorem State.onLog_trim (f : Log → Log) : (s.onLog f).trim = s.trim := rfl
@[simp] theorem State.onLog_bin (f : Log → Log) : (s.onLog f).bin = s.bin := rfl
@[simp] theorem State.onLog_dom (f : Log → Log) : (s.onLog f).dom = s.dom := rfl
@[simp] theorem State.onLog_spi (f : Log → Log) : (s.onLog f).spi = s.spi := rfl
@[simp] theorem State.onLog_tw (f : Log → Log) : (s.onLog f).tw = s.tw := rfl
@[simp] theorem State.onLog_ev (f : Log → Log) : (s.onLog f).ev = s.ev := rfl
@[simp] theorem State.onLog_berths (f : Log → Log) : (s.onLog f).berths = s.berths := rfl
@[simp] theorem State.onLog_flash (f : Log → Log) : (s.onLog f).flash = s.flash := rfl
@[simp] theorem State.onLog_log (f : Log → Log) : (s.onLog f).log = f s.log := rfl
@[simp] theorem State.onLog_gauge (f : Log → Log) : (s.onLog f).gauge = s.gauge := rfl
@[simp] theorem State.onLog_fw (f : Log → Log) : (s.onLog f).fw = s.fw := rfl
@[simp] theorem State.onLog_free (f : Log → Log) : (s.onLog f).free = s.free := rfl
@[simp] theorem State.onLog_pending (f : Log → Log) : (s.onLog f).pending = s.pending := rfl

/-! ## onGauge -/

@[simp] theorem State.onGauge_line (f : Gauge → Gauge) : (s.onGauge f).line = s.line := rfl
@[simp] theorem State.onGauge_link (f : Gauge → Gauge) : (s.onGauge f).link = s.link := rfl
@[simp] theorem State.onGauge_power (f : Gauge → Gauge) : (s.onGauge f).power = s.power := rfl
@[simp] theorem State.onGauge_cal (f : Gauge → Gauge) : (s.onGauge f).cal = s.cal := rfl
@[simp] theorem State.onGauge_trim (f : Gauge → Gauge) : (s.onGauge f).trim = s.trim := rfl
@[simp] theorem State.onGauge_bin (f : Gauge → Gauge) : (s.onGauge f).bin = s.bin := rfl
@[simp] theorem State.onGauge_dom (f : Gauge → Gauge) : (s.onGauge f).dom = s.dom := rfl
@[simp] theorem State.onGauge_spi (f : Gauge → Gauge) : (s.onGauge f).spi = s.spi := rfl
@[simp] theorem State.onGauge_tw (f : Gauge → Gauge) : (s.onGauge f).tw = s.tw := rfl
@[simp] theorem State.onGauge_ev (f : Gauge → Gauge) : (s.onGauge f).ev = s.ev := rfl
@[simp] theorem State.onGauge_berths (f : Gauge → Gauge) : (s.onGauge f).berths = s.berths := rfl
@[simp] theorem State.onGauge_flash (f : Gauge → Gauge) : (s.onGauge f).flash = s.flash := rfl
@[simp] theorem State.onGauge_log (f : Gauge → Gauge) : (s.onGauge f).log = s.log := rfl
@[simp] theorem State.onGauge_gauge (f : Gauge → Gauge) : (s.onGauge f).gauge = f s.gauge := rfl
@[simp] theorem State.onGauge_fw (f : Gauge → Gauge) : (s.onGauge f).fw = s.fw := rfl
@[simp] theorem State.onGauge_free (f : Gauge → Gauge) : (s.onGauge f).free = s.free := rfl
@[simp] theorem State.onGauge_pending (f : Gauge → Gauge) : (s.onGauge f).pending = s.pending := rfl

/-! ## onFw -/

@[simp] theorem State.onFw_line (f : Firmware → Firmware) : (s.onFw f).line = s.line := rfl
@[simp] theorem State.onFw_link (f : Firmware → Firmware) : (s.onFw f).link = s.link := rfl
@[simp] theorem State.onFw_power (f : Firmware → Firmware) : (s.onFw f).power = s.power := rfl
@[simp] theorem State.onFw_cal (f : Firmware → Firmware) : (s.onFw f).cal = s.cal := rfl
@[simp] theorem State.onFw_trim (f : Firmware → Firmware) : (s.onFw f).trim = s.trim := rfl
@[simp] theorem State.onFw_bin (f : Firmware → Firmware) : (s.onFw f).bin = s.bin := rfl
@[simp] theorem State.onFw_dom (f : Firmware → Firmware) : (s.onFw f).dom = s.dom := rfl
@[simp] theorem State.onFw_spi (f : Firmware → Firmware) : (s.onFw f).spi = s.spi := rfl
@[simp] theorem State.onFw_tw (f : Firmware → Firmware) : (s.onFw f).tw = s.tw := rfl
@[simp] theorem State.onFw_ev (f : Firmware → Firmware) : (s.onFw f).ev = s.ev := rfl
@[simp] theorem State.onFw_berths (f : Firmware → Firmware) : (s.onFw f).berths = s.berths := rfl
@[simp] theorem State.onFw_flash (f : Firmware → Firmware) : (s.onFw f).flash = s.flash := rfl
@[simp] theorem State.onFw_log (f : Firmware → Firmware) : (s.onFw f).log = s.log := rfl
@[simp] theorem State.onFw_gauge (f : Firmware → Firmware) : (s.onFw f).gauge = s.gauge := rfl
@[simp] theorem State.onFw_fw (f : Firmware → Firmware) : (s.onFw f).fw = f s.fw := rfl
@[simp] theorem State.onFw_free (f : Firmware → Firmware) : (s.onFw f).free = s.free := rfl
@[simp] theorem State.onFw_pending (f : Firmware → Firmware) : (s.onFw f).pending = s.pending := rfl

/-! ## onBerth -/

@[simp] theorem State.onBerth_line (b : Fin 4) (f : Berth → Berth) : (s.onBerth b f).line = s.line := rfl
@[simp] theorem State.onBerth_link (b : Fin 4) (f : Berth → Berth) : (s.onBerth b f).link = s.link := rfl
@[simp] theorem State.onBerth_power (b : Fin 4) (f : Berth → Berth) : (s.onBerth b f).power = s.power := rfl
@[simp] theorem State.onBerth_cal (b : Fin 4) (f : Berth → Berth) : (s.onBerth b f).cal = s.cal := rfl
@[simp] theorem State.onBerth_trim (b : Fin 4) (f : Berth → Berth) : (s.onBerth b f).trim = s.trim := rfl
@[simp] theorem State.onBerth_bin (b : Fin 4) (f : Berth → Berth) : (s.onBerth b f).bin = s.bin := rfl
@[simp] theorem State.onBerth_dom (b : Fin 4) (f : Berth → Berth) : (s.onBerth b f).dom = s.dom := rfl
@[simp] theorem State.onBerth_spi (b : Fin 4) (f : Berth → Berth) : (s.onBerth b f).spi = s.spi := rfl
@[simp] theorem State.onBerth_tw (b : Fin 4) (f : Berth → Berth) : (s.onBerth b f).tw = s.tw := rfl
@[simp] theorem State.onBerth_ev (b : Fin 4) (f : Berth → Berth) : (s.onBerth b f).ev = s.ev := rfl
@[simp] theorem State.onBerth_flash (b : Fin 4) (f : Berth → Berth) : (s.onBerth b f).flash = s.flash := rfl
@[simp] theorem State.onBerth_log (b : Fin 4) (f : Berth → Berth) : (s.onBerth b f).log = s.log := rfl
@[simp] theorem State.onBerth_gauge (b : Fin 4) (f : Berth → Berth) : (s.onBerth b f).gauge = s.gauge := rfl
@[simp] theorem State.onBerth_fw (b : Fin 4) (f : Berth → Berth) : (s.onBerth b f).fw = s.fw := rfl
@[simp] theorem State.onBerth_free (b : Fin 4) (f : Berth → Berth) : (s.onBerth b f).free = s.free := rfl
@[simp] theorem State.onBerth_pending (b : Fin 4) (f : Berth → Berth) : (s.onBerth b f).pending = s.pending := rfl

@[simp] theorem State.onBerth_mem (b : Fin 4) (f : Berth → Berth) : (s.onBerth b f).berths.mem = s.berths.mem := rfl
@[simp] theorem State.onBerth_av (b : Fin 4) (f : Berth → Berth) : (s.onBerth b f).berths.av = s.berths.av := rfl
@[simp] theorem State.onBerth_blk (b : Fin 4) (f : Berth → Berth) :
    (s.onBerth b f).berths.blk = s.berths.blk.set b (f s.berths.blk[b]) := rfl

/-- The changed berth's block. -/
@[simp] theorem State.onBerth_same (b : Fin 4) (f : Berth → Berth) : (s.onBerth b f).berth b = f (s.berth b) := by
  simp [State.berth, State.onBerth, State.onBerths]

/-- Every other berth's block stays. -/
theorem State.onBerth_other (b n : Fin 4) (h : b ≠ n) (f : Berth → Berth) : (s.onBerth b f).berth n = s.berth n := by
  have : b.val ≠ n.val := fun e => h (Fin.ext e)
  simp [State.berth, State.onBerth, State.onBerths, this]

/-! ## when -/

@[simp] theorem State.when_true (f : State → State) : s.when true f = f s := rfl
@[simp] theorem State.when_false (f : State → State) : s.when false f = s := rfl

/-- A conditional change keeps a part that the change keeps. -/
theorem State.when_keeps {α : Type} (g : State → α) (c : Bool) (f : State → State) (h : g (f s) = g s) :
    g (s.when c f) = g s := by
  cases c
  · rfl
  · exact h

end Sys2Proof.Machine
end

