-- ==== Sys2Proof/Laws/Frames.lean ====
section
/-! SUPPORT. What each shared operation leaves alone, said once: one lemma per operation and part that it cannot touch. The
first lemma of each operation that writes the raise latch says what it writes there. -/

namespace Sys2Proof.Machine

variable (x : State)

/-- What a wake leaves alone, by what bringing a domain ON leaves alone. -/
theorem State.wake_part {α : Type} (f : State → α) (hd : ∀ (y : State) g, f (y.onDom g) = f y)
    (hb : ∀ (y : State) d, f (y.bringOn d) = f y) (k : Nat) (ds : List Domain) : f (x.wake k ds) = f x := by
  unfold State.wake
  split
  · generalize h : x.onDom _ = y
    have hy : f y = f x := by rw [← h, hd]
    clear h
    induction ds generalizing y with
    | nil => exact hy
    | cons d ds ih => exact ih _ ((hb y d).trans hy)
  · rfl

/-! ## startOn -/

@[simp] theorem State.startOn_line (d : Domain) : (x.startOn d).line = x.line := rfl
@[simp] theorem State.startOn_link (d : Domain) : (x.startOn d).link = x.link := rfl
@[simp] theorem State.startOn_power (d : Domain) : (x.startOn d).power = x.power := rfl
@[simp] theorem State.startOn_cal (d : Domain) : (x.startOn d).cal = x.cal := rfl
@[simp] theorem State.startOn_trim (d : Domain) : (x.startOn d).trim = x.trim := rfl
@[simp] theorem State.startOn_bin (d : Domain) : (x.startOn d).bin = x.bin := rfl
@[simp] theorem State.startOn_spi (d : Domain) : (x.startOn d).spi = x.spi := rfl
@[simp] theorem State.startOn_tw (d : Domain) : (x.startOn d).tw = x.tw := rfl
@[simp] theorem State.startOn_ev (d : Domain) : (x.startOn d).ev = x.ev := rfl
@[simp] theorem State.startOn_berths (d : Domain) : (x.startOn d).berths = x.berths := rfl
@[simp] theorem State.startOn_flash (d : Domain) : (x.startOn d).flash = x.flash := rfl
@[simp] theorem State.startOn_log (d : Domain) : (x.startOn d).log = x.log := rfl
@[simp] theorem State.startOn_gauge (d : Domain) : (x.startOn d).gauge = x.gauge := rfl
@[simp] theorem State.startOn_fw (d : Domain) : (x.startOn d).fw = x.fw := rfl
@[simp] theorem State.startOn_free (d : Domain) : (x.startOn d).free = x.free := rfl
@[simp] theorem State.startOn_pending (d : Domain) : (x.startOn d).pending = x.pending := rfl

/-! ## bringOn -/

@[simp] theorem State.bringOn_line (d : Domain) : (x.bringOn d).line = x.line := by cases d <;> rfl
@[simp] theorem State.bringOn_link (d : Domain) : (x.bringOn d).link = x.link := by cases d <;> rfl
@[simp] theorem State.bringOn_power (d : Domain) : (x.bringOn d).power = x.power := by cases d <;> rfl
@[simp] theorem State.bringOn_cal (d : Domain) : (x.bringOn d).cal = x.cal := by cases d <;> rfl
@[simp] theorem State.bringOn_trim (d : Domain) : (x.bringOn d).trim = x.trim := by cases d <;> rfl
@[simp] theorem State.bringOn_bin (d : Domain) : (x.bringOn d).bin = x.bin := by cases d <;> rfl
@[simp] theorem State.bringOn_spi (d : Domain) : (x.bringOn d).spi = x.spi := by cases d <;> rfl
@[simp] theorem State.bringOn_tw (d : Domain) : (x.bringOn d).tw = x.tw := by cases d <;> rfl
@[simp] theorem State.bringOn_ev (d : Domain) : (x.bringOn d).ev = x.ev := by cases d <;> rfl
@[simp] theorem State.bringOn_berths (d : Domain) : (x.bringOn d).berths = x.berths := by cases d <;> rfl
@[simp] theorem State.bringOn_flash (d : Domain) : (x.bringOn d).flash = x.flash := by cases d <;> rfl
@[simp] theorem State.bringOn_log (d : Domain) : (x.bringOn d).log = x.log := by cases d <;> rfl
@[simp] theorem State.bringOn_gauge (d : Domain) : (x.bringOn d).gauge = x.gauge := by cases d <;> rfl
@[simp] theorem State.bringOn_fw (d : Domain) : (x.bringOn d).fw = x.fw := by cases d <;> rfl
@[simp] theorem State.bringOn_free (d : Domain) : (x.bringOn d).free = x.free := by cases d <;> rfl
@[simp] theorem State.bringOn_pending (d : Domain) : (x.bringOn d).pending = x.pending := by cases d <;> rfl

/-! ## wake -/

@[simp] theorem State.wake_line (k : Nat) (ds : List Domain) : (x.wake k ds).line = x.line :=
    x.wake_part (·.line) (fun _ _ => rfl) (fun y d => y.bringOn_line d) k ds
@[simp] theorem State.wake_link (k : Nat) (ds : List Domain) : (x.wake k ds).link = x.link :=
    x.wake_part (·.link) (fun _ _ => rfl) (fun y d => y.bringOn_link d) k ds
@[simp] theorem State.wake_power (k : Nat) (ds : List Domain) : (x.wake k ds).power = x.power :=
    x.wake_part (·.power) (fun _ _ => rfl) (fun y d => y.bringOn_power d) k ds
@[simp] theorem State.wake_cal (k : Nat) (ds : List Domain) : (x.wake k ds).cal = x.cal :=
    x.wake_part (·.cal) (fun _ _ => rfl) (fun y d => y.bringOn_cal d) k ds
@[simp] theorem State.wake_trim (k : Nat) (ds : List Domain) : (x.wake k ds).trim = x.trim :=
    x.wake_part (·.trim) (fun _ _ => rfl) (fun y d => y.bringOn_trim d) k ds
@[simp] theorem State.wake_bin (k : Nat) (ds : List Domain) : (x.wake k ds).bin = x.bin :=
    x.wake_part (·.bin) (fun _ _ => rfl) (fun y d => y.bringOn_bin d) k ds
@[simp] theorem State.wake_spi (k : Nat) (ds : List Domain) : (x.wake k ds).spi = x.spi :=
    x.wake_part (·.spi) (fun _ _ => rfl) (fun y d => y.bringOn_spi d) k ds
@[simp] theorem State.wake_tw (k : Nat) (ds : List Domain) : (x.wake k ds).tw = x.tw :=
    x.wake_part (·.tw) (fun _ _ => rfl) (fun y d => y.bringOn_tw d) k ds
@[simp] theorem State.wake_ev (k : Nat) (ds : List Domain) : (x.wake k ds).ev = x.ev :=
    x.wake_part (·.ev) (fun _ _ => rfl) (fun y d => y.bringOn_ev d) k ds
@[simp] theorem State.wake_berths (k : Nat) (ds : List Domain) : (x.wake k ds).berths = x.berths :=
    x.wake_part (·.berths) (fun _ _ => rfl) (fun y d => y.bringOn_berths d) k ds
@[simp] theorem State.wake_flash (k : Nat) (ds : List Domain) : (x.wake k ds).flash = x.flash :=
    x.wake_part (·.flash) (fun _ _ => rfl) (fun y d => y.bringOn_flash d) k ds
@[simp] theorem State.wake_log (k : Nat) (ds : List Domain) : (x.wake k ds).log = x.log :=
    x.wake_part (·.log) (fun _ _ => rfl) (fun y d => y.bringOn_log d) k ds
@[simp] theorem State.wake_gauge (k : Nat) (ds : List Domain) : (x.wake k ds).gauge = x.gauge :=
    x.wake_part (·.gauge) (fun _ _ => rfl) (fun y d => y.bringOn_gauge d) k ds
@[simp] theorem State.wake_fw (k : Nat) (ds : List Domain) : (x.wake k ds).fw = x.fw :=
    x.wake_part (·.fw) (fun _ _ => rfl) (fun y d => y.bringOn_fw d) k ds
@[simp] theorem State.wake_free (k : Nat) (ds : List Domain) : (x.wake k ds).free = x.free :=
    x.wake_part (·.free) (fun _ _ => rfl) (fun y d => y.bringOn_free d) k ds
@[simp] theorem State.wake_pending (k : Nat) (ds : List Domain) : (x.wake k ds).pending = x.pending :=
    x.wake_part (·.pending) (fun _ _ => rfl) (fun y d => y.bringOn_pending d) k ds

/-! ## raise -/

@[simp] theorem State.raise_line (e : Nat) : (x.raise e).line = x.line :=
    by unfold State.raise State.when; split <;> simp
@[simp] theorem State.raise_link (e : Nat) : (x.raise e).link = x.link :=
    by unfold State.raise State.when; split <;> simp
@[simp] theorem State.raise_power (e : Nat) : (x.raise e).power = x.power :=
    by unfold State.raise State.when; split <;> simp
@[simp] theorem State.raise_cal (e : Nat) : (x.raise e).cal = x.cal :=
    by unfold State.raise State.when; split <;> simp
@[simp] theorem State.raise_trim (e : Nat) : (x.raise e).trim = x.trim :=
    by unfold State.raise State.when; split <;> simp
@[simp] theorem State.raise_bin (e : Nat) : (x.raise e).bin = x.bin :=
    by unfold State.raise State.when; split <;> simp
@[simp] theorem State.raise_spi (e : Nat) : (x.raise e).spi = x.spi :=
    by unfold State.raise State.when; split <;> simp
@[simp] theorem State.raise_tw (e : Nat) : (x.raise e).tw = x.tw :=
    by unfold State.raise State.when; split <;> simp
@[simp] theorem State.raise_berths (e : Nat) : (x.raise e).berths = x.berths :=
    by unfold State.raise State.when; split <;> simp
@[simp] theorem State.raise_flash (e : Nat) : (x.raise e).flash = x.flash :=
    by unfold State.raise State.when; split <;> simp
@[simp] theorem State.raise_log (e : Nat) : (x.raise e).log = x.log :=
    by unfold State.raise State.when; split <;> simp
@[simp] theorem State.raise_gauge (e : Nat) : (x.raise e).gauge = x.gauge :=
    by unfold State.raise State.when; split <;> simp
@[simp] theorem State.raise_fw (e : Nat) : (x.raise e).fw = x.fw :=
    by unfold State.raise State.when; split <;> simp
@[simp] theorem State.raise_free (e : Nat) : (x.raise e).free = x.free :=
    by unfold State.raise State.when; split <;> simp
@[simp] theorem State.raise_pending (e : Nat) : (x.raise e).pending = x.pending :=
    by unfold State.raise State.when; split <;> simp

@[simp] theorem State.raise_ev (e : Nat) : (x.raise e).ev = { x.ev with raised := x.ev.raised ||| (1#96 <<< e) } := by
  have hw : ∀ (y : State) k ds, (y.wake k ds).ev = y.ev := fun y k ds =>
    y.wake_part (·.ev) (fun _ _ => rfl) (fun z d => by cases d <;> rfl) k ds
  unfold State.raise State.when
  split
  · rw [hw]; rfl
  · rfl

/-- The latch after a raise, bit by bit. -/
theorem latch_bit (v : BitVec 96) (e n : Nat) (he : e < 96) :
    (v ||| 1#96 <<< e).getLsbD n = (v.getLsbD n || decide (n = e)) := by
  rw [BitVec.getLsbD_or, BitVec.getLsbD_shiftLeft, BitVec.getLsbD_one]
  by_cases h : n = e
  · subst h; simp [he]
  · by_cases h1 : n < e
    · simp [h, h1]
    · have : n - e ≠ 0 := by omega
      simp [h, this]

/-! ## raiseWhenHif -/

@[simp] theorem State.raiseWhenHif_line (e : Nat) : (x.raiseWhenHif e).line = x.line :=
    by unfold State.raiseWhenHif; split <;> simp
@[simp] theorem State.raiseWhenHif_link (e : Nat) : (x.raiseWhenHif e).link = x.link :=
    by unfold State.raiseWhenHif; split <;> simp
@[simp] theorem State.raiseWhenHif_power (e : Nat) : (x.raiseWhenHif e).power = x.power :=
    by unfold State.raiseWhenHif; split <;> simp
@[simp] theorem State.raiseWhenHif_cal (e : Nat) : (x.raiseWhenHif e).cal = x.cal :=
    by unfold State.raiseWhenHif; split <;> simp
@[simp] theorem State.raiseWhenHif_trim (e : Nat) : (x.raiseWhenHif e).trim = x.trim :=
    by unfold State.raiseWhenHif; split <;> simp
@[simp] theorem State.raiseWhenHif_bin (e : Nat) : (x.raiseWhenHif e).bin = x.bin :=
    by unfold State.raiseWhenHif; split <;> simp
@[simp] theorem State.raiseWhenHif_spi (e : Nat) : (x.raiseWhenHif e).spi = x.spi :=
    by unfold State.raiseWhenHif; split <;> simp
@[simp] theorem State.raiseWhenHif_tw (e : Nat) : (x.raiseWhenHif e).tw = x.tw :=
    by unfold State.raiseWhenHif; split <;> simp
@[simp] theorem State.raiseWhenHif_berths (e : Nat) : (x.raiseWhenHif e).berths = x.berths :=
    by unfold State.raiseWhenHif; split <;> simp
@[simp] theorem State.raiseWhenHif_flash (e : Nat) : (x.raiseWhenHif e).flash = x.flash :=
    by unfold State.raiseWhenHif; split <;> simp
@[simp] theorem State.raiseWhenHif_log (e : Nat) : (x.raiseWhenHif e).log = x.log :=
    by unfold State.raiseWhenHif; split <;> simp
@[simp] theorem State.raiseWhenHif_gauge (e : Nat) : (x.raiseWhenHif e).gauge = x.gauge :=
    by unfold State.raiseWhenHif; split <;> simp
@[simp] theorem State.raiseWhenHif_fw (e : Nat) : (x.raiseWhenHif e).fw = x.fw :=
    by unfold State.raiseWhenHif; split <;> simp
@[simp] theorem State.raiseWhenHif_free (e : Nat) : (x.raiseWhenHif e).free = x.free :=
    by unfold State.raiseWhenHif; split <;> simp
@[simp] theorem State.raiseWhenHif_pending (e : Nat) : (x.raiseWhenHif e).pending = x.pending :=
    by unfold State.raiseWhenHif; split <;> simp

/-! ## sysonAuto -/

@[simp] theorem State.sysonAuto_line (k : Nat) : (x.sysonAuto k).line = x.line := rfl
@[simp] theorem State.sysonAuto_link (k : Nat) : (x.sysonAuto k).link = x.link := rfl
@[simp] theorem State.sysonAuto_power (k : Nat) : (x.sysonAuto k).power = x.power := rfl
@[simp] theorem State.sysonAuto_cal (k : Nat) : (x.sysonAuto k).cal = x.cal := rfl
@[simp] theorem State.sysonAuto_trim (k : Nat) : (x.sysonAuto k).trim = x.trim := rfl
@[simp] theorem State.sysonAuto_dom (k : Nat) : (x.sysonAuto k).dom = x.dom := rfl
@[simp] theorem State.sysonAuto_spi (k : Nat) : (x.sysonAuto k).spi = x.spi := rfl
@[simp] theorem State.sysonAuto_tw (k : Nat) : (x.sysonAuto k).tw = x.tw := rfl
@[simp] theorem State.sysonAuto_ev (k : Nat) : (x.sysonAuto k).ev = x.ev := rfl
@[simp] theorem State.sysonAuto_berths (k : Nat) : (x.sysonAuto k).berths = x.berths := rfl
@[simp] theorem State.sysonAuto_flash (k : Nat) : (x.sysonAuto k).flash = x.flash := rfl
@[simp] theorem State.sysonAuto_log (k : Nat) : (x.sysonAuto k).log = x.log := rfl
@[simp] theorem State.sysonAuto_gauge (k : Nat) : (x.sysonAuto k).gauge = x.gauge := rfl
@[simp] theorem State.sysonAuto_fw (k : Nat) : (x.sysonAuto k).fw = x.fw := rfl
@[simp] theorem State.sysonAuto_free (k : Nat) : (x.sysonAuto k).free = x.free := rfl
@[simp] theorem State.sysonAuto_pending (k : Nat) : (x.sysonAuto k).pending = x.pending := rfl

/-! ## need -/

@[simp] theorem State.need_line (d : Domain) : (x.need d).line = x.line := by unfold State.need; split <;> simp
@[simp] theorem State.need_link (d : Domain) : (x.need d).link = x.link := by unfold State.need; split <;> simp
@[simp] theorem State.need_power (d : Domain) : (x.need d).power = x.power := by unfold State.need; split <;> simp
@[simp] theorem State.need_cal (d : Domain) : (x.need d).cal = x.cal := by unfold State.need; split <;> simp
@[simp] theorem State.need_trim (d : Domain) : (x.need d).trim = x.trim := by unfold State.need; split <;> simp
@[simp] theorem State.need_bin (d : Domain) : (x.need d).bin = x.bin := by unfold State.need; split <;> simp
@[simp] theorem State.need_spi (d : Domain) : (x.need d).spi = x.spi := by unfold State.need; split <;> simp
@[simp] theorem State.need_tw (d : Domain) : (x.need d).tw = x.tw := by unfold State.need; split <;> simp
@[simp] theorem State.need_ev (d : Domain) : (x.need d).ev = x.ev := by unfold State.need; split <;> simp
@[simp] theorem State.need_berths (d : Domain) : (x.need d).berths = x.berths := by unfold State.need; split <;> simp
@[simp] theorem State.need_flash (d : Domain) : (x.need d).flash = x.flash := by unfold State.need; split <;> simp
@[simp] theorem State.need_log (d : Domain) : (x.need d).log = x.log := by unfold State.need; split <;> simp
@[simp] theorem State.need_gauge (d : Domain) : (x.need d).gauge = x.gauge := by unfold State.need; split <;> simp
@[simp] theorem State.need_fw (d : Domain) : (x.need d).fw = x.fw := by unfold State.need; split <;> simp
@[simp] theorem State.need_free (d : Domain) : (x.need d).free = x.free := by unfold State.need; split <;> simp
@[simp] theorem State.need_pending (d : Domain) : (x.need d).pending = x.pending := by unfold State.need; split <;> simp

/-! ## stampFso -/

@[simp] theorem State.stampFso_line (w : Fso) : (x.stampFso w).line = x.line := rfl
@[simp] theorem State.stampFso_link (w : Fso) : (x.stampFso w).link = x.link := rfl
@[simp] theorem State.stampFso_power (w : Fso) : (x.stampFso w).power = x.power := rfl
@[simp] theorem State.stampFso_cal (w : Fso) : (x.stampFso w).cal = x.cal := rfl
@[simp] theorem State.stampFso_trim (w : Fso) : (x.stampFso w).trim = x.trim := rfl
@[simp] theorem State.stampFso_dom (w : Fso) : (x.stampFso w).dom = x.dom := rfl
@[simp] theorem State.stampFso_spi (w : Fso) : (x.stampFso w).spi = x.spi := rfl
@[simp] theorem State.stampFso_tw (w : Fso) : (x.stampFso w).tw = x.tw := rfl
@[simp] theorem State.stampFso_ev (w : Fso) : (x.stampFso w).ev = x.ev := rfl
@[simp] theorem State.stampFso_berths (w : Fso) : (x.stampFso w).berths = x.berths := rfl
@[simp] theorem State.stampFso_flash (w : Fso) : (x.stampFso w).flash = x.flash := rfl
@[simp] theorem State.stampFso_log (w : Fso) : (x.stampFso w).log = x.log := rfl
@[simp] theorem State.stampFso_gauge (w : Fso) : (x.stampFso w).gauge = x.gauge := rfl
@[simp] theorem State.stampFso_fw (w : Fso) : (x.stampFso w).fw = x.fw := rfl
@[simp] theorem State.stampFso_free (w : Fso) : (x.stampFso w).free = x.free := rfl
@[simp] theorem State.stampFso_pending (w : Fso) : (x.stampFso w).pending = x.pending := rfl

/-! ## trimAbort -/

@[simp] theorem State.trimAbort_line (c : Nat) : (x.trimAbort c).line = x.line :=
    by unfold State.trimAbort; split <;> first | rfl | (dsimp only; split <;> simp)
@[simp] theorem State.trimAbort_link (c : Nat) : (x.trimAbort c).link = x.link :=
    by unfold State.trimAbort; split <;> first | rfl | (dsimp only; split <;> simp)
@[simp] theorem State.trimAbort_power (c : Nat) : (x.trimAbort c).power = x.power :=
    by unfold State.trimAbort; split <;> first | rfl | (dsimp only; split <;> simp)
@[simp] theorem State.trimAbort_cal (c : Nat) : (x.trimAbort c).cal = x.cal :=
    by unfold State.trimAbort; split <;> first | rfl | (dsimp only; split <;> simp)
@[simp] theorem State.trimAbort_bin (c : Nat) : (x.trimAbort c).bin = x.bin :=
    by unfold State.trimAbort; split <;> first | rfl | (dsimp only; split <;> simp)
@[simp] theorem State.trimAbort_spi (c : Nat) : (x.trimAbort c).spi = x.spi :=
    by unfold State.trimAbort; split <;> first | rfl | (dsimp only; split <;> simp)
@[simp] theorem State.trimAbort_tw (c : Nat) : (x.trimAbort c).tw = x.tw :=
    by unfold State.trimAbort; split <;> first | rfl | (dsimp only; split <;> simp)
@[simp] theorem State.trimAbort_berths (c : Nat) : (x.trimAbort c).berths = x.berths :=
    by unfold State.trimAbort; split <;> first | rfl | (dsimp only; split <;> simp)
@[simp] theorem State.trimAbort_flash (c : Nat) : (x.trimAbort c).flash = x.flash :=
    by unfold State.trimAbort; split <;> first | rfl | (dsimp only; split <;> simp)
@[simp] theorem State.trimAbort_log (c : Nat) : (x.trimAbort c).log = x.log :=
    by unfold State.trimAbort; split <;> first | rfl | (dsimp only; split <;> simp)
@[simp] theorem State.trimAbort_gauge (c : Nat) : (x.trimAbort c).gauge = x.gauge :=
    by unfold State.trimAbort; split <;> first | rfl | (dsimp only; split <;> simp)
@[simp] theorem State.trimAbort_free (c : Nat) : (x.trimAbort c).free = x.free :=
    by unfold State.trimAbort; split <;> first | rfl | (dsimp only; split <;> simp)
@[simp] theorem State.trimAbort_pending (c : Nat) : (x.trimAbort c).pending = x.pending :=
    by unfold State.trimAbort; split <;> first | rfl | (dsimp only; split <;> simp)

/-! ## linkLeavesUp -/

@[simp] theorem State.linkLeavesUp_line : x.linkLeavesUp.line = x.line := by unfold State.linkLeavesUp; split <;> simp
@[simp] theorem State.linkLeavesUp_power : x.linkLeavesUp.power = x.power := by unfold State.linkLeavesUp; split <;> simp
@[simp] theorem State.linkLeavesUp_cal : x.linkLeavesUp.cal = x.cal := by unfold State.linkLeavesUp; split <;> simp
@[simp] theorem State.linkLeavesUp_bin : x.linkLeavesUp.bin = x.bin := by unfold State.linkLeavesUp; split <;> simp
@[simp] theorem State.linkLeavesUp_spi : x.linkLeavesUp.spi = x.spi := by unfold State.linkLeavesUp; split <;> simp
@[simp] theorem State.linkLeavesUp_tw : x.linkLeavesUp.tw = x.tw := by unfold State.linkLeavesUp; split <;> simp
@[simp] theorem State.linkLeavesUp_berths : x.linkLeavesUp.berths = x.berths := by unfold State.linkLeavesUp; split <;> simp
@[simp] theorem State.linkLeavesUp_flash : x.linkLeavesUp.flash = x.flash := by unfold State.linkLeavesUp; split <;> simp
@[simp] theorem State.linkLeavesUp_log : x.linkLeavesUp.log = x.log := by unfold State.linkLeavesUp; split <;> simp
@[simp] theorem State.linkLeavesUp_gauge : x.linkLeavesUp.gauge = x.gauge := by unfold State.linkLeavesUp; split <;> simp
@[simp] theorem State.linkLeavesUp_free : x.linkLeavesUp.free = x.free := by unfold State.linkLeavesUp; split <;> simp
@[simp] theorem State.linkLeavesUp_pending : x.linkLeavesUp.pending = x.pending :=
    by unfold State.linkLeavesUp; split <;> simp

/-! ## chargerFollows -/

@[simp] theorem State.chargerFollows_line : x.chargerFollows.line = x.line := rfl
@[simp] theorem State.chargerFollows_link : x.chargerFollows.link = x.link := rfl
@[simp] theorem State.chargerFollows_cal : x.chargerFollows.cal = x.cal := rfl
@[simp] theorem State.chargerFollows_trim : x.chargerFollows.trim = x.trim := rfl
@[simp] theorem State.chargerFollows_bin : x.chargerFollows.bin = x.bin := rfl
@[simp] theorem State.chargerFollows_dom : x.chargerFollows.dom = x.dom := rfl
@[simp] theorem State.chargerFollows_spi : x.chargerFollows.spi = x.spi := rfl
@[simp] theorem State.chargerFollows_tw : x.chargerFollows.tw = x.tw := rfl
@[simp] theorem State.chargerFollows_ev : x.chargerFollows.ev = x.ev := rfl
@[simp] theorem State.chargerFollows_berths : x.chargerFollows.berths = x.berths := rfl
@[simp] theorem State.chargerFollows_flash : x.chargerFollows.flash = x.flash := rfl
@[simp] theorem State.chargerFollows_log : x.chargerFollows.log = x.log := rfl
@[simp] theorem State.chargerFollows_gauge : x.chargerFollows.gauge = x.gauge := rfl
@[simp] theorem State.chargerFollows_fw : x.chargerFollows.fw = x.fw := rfl
@[simp] theorem State.chargerFollows_free : x.chargerFollows.free = x.free := rfl
@[simp] theorem State.chargerFollows_pending : x.chargerFollows.pending = x.pending := rfl

/-! ## closeWindow -/

@[simp] theorem State.closeWindow_line : x.closeWindow.line = x.line := rfl
@[simp] theorem State.closeWindow_cal : x.closeWindow.cal = x.cal := rfl
@[simp] theorem State.closeWindow_trim : x.closeWindow.trim = x.trim := rfl
@[simp] theorem State.closeWindow_bin : x.closeWindow.bin = x.bin := rfl
@[simp] theorem State.closeWindow_dom : x.closeWindow.dom = x.dom := rfl
@[simp] theorem State.closeWindow_spi : x.closeWindow.spi = x.spi := rfl
@[simp] theorem State.closeWindow_ev : x.closeWindow.ev = x.ev := rfl
@[simp] theorem State.closeWindow_berths : x.closeWindow.berths = x.berths := rfl
@[simp] theorem State.closeWindow_flash : x.closeWindow.flash = x.flash := rfl
@[simp] theorem State.closeWindow_log : x.closeWindow.log = x.log := rfl
@[simp] theorem State.closeWindow_gauge : x.closeWindow.gauge = x.gauge := rfl
@[simp] theorem State.closeWindow_fw : x.closeWindow.fw = x.fw := rfl
@[simp] theorem State.closeWindow_free : x.closeWindow.free = x.free := rfl
@[simp] theorem State.closeWindow_pending : x.closeWindow.pending = x.pending := rfl

/-! ## logWrite -/

@[simp] theorem State.logWrite_line (k b : Byte) (st : BitVec 64) (d : List Byte) : (x.logWrite k b st d).line = x.line :=
    rfl
@[simp] theorem State.logWrite_link (k b : Byte) (st : BitVec 64) (d : List Byte) : (x.logWrite k b st d).link = x.link :=
    rfl
@[simp] theorem State.logWrite_power (k b : Byte) (st : BitVec 64) (d : List Byte) : (x.logWrite k b st d).power = x.power :=
    rfl
@[simp] theorem State.logWrite_cal (k b : Byte) (st : BitVec 64) (d : List Byte) : (x.logWrite k b st d).cal = x.cal := rfl
@[simp] theorem State.logWrite_trim (k b : Byte) (st : BitVec 64) (d : List Byte) : (x.logWrite k b st d).trim = x.trim :=
    rfl
@[simp] theorem State.logWrite_bin (k b : Byte) (st : BitVec 64) (d : List Byte) : (x.logWrite k b st d).bin = x.bin := rfl
@[simp] theorem State.logWrite_dom (k b : Byte) (st : BitVec 64) (d : List Byte) : (x.logWrite k b st d).dom = x.dom := rfl
@[simp] theorem State.logWrite_spi (k b : Byte) (st : BitVec 64) (d : List Byte) : (x.logWrite k b st d).spi = x.spi := rfl
@[simp] theorem State.logWrite_tw (k b : Byte) (st : BitVec 64) (d : List Byte) : (x.logWrite k b st d).tw = x.tw := rfl
@[simp] theorem State.logWrite_ev (k b : Byte) (st : BitVec 64) (d : List Byte) : (x.logWrite k b st d).ev = x.ev := rfl
@[simp] theorem State.logWrite_berths (k b : Byte) (st : BitVec 64) (d : List Byte) : (x.logWrite k b st d).berths = x.berths :=
    rfl
@[simp] theorem State.logWrite_flash (k b : Byte) (st : BitVec 64) (d : List Byte) : (x.logWrite k b st d).flash = x.flash :=
    rfl
@[simp] theorem State.logWrite_log (k b : Byte) (st : BitVec 64) (d : List Byte) : (x.logWrite k b st d).log = x.log := rfl
@[simp] theorem State.logWrite_gauge (k b : Byte) (st : BitVec 64) (d : List Byte) : (x.logWrite k b st d).gauge = x.gauge :=
    rfl
@[simp] theorem State.logWrite_free (k b : Byte) (st : BitVec 64) (d : List Byte) : (x.logWrite k b st d).free = x.free :=
    rfl
@[simp] theorem State.logWrite_pending (k b : Byte) (st : BitVec 64) (d : List Byte) : (x.logWrite k b st d).pending = x.pending :=
    rfl

/-! ## putRecord -/

@[simp] theorem State.putRecord_line (r : Rec) : (x.putRecord r).line = x.line :=
    by unfold State.putRecord; dsimp only; split <;> (simp only [State.when]; split <;> simp)
@[simp] theorem State.putRecord_link (r : Rec) : (x.putRecord r).link = x.link :=
    by unfold State.putRecord; dsimp only; split <;> (simp only [State.when]; split <;> simp)
@[simp] theorem State.putRecord_power (r : Rec) : (x.putRecord r).power = x.power :=
    by unfold State.putRecord; dsimp only; split <;> (simp only [State.when]; split <;> simp)
@[simp] theorem State.putRecord_cal (r : Rec) : (x.putRecord r).cal = x.cal :=
    by unfold State.putRecord; dsimp only; split <;> (simp only [State.when]; split <;> simp)
@[simp] theorem State.putRecord_trim (r : Rec) : (x.putRecord r).trim = x.trim :=
    by unfold State.putRecord; dsimp only; split <;> (simp only [State.when]; split <;> simp)
@[simp] theorem State.putRecord_bin (r : Rec) : (x.putRecord r).bin = x.bin :=
    by unfold State.putRecord; dsimp only; split <;> (simp only [State.when]; split <;> simp)
@[simp] theorem State.putRecord_spi (r : Rec) : (x.putRecord r).spi = x.spi :=
    by unfold State.putRecord; dsimp only; split <;> (simp only [State.when]; split <;> simp)
@[simp] theorem State.putRecord_tw (r : Rec) : (x.putRecord r).tw = x.tw :=
    by unfold State.putRecord; dsimp only; split <;> (simp only [State.when]; split <;> simp)
@[simp] theorem State.putRecord_flash (r : Rec) : (x.putRecord r).flash = x.flash :=
    by unfold State.putRecord; dsimp only; split <;> (simp only [State.when]; split <;> simp)
@[simp] theorem State.putRecord_log (r : Rec) : (x.putRecord r).log = x.log :=
    by unfold State.putRecord; dsimp only; split <;> (simp only [State.when]; split <;> simp)
@[simp] theorem State.putRecord_gauge (r : Rec) : (x.putRecord r).gauge = x.gauge :=
    by unfold State.putRecord; dsimp only; split <;> (simp only [State.when]; split <;> simp)
@[simp] theorem State.putRecord_fw (r : Rec) : (x.putRecord r).fw = x.fw :=
    by unfold State.putRecord; dsimp only; split <;> (simp only [State.when]; split <;> simp)
@[simp] theorem State.putRecord_free (r : Rec) : (x.putRecord r).free = x.free :=
    by unfold State.putRecord; dsimp only; split <;> (simp only [State.when]; split <;> simp)
@[simp] theorem State.putRecord_pending (r : Rec) : (x.putRecord r).pending = x.pending :=
    by unfold State.putRecord; dsimp only; split <;> (simp only [State.when]; split <;> simp)

/-! ## record -/

@[simp] theorem State.record_line (b : Fin 4) (st : BitVec 64) (ty pa fl : Byte) (pl : List Byte) : (x.record b st ty pa fl pl).line = x.line :=
    by unfold State.record; split <;> simp [State.when, apply_ite]
@[simp] theorem State.record_link (b : Fin 4) (st : BitVec 64) (ty pa fl : Byte) (pl : List Byte) : (x.record b st ty pa fl pl).link = x.link :=
    by unfold State.record; split <;> simp [State.when, apply_ite]
@[simp] theorem State.record_power (b : Fin 4) (st : BitVec 64) (ty pa fl : Byte) (pl : List Byte) : (x.record b st ty pa fl pl).power = x.power :=
    by unfold State.record; split <;> simp [State.when, apply_ite]
@[simp] theorem State.record_cal (b : Fin 4) (st : BitVec 64) (ty pa fl : Byte) (pl : List Byte) : (x.record b st ty pa fl pl).cal = x.cal :=
    by unfold State.record; split <;> simp [State.when, apply_ite]
@[simp] theorem State.record_trim (b : Fin 4) (st : BitVec 64) (ty pa fl : Byte) (pl : List Byte) : (x.record b st ty pa fl pl).trim = x.trim :=
    by unfold State.record; split <;> simp [State.when, apply_ite]
@[simp] theorem State.record_bin (b : Fin 4) (st : BitVec 64) (ty pa fl : Byte) (pl : List Byte) : (x.record b st ty pa fl pl).bin = x.bin :=
    by unfold State.record; split <;> simp [State.when, apply_ite]
@[simp] theorem State.record_spi (b : Fin 4) (st : BitVec 64) (ty pa fl : Byte) (pl : List Byte) : (x.record b st ty pa fl pl).spi = x.spi :=
    by unfold State.record; split <;> simp [State.when, apply_ite]
@[simp] theorem State.record_tw (b : Fin 4) (st : BitVec 64) (ty pa fl : Byte) (pl : List Byte) : (x.record b st ty pa fl pl).tw = x.tw :=
    by unfold State.record; split <;> simp [State.when, apply_ite]
@[simp] theorem State.record_flash (b : Fin 4) (st : BitVec 64) (ty pa fl : Byte) (pl : List Byte) : (x.record b st ty pa fl pl).flash = x.flash :=
    by unfold State.record; split <;> simp [State.when, apply_ite]
@[simp] theorem State.record_log (b : Fin 4) (st : BitVec 64) (ty pa fl : Byte) (pl : List Byte) : (x.record b st ty pa fl pl).log = x.log :=
    by unfold State.record; split <;> simp [State.when, apply_ite]
@[simp] theorem State.record_gauge (b : Fin 4) (st : BitVec 64) (ty pa fl : Byte) (pl : List Byte) : (x.record b st ty pa fl pl).gauge = x.gauge :=
    by unfold State.record; split <;> simp [State.when, apply_ite]
@[simp] theorem State.record_free (b : Fin 4) (st : BitVec 64) (ty pa fl : Byte) (pl : List Byte) : (x.record b st ty pa fl pl).free = x.free :=
    by unfold State.record; split <;> simp [State.when, apply_ite]
@[simp] theorem State.record_pending (b : Fin 4) (st : BitVec 64) (ty pa fl : Byte) (pl : List Byte) : (x.record b st ty pa fl pl).pending = x.pending :=
    by unfold State.record; split <;> simp [State.when, apply_ite]

/-! ## gaugeRecord -/

@[simp] theorem State.gaugeRecord_line (k : Nat) (ty : Byte) (c : Bool) (pl : List Byte) : (x.gaugeRecord k ty c pl).line = x.line :=
    by unfold State.gaugeRecord; split <;> first | rfl | (split <;> simp)
@[simp] theorem State.gaugeRecord_link (k : Nat) (ty : Byte) (c : Bool) (pl : List Byte) : (x.gaugeRecord k ty c pl).link = x.link :=
    by unfold State.gaugeRecord; split <;> first | rfl | (split <;> simp)
@[simp] theorem State.gaugeRecord_power (k : Nat) (ty : Byte) (c : Bool) (pl : List Byte) : (x.gaugeRecord k ty c pl).power = x.power :=
    by unfold State.gaugeRecord; split <;> first | rfl | (split <;> simp)
@[simp] theorem State.gaugeRecord_cal (k : Nat) (ty : Byte) (c : Bool) (pl : List Byte) : (x.gaugeRecord k ty c pl).cal = x.cal :=
    by unfold State.gaugeRecord; split <;> first | rfl | (split <;> simp)
@[simp] theorem State.gaugeRecord_trim (k : Nat) (ty : Byte) (c : Bool) (pl : List Byte) : (x.gaugeRecord k ty c pl).trim = x.trim :=
    by unfold State.gaugeRecord; split <;> first | rfl | (split <;> simp)
@[simp] theorem State.gaugeRecord_bin (k : Nat) (ty : Byte) (c : Bool) (pl : List Byte) : (x.gaugeRecord k ty c pl).bin = x.bin :=
    by unfold State.gaugeRecord; split <;> first | rfl | (split <;> simp)
@[simp] theorem State.gaugeRecord_spi (k : Nat) (ty : Byte) (c : Bool) (pl : List Byte) : (x.gaugeRecord k ty c pl).spi = x.spi :=
    by unfold State.gaugeRecord; split <;> first | rfl | (split <;> simp)
@[simp] theorem State.gaugeRecord_tw (k : Nat) (ty : Byte) (c : Bool) (pl : List Byte) : (x.gaugeRecord k ty c pl).tw = x.tw :=
    by unfold State.gaugeRecord; split <;> first | rfl | (split <;> simp)
@[simp] theorem State.gaugeRecord_flash (k : Nat) (ty : Byte) (c : Bool) (pl : List Byte) : (x.gaugeRecord k ty c pl).flash = x.flash :=
    by unfold State.gaugeRecord; split <;> first | rfl | (split <;> simp)
@[simp] theorem State.gaugeRecord_log (k : Nat) (ty : Byte) (c : Bool) (pl : List Byte) : (x.gaugeRecord k ty c pl).log = x.log :=
    by unfold State.gaugeRecord; split <;> first | rfl | (split <;> simp)
@[simp] theorem State.gaugeRecord_gauge (k : Nat) (ty : Byte) (c : Bool) (pl : List Byte) : (x.gaugeRecord k ty c pl).gauge = x.gauge :=
    by unfold State.gaugeRecord; split <;> first | rfl | (split <;> simp)
@[simp] theorem State.gaugeRecord_free (k : Nat) (ty : Byte) (c : Bool) (pl : List Byte) : (x.gaugeRecord k ty c pl).free = x.free :=
    by unfold State.gaugeRecord; split <;> first | rfl | (split <;> simp)
@[simp] theorem State.gaugeRecord_pending (k : Nat) (ty : Byte) (c : Bool) (pl : List Byte) : (x.gaugeRecord k ty c pl).pending = x.pending :=
    by unfold State.gaugeRecord; split <;> first | rfl | (split <;> simp)

/-! ## learnDisq -/

@[simp] theorem State.learnDisq_line (c : Nat) : (x.learnDisq c).line = x.line := by
  unfold State.learnDisq
  split
  · simp only [State.when]; split <;> simp [State.fill, apply_ite]
  · split <;> rfl
  · rfl
@[simp] theorem State.learnDisq_link (c : Nat) : (x.learnDisq c).link = x.link := by
  unfold State.learnDisq
  split
  · simp only [State.when]; split <;> simp [State.fill, apply_ite]
  · split <;> rfl
  · rfl
@[simp] theorem State.learnDisq_power (c : Nat) : (x.learnDisq c).power = x.power := by
  unfold State.learnDisq
  split
  · simp only [State.when]; split <;> simp [State.fill, apply_ite]
  · split <;> rfl
  · rfl
@[simp] theorem State.learnDisq_cal (c : Nat) : (x.learnDisq c).cal = x.cal := by
  unfold State.learnDisq
  split
  · simp only [State.when]; split <;> simp [State.fill, apply_ite]
  · split <;> rfl
  · rfl
@[simp] theorem State.learnDisq_trim (c : Nat) : (x.learnDisq c).trim = x.trim := by
  unfold State.learnDisq
  split
  · simp only [State.when]; split <;> simp [State.fill, apply_ite]
  · split <;> rfl
  · rfl
@[simp] theorem State.learnDisq_bin (c : Nat) : (x.learnDisq c).bin = x.bin := by
  unfold State.learnDisq
  split
  · simp only [State.when]; split <;> simp [State.fill, apply_ite]
  · split <;> rfl
  · rfl
@[simp] theorem State.learnDisq_spi (c : Nat) : (x.learnDisq c).spi = x.spi := by
  unfold State.learnDisq
  split
  · simp only [State.when]; split <;> simp [State.fill, apply_ite]
  · split <;> rfl
  · rfl
@[simp] theorem State.learnDisq_tw (c : Nat) : (x.learnDisq c).tw = x.tw := by
  unfold State.learnDisq
  split
  · simp only [State.when]; split <;> simp [State.fill, apply_ite]
  · split <;> rfl
  · rfl
@[simp] theorem State.learnDisq_flash (c : Nat) : (x.learnDisq c).flash = x.flash := by
  unfold State.learnDisq
  split
  · simp only [State.when]; split <;> simp [State.fill, apply_ite]
  · split <;> rfl
  · rfl
@[simp] theorem State.learnDisq_log (c : Nat) : (x.learnDisq c).log = x.log := by
  unfold State.learnDisq
  split
  · simp only [State.when]; split <;> simp [State.fill, apply_ite]
  · split <;> rfl
  · rfl
@[simp] theorem State.learnDisq_pending (c : Nat) : (x.learnDisq c).pending = x.pending := by
  unfold State.learnDisq
  split
  · simp only [State.when]; split <;> simp [State.fill, apply_ite]
  · split <;> rfl
  · rfl

/-! ## postFrame -/

@[simp] theorem State.postFrame_line (b : Fin 4) (fr : List Byte) : (x.postFrame b fr).line = x.line :=
    by simp [State.postFrame]
@[simp] theorem State.postFrame_link (b : Fin 4) (fr : List Byte) : (x.postFrame b fr).link = x.link :=
    by simp [State.postFrame]
@[simp] theorem State.postFrame_power (b : Fin 4) (fr : List Byte) : (x.postFrame b fr).power = x.power :=
    by simp [State.postFrame]
@[simp] theorem State.postFrame_cal (b : Fin 4) (fr : List Byte) : (x.postFrame b fr).cal = x.cal :=
    by simp [State.postFrame]
@[simp] theorem State.postFrame_trim (b : Fin 4) (fr : List Byte) : (x.postFrame b fr).trim = x.trim :=
    by simp [State.postFrame]
@[simp] theorem State.postFrame_bin (b : Fin 4) (fr : List Byte) : (x.postFrame b fr).bin = x.bin :=
    by simp [State.postFrame]
@[simp] theorem State.postFrame_spi (b : Fin 4) (fr : List Byte) : (x.postFrame b fr).spi = x.spi :=
    by simp [State.postFrame]
@[simp] theorem State.postFrame_tw (b : Fin 4) (fr : List Byte) : (x.postFrame b fr).tw = x.tw := by simp [State.postFrame]
@[simp] theorem State.postFrame_flash (b : Fin 4) (fr : List Byte) : (x.postFrame b fr).flash = x.flash :=
    by simp [State.postFrame]
@[simp] theorem State.postFrame_log (b : Fin 4) (fr : List Byte) : (x.postFrame b fr).log = x.log :=
    by simp [State.postFrame]
@[simp] theorem State.postFrame_gauge (b : Fin 4) (fr : List Byte) : (x.postFrame b fr).gauge = x.gauge :=
    by simp [State.postFrame]
@[simp] theorem State.postFrame_fw (b : Fin 4) (fr : List Byte) : (x.postFrame b fr).fw = x.fw := by simp [State.postFrame]
@[simp] theorem State.postFrame_free (b : Fin 4) (fr : List Byte) : (x.postFrame b fr).free = x.free :=
    by simp [State.postFrame]
@[simp] theorem State.postFrame_pending (b : Fin 4) (fr : List Byte) : (x.postFrame b fr).pending = x.pending :=
    by simp [State.postFrame]

/-! ## answer -/

@[simp] theorem State.answer_line (b : Fin 4) (st : Status) (r : List Byte) : (x.answer b st r).line = x.line :=
    by unfold State.answer; split <;> first | rfl | (dsimp only; split <;> simp)
@[simp] theorem State.answer_link (b : Fin 4) (st : Status) (r : List Byte) : (x.answer b st r).link = x.link :=
    by unfold State.answer; split <;> first | rfl | (dsimp only; split <;> simp)
@[simp] theorem State.answer_power (b : Fin 4) (st : Status) (r : List Byte) : (x.answer b st r).power = x.power :=
    by unfold State.answer; split <;> first | rfl | (dsimp only; split <;> simp)
@[simp] theorem State.answer_cal (b : Fin 4) (st : Status) (r : List Byte) : (x.answer b st r).cal = x.cal :=
    by unfold State.answer; split <;> first | rfl | (dsimp only; split <;> simp)
@[simp] theorem State.answer_trim (b : Fin 4) (st : Status) (r : List Byte) : (x.answer b st r).trim = x.trim :=
    by unfold State.answer; split <;> first | rfl | (dsimp only; split <;> simp)
@[simp] theorem State.answer_bin (b : Fin 4) (st : Status) (r : List Byte) : (x.answer b st r).bin = x.bin :=
    by unfold State.answer; split <;> first | rfl | (dsimp only; split <;> simp)
@[simp] theorem State.answer_spi (b : Fin 4) (st : Status) (r : List Byte) : (x.answer b st r).spi = x.spi :=
    by unfold State.answer; split <;> first | rfl | (dsimp only; split <;> simp)
@[simp] theorem State.answer_tw (b : Fin 4) (st : Status) (r : List Byte) : (x.answer b st r).tw = x.tw :=
    by unfold State.answer; split <;> first | rfl | (dsimp only; split <;> simp)
@[simp] theorem State.answer_flash (b : Fin 4) (st : Status) (r : List Byte) : (x.answer b st r).flash = x.flash :=
    by unfold State.answer; split <;> first | rfl | (dsimp only; split <;> simp)
@[simp] theorem State.answer_log (b : Fin 4) (st : Status) (r : List Byte) : (x.answer b st r).log = x.log :=
    by unfold State.answer; split <;> first | rfl | (dsimp only; split <;> simp)
@[simp] theorem State.answer_gauge (b : Fin 4) (st : Status) (r : List Byte) : (x.answer b st r).gauge = x.gauge :=
    by unfold State.answer; split <;> first | rfl | (dsimp only; split <;> simp)
@[simp] theorem State.answer_fw (b : Fin 4) (st : Status) (r : List Byte) : (x.answer b st r).fw = x.fw :=
    by unfold State.answer; split <;> first | rfl | (dsimp only; split <;> simp)
@[simp] theorem State.answer_free (b : Fin 4) (st : Status) (r : List Byte) : (x.answer b st r).free = x.free :=
    by unfold State.answer; split <;> first | rfl | (dsimp only; split <;> simp)
@[simp] theorem State.answer_pending (b : Fin 4) (st : Status) (r : List Byte) : (x.answer b st r).pending = x.pending :=
    by unfold State.answer; split <;> first | rfl | (dsimp only; split <;> simp)

/-! ## uplinkSeen -/

@[simp] theorem State.uplinkSeen_line : x.uplinkSeen.line = x.line := by unfold State.uplinkSeen; split <;> rfl
@[simp] theorem State.uplinkSeen_power : x.uplinkSeen.power = x.power := by unfold State.uplinkSeen; split <;> rfl
@[simp] theorem State.uplinkSeen_cal : x.uplinkSeen.cal = x.cal := by unfold State.uplinkSeen; split <;> rfl
@[simp] theorem State.uplinkSeen_trim : x.uplinkSeen.trim = x.trim := by unfold State.uplinkSeen; split <;> rfl
@[simp] theorem State.uplinkSeen_bin : x.uplinkSeen.bin = x.bin := by unfold State.uplinkSeen; split <;> rfl
@[simp] theorem State.uplinkSeen_dom : x.uplinkSeen.dom = x.dom := by unfold State.uplinkSeen; split <;> rfl
@[simp] theorem State.uplinkSeen_spi : x.uplinkSeen.spi = x.spi := by unfold State.uplinkSeen; split <;> rfl
@[simp] theorem State.uplinkSeen_tw : x.uplinkSeen.tw = x.tw := by unfold State.uplinkSeen; split <;> rfl
@[simp] theorem State.uplinkSeen_ev : x.uplinkSeen.ev = x.ev := by unfold State.uplinkSeen; split <;> rfl
@[simp] theorem State.uplinkSeen_berths : x.uplinkSeen.berths = x.berths := by unfold State.uplinkSeen; split <;> rfl
@[simp] theorem State.uplinkSeen_flash : x.uplinkSeen.flash = x.flash := by unfold State.uplinkSeen; split <;> rfl
@[simp] theorem State.uplinkSeen_log : x.uplinkSeen.log = x.log := by unfold State.uplinkSeen; split <;> rfl
@[simp] theorem State.uplinkSeen_gauge : x.uplinkSeen.gauge = x.gauge := by unfold State.uplinkSeen; split <;> rfl
@[simp] theorem State.uplinkSeen_fw : x.uplinkSeen.fw = x.fw := by unfold State.uplinkSeen; split <;> rfl
@[simp] theorem State.uplinkSeen_free : x.uplinkSeen.free = x.free := by unfold State.uplinkSeen; split <;> rfl
@[simp] theorem State.uplinkSeen_pending : x.uplinkSeen.pending = x.pending := by unfold State.uplinkSeen; split <;> rfl

/-! ## linkUp -/

@[simp] theorem State.linkUp_power : x.linkUp.power = x.power := by simp [State.linkUp]
@[simp] theorem State.linkUp_cal : x.linkUp.cal = x.cal := by simp [State.linkUp]
@[simp] theorem State.linkUp_trim : x.linkUp.trim = x.trim := by simp [State.linkUp]
@[simp] theorem State.linkUp_bin : x.linkUp.bin = x.bin := by simp [State.linkUp]
@[simp] theorem State.linkUp_spi : x.linkUp.spi = x.spi := by simp [State.linkUp]
@[simp] theorem State.linkUp_tw : x.linkUp.tw = x.tw := by simp [State.linkUp]
@[simp] theorem State.linkUp_berths : x.linkUp.berths = x.berths := by simp [State.linkUp]
@[simp] theorem State.linkUp_flash : x.linkUp.flash = x.flash := by simp [State.linkUp]
@[simp] theorem State.linkUp_log : x.linkUp.log = x.log := by simp [State.linkUp]
@[simp] theorem State.linkUp_gauge : x.linkUp.gauge = x.gauge := by simp [State.linkUp]
@[simp] theorem State.linkUp_fw : x.linkUp.fw = x.fw := by simp [State.linkUp]
@[simp] theorem State.linkUp_free : x.linkUp.free = x.free := by simp [State.linkUp]
@[simp] theorem State.linkUp_pending : x.linkUp.pending = x.pending := by simp [State.linkUp]

/-! ## linkGoes -/

@[simp] theorem State.linkGoes_line (l : LinkState) : (x.linkGoes l).line = x.line := by simp [State.linkGoes]
@[simp] theorem State.linkGoes_cal (l : LinkState) : (x.linkGoes l).cal = x.cal := by simp [State.linkGoes]
@[simp] theorem State.linkGoes_bin (l : LinkState) : (x.linkGoes l).bin = x.bin := by simp [State.linkGoes]
@[simp] theorem State.linkGoes_spi (l : LinkState) : (x.linkGoes l).spi = x.spi := by simp [State.linkGoes]
@[simp] theorem State.linkGoes_tw (l : LinkState) : (x.linkGoes l).tw = x.tw := by simp [State.linkGoes]
@[simp] theorem State.linkGoes_berths (l : LinkState) : (x.linkGoes l).berths = x.berths := by simp [State.linkGoes]
@[simp] theorem State.linkGoes_flash (l : LinkState) : (x.linkGoes l).flash = x.flash := by simp [State.linkGoes]
@[simp] theorem State.linkGoes_log (l : LinkState) : (x.linkGoes l).log = x.log := by simp [State.linkGoes]
@[simp] theorem State.linkGoes_gauge (l : LinkState) : (x.linkGoes l).gauge = x.gauge := by simp [State.linkGoes]
@[simp] theorem State.linkGoes_free (l : LinkState) : (x.linkGoes l).free = x.free := by simp [State.linkGoes]
@[simp] theorem State.linkGoes_pending (l : LinkState) : (x.linkGoes l).pending = x.pending := by simp [State.linkGoes]

/-! ## linkFault -/

@[simp] theorem State.linkFault_line : x.linkFault.line = x.line := by simp [State.linkFault]
@[simp] theorem State.linkFault_cal : x.linkFault.cal = x.cal := by simp [State.linkFault]
@[simp] theorem State.linkFault_bin : x.linkFault.bin = x.bin := by simp [State.linkFault]
@[simp] theorem State.linkFault_spi : x.linkFault.spi = x.spi := by simp [State.linkFault]
@[simp] theorem State.linkFault_tw : x.linkFault.tw = x.tw := by simp [State.linkFault]
@[simp] theorem State.linkFault_berths : x.linkFault.berths = x.berths := by simp [State.linkFault]
@[simp] theorem State.linkFault_flash : x.linkFault.flash = x.flash := by simp [State.linkFault]
@[simp] theorem State.linkFault_log : x.linkFault.log = x.log := by simp [State.linkFault]
@[simp] theorem State.linkFault_gauge : x.linkFault.gauge = x.gauge := by simp [State.linkFault]
@[simp] theorem State.linkFault_free : x.linkFault.free = x.free := by simp [State.linkFault]
@[simp] theorem State.linkFault_pending : x.linkFault.pending = x.pending := by simp [State.linkFault]

/-! ## trimResume -/

@[simp] theorem State.trimResume_line : x.trimResume.line = x.line :=
    by unfold State.trimResume State.trRun; split <;> first | rfl | (simp only [if_true]; split <;> simp)
@[simp] theorem State.trimResume_link : x.trimResume.link = x.link :=
    by unfold State.trimResume State.trRun; split <;> first | rfl | (simp only [if_true]; split <;> simp)
@[simp] theorem State.trimResume_power : x.trimResume.power = x.power :=
    by unfold State.trimResume State.trRun; split <;> first | rfl | (simp only [if_true]; split <;> simp)
@[simp] theorem State.trimResume_cal : x.trimResume.cal = x.cal :=
    by unfold State.trimResume State.trRun; split <;> first | rfl | (simp only [if_true]; split <;> simp)
@[simp] theorem State.trimResume_bin : x.trimResume.bin = x.bin :=
    by unfold State.trimResume State.trRun; split <;> first | rfl | (simp only [if_true]; split <;> simp)
@[simp] theorem State.trimResume_spi : x.trimResume.spi = x.spi :=
    by unfold State.trimResume State.trRun; split <;> first | rfl | (simp only [if_true]; split <;> simp)
@[simp] theorem State.trimResume_tw : x.trimResume.tw = x.tw :=
    by unfold State.trimResume State.trRun; split <;> first | rfl | (simp only [if_true]; split <;> simp)
@[simp] theorem State.trimResume_berths : x.trimResume.berths = x.berths :=
    by unfold State.trimResume State.trRun; split <;> first | rfl | (simp only [if_true]; split <;> simp)
@[simp] theorem State.trimResume_flash : x.trimResume.flash = x.flash :=
    by unfold State.trimResume State.trRun; split <;> first | rfl | (simp only [if_true]; split <;> simp)
@[simp] theorem State.trimResume_log : x.trimResume.log = x.log :=
    by unfold State.trimResume State.trRun; split <;> first | rfl | (simp only [if_true]; split <;> simp)
@[simp] theorem State.trimResume_gauge : x.trimResume.gauge = x.gauge :=
    by unfold State.trimResume State.trRun; split <;> first | rfl | (simp only [if_true]; split <;> simp)
@[simp] theorem State.trimResume_free : x.trimResume.free = x.free :=
    by unfold State.trimResume State.trRun; split <;> first | rfl | (simp only [if_true]; split <;> simp)
@[simp] theorem State.trimResume_pending : x.trimResume.pending = x.pending :=
    by unfold State.trimResume State.trRun; split <;> first | rfl | (simp only [if_true]; split <;> simp)

/-! ## chargerGate -/

@[simp] theorem State.chargerGate_line : x.chargerGate.line = x.line := by unfold State.chargerGate; split <;> split <;> rfl
@[simp] theorem State.chargerGate_link : x.chargerGate.link = x.link := by unfold State.chargerGate; split <;> split <;> rfl
@[simp] theorem State.chargerGate_cal : x.chargerGate.cal = x.cal := by unfold State.chargerGate; split <;> split <;> rfl
@[simp] theorem State.chargerGate_trim : x.chargerGate.trim = x.trim := by unfold State.chargerGate; split <;> split <;> rfl
@[simp] theorem State.chargerGate_bin : x.chargerGate.bin = x.bin := by unfold State.chargerGate; split <;> split <;> rfl
@[simp] theorem State.chargerGate_dom : x.chargerGate.dom = x.dom := by unfold State.chargerGate; split <;> split <;> rfl
@[simp] theorem State.chargerGate_spi : x.chargerGate.spi = x.spi := by unfold State.chargerGate; split <;> split <;> rfl
@[simp] theorem State.chargerGate_tw : x.chargerGate.tw = x.tw := by unfold State.chargerGate; split <;> split <;> rfl
@[simp] theorem State.chargerGate_ev : x.chargerGate.ev = x.ev := by unfold State.chargerGate; split <;> split <;> rfl
@[simp] theorem State.chargerGate_berths : x.chargerGate.berths = x.berths :=
    by unfold State.chargerGate; split <;> split <;> rfl
@[simp] theorem State.chargerGate_flash : x.chargerGate.flash = x.flash :=
    by unfold State.chargerGate; split <;> split <;> rfl
@[simp] theorem State.chargerGate_log : x.chargerGate.log = x.log := by unfold State.chargerGate; split <;> split <;> rfl
@[simp] theorem State.chargerGate_gauge : x.chargerGate.gauge = x.gauge :=
    by unfold State.chargerGate; split <;> split <;> rfl
@[simp] theorem State.chargerGate_fw : x.chargerGate.fw = x.fw := by unfold State.chargerGate; split <;> split <;> rfl
@[simp] theorem State.chargerGate_free : x.chargerGate.free = x.free := by unfold State.chargerGate; split <;> split <;> rfl
@[simp] theorem State.chargerGate_pending : x.chargerGate.pending = x.pending :=
    by unfold State.chargerGate; split <;> split <;> rfl

/-! ## violation -/

@[simp] theorem State.violation_line (p : Port) (n : Fin 4) (a k : Nat) : (x.violation p n a k).line = x.line :=
    by simp [State.violation]
@[simp] theorem State.violation_link (p : Port) (n : Fin 4) (a k : Nat) : (x.violation p n a k).link = x.link :=
    by simp [State.violation]
@[simp] theorem State.violation_power (p : Port) (n : Fin 4) (a k : Nat) : (x.violation p n a k).power = x.power :=
    by simp [State.violation]
@[simp] theorem State.violation_cal (p : Port) (n : Fin 4) (a k : Nat) : (x.violation p n a k).cal = x.cal :=
    by simp [State.violation]
@[simp] theorem State.violation_trim (p : Port) (n : Fin 4) (a k : Nat) : (x.violation p n a k).trim = x.trim :=
    by simp [State.violation]
@[simp] theorem State.violation_bin (p : Port) (n : Fin 4) (a k : Nat) : (x.violation p n a k).bin = x.bin :=
    by simp [State.violation]
@[simp] theorem State.violation_spi (p : Port) (n : Fin 4) (a k : Nat) : (x.violation p n a k).spi = x.spi :=
    by simp [State.violation]
@[simp] theorem State.violation_tw (p : Port) (n : Fin 4) (a k : Nat) : (x.violation p n a k).tw = x.tw :=
    by simp [State.violation]
@[simp] theorem State.violation_flash (p : Port) (n : Fin 4) (a k : Nat) : (x.violation p n a k).flash = x.flash :=
    by simp [State.violation]
@[simp] theorem State.violation_log (p : Port) (n : Fin 4) (a k : Nat) : (x.violation p n a k).log = x.log :=
    by simp [State.violation]
@[simp] theorem State.violation_gauge (p : Port) (n : Fin 4) (a k : Nat) : (x.violation p n a k).gauge = x.gauge :=
    by simp [State.violation]
@[simp] theorem State.violation_fw (p : Port) (n : Fin 4) (a k : Nat) : (x.violation p n a k).fw = x.fw :=
    by simp [State.violation]
@[simp] theorem State.violation_free (p : Port) (n : Fin 4) (a k : Nat) : (x.violation p n a k).free = x.free :=
    by simp [State.violation]
@[simp] theorem State.violation_pending (p : Port) (n : Fin 4) (a k : Nat) : (x.violation p n a k).pending = x.pending :=
    by simp [State.violation]

/-! ## accOff -/

@[simp] theorem State.accOff_line (p : Port) (a : Nat) : (x.accOff p a).line = x.line := by simp [State.accOff]
@[simp] theorem State.accOff_link (p : Port) (a : Nat) : (x.accOff p a).link = x.link := by simp [State.accOff]
@[simp] theorem State.accOff_power (p : Port) (a : Nat) : (x.accOff p a).power = x.power := by simp [State.accOff]
@[simp] theorem State.accOff_cal (p : Port) (a : Nat) : (x.accOff p a).cal = x.cal := by simp [State.accOff]
@[simp] theorem State.accOff_trim (p : Port) (a : Nat) : (x.accOff p a).trim = x.trim := by simp [State.accOff]
@[simp] theorem State.accOff_bin (p : Port) (a : Nat) : (x.accOff p a).bin = x.bin := by simp [State.accOff]
@[simp] theorem State.accOff_tw (p : Port) (a : Nat) : (x.accOff p a).tw = x.tw := by simp [State.accOff]
@[simp] theorem State.accOff_berths (p : Port) (a : Nat) : (x.accOff p a).berths = x.berths := by simp [State.accOff]
@[simp] theorem State.accOff_flash (p : Port) (a : Nat) : (x.accOff p a).flash = x.flash := by simp [State.accOff]
@[simp] theorem State.accOff_log (p : Port) (a : Nat) : (x.accOff p a).log = x.log := by simp [State.accOff]
@[simp] theorem State.accOff_gauge (p : Port) (a : Nat) : (x.accOff p a).gauge = x.gauge := by simp [State.accOff]
@[simp] theorem State.accOff_fw (p : Port) (a : Nat) : (x.accOff p a).fw = x.fw := by simp [State.accOff]
@[simp] theorem State.accOff_free (p : Port) (a : Nat) : (x.accOff p a).free = x.free := by simp [State.accOff]
@[simp] theorem State.accOff_pending (p : Port) (a : Nat) : (x.accOff p a).pending = x.pending := by simp [State.accOff]

end Sys2Proof.Machine
end

