-- ==== Sys2Proof/Laws/Memory.lean ====
section
/-! SUPPORT. The memory of MEM_B and the scratch: a read after a write, a write leaves every other byte, and every write
keeps the canonical form. -/

namespace Sys2Proof.Machine

/-- What the canonical form of a list with a first cell says. -/
theorem Memory.wf_cons (k : Nat) (v : Byte) (m : List Host.Cell) :
    Memory.wf ((k, v) :: m) = true ↔
      v ≠ unlisted ∧ (∀ c, m.head? = some c → k < c.1) ∧ Memory.wf m = true := by
  cases m with
  | nil => simp [Memory.wf]
  | cons c m => simp [Memory.wf, and_assoc]

/-- An address below every listed one reads as unlisted. -/
theorem memRead_below (m : List Host.Cell) (a : Nat) (hw : Memory.wf m = true) (h : ∀ c, m.head? = some c → a < c.1) :
    memRead m a = unlisted := by
  induction m with
  | nil => rfl
  | cons c m ih =>
    obtain ⟨k, v⟩ := c
    have hk : a < k := h (k, v) rfl
    rw [Memory.wf_cons] at hw
    have : ¬ k = a := by omega
    simp only [memRead, this, if_false]
    exact ih hw.2.2 fun c hc => Nat.lt_trans hk (hw.2.1 c hc)

/-- The first cell after a write is the written one or the one that was first. -/
theorem memWrite_head (m : List Host.Cell) (a : Nat) (v : Byte) (l : Nat) (hl : l < a)
    (h : ∀ c, m.head? = some c → l < c.1) (hw : Memory.wf m = true) :
    ∀ c, (memWrite m a v).head? = some c → l < c.1 := by
  intro c hc
  cases m with
  | nil =>
    simp only [memWrite] at hc
    split at hc
    · simp at hc
    · simp only [List.head?_cons, Option.some.injEq] at hc; subst hc; exact hl
  | cons d m =>
    obtain ⟨k, w⟩ := d
    have hk : l < k := h (k, w) rfl
    rw [Memory.wf_cons] at hw
    simp only [memWrite] at hc
    split at hc
    · split at hc <;> simp only [List.head?_cons, Option.some.injEq] at hc <;> subst hc <;> assumption
    · split at hc
      · split at hc
        · exact Nat.lt_trans hk (hw.2.1 c hc)
        · simp only [List.head?_cons, Option.some.injEq] at hc; subst hc; exact hl
      · simp only [List.head?_cons, Option.some.injEq] at hc; subst hc; exact hk

/-- A write keeps the canonical form. -/
theorem memWrite_wf (m : List Host.Cell) (a : Nat) (v : Byte) (hw : Memory.wf m = true) :
    Memory.wf (memWrite m a v) = true := by
  induction m with
  | nil =>
    simp only [memWrite]
    split
    · rfl
    · simpa [Memory.wf] using ‹¬v = unlisted›
  | cons c m ih =>
    obtain ⟨k, w⟩ := c
    have hw' := (Memory.wf_cons k w m).1 hw
    simp only [memWrite]
    split
    · split
      · exact hw
      · refine (Memory.wf_cons _ _ _).2 ⟨‹_›, ?_, hw⟩
        intro c hc
        simp only [List.head?_cons, Option.some.injEq] at hc; subst hc; assumption
    · split
      · split
        · exact hw'.2.2
        · rename_i ha hv
          exact (Memory.wf_cons _ _ _).2 ⟨hv, fun c hc => ha ▸ hw'.2.1 c hc, hw'.2.2⟩
      · exact (Memory.wf_cons _ _ _).2
          ⟨hw'.1, memWrite_head m a v k (by omega) hw'.2.1 hw'.2.2, ih hw'.2.2⟩

/-- Writes of several bytes keep the canonical form. -/
theorem memWriteAll_wf (m : List Host.Cell) (a : Nat) (bs : List Byte) (hw : Memory.wf m = true) :
    Memory.wf (memWriteAll m a bs) = true := by
  induction bs generalizing m a with
  | nil => exact hw
  | cons b bs ih => exact ih _ _ (memWrite_wf m a b hw)

/-- The byte written is the byte read. -/
theorem memRead_memWrite_same (m : List Host.Cell) (a : Nat) (v : Byte) (hw : Memory.wf m = true) :
    memRead (memWrite m a v) a = v := by
  induction m with
  | nil =>
    simp only [memWrite]
    split
    · simp [memRead, *]
    · simp [memRead]
  | cons c m ih =>
    obtain ⟨k, w⟩ := c
    have hw' := (Memory.wf_cons k w m).1 hw
    simp only [memWrite]
    split
    · split
      · rename_i hv; subst hv
        exact memRead_below _ _ hw fun c hc => by
          simp only [List.head?_cons, Option.some.injEq] at hc; subst hc; assumption
      · simp [memRead]
    · split
      · rename_i ha; subst ha
        split
        · rename_i hv; subst hv
          exact memRead_below _ _ hw'.2.2 hw'.2.1
        · simp [memRead]
      · rename_i h1 h2
        have : ¬ k = a := fun e => h2 e.symm
        simp only [memRead, this, if_false]
        exact ih hw'.2.2

/-- A write leaves every other byte. -/
theorem memRead_memWrite_other (m : List Host.Cell) (a b : Nat) (v : Byte) (h : a ≠ b) (hw : Memory.wf m = true) :
    memRead (memWrite m a v) b = memRead m b := by
  induction m with
  | nil =>
    simp only [memWrite]
    split
    · rfl
    · simp [memRead, h]
  | cons c m ih =>
    obtain ⟨k, w⟩ := c
    have hw' := (Memory.wf_cons k w m).1 hw
    simp only [memWrite]
    split
    · split
      · rfl
      · simp [memRead, h]
    · split
      · rename_i ha; subst ha
        split <;> simp [memRead, h]
      · simp only [memRead, ih hw'.2.2]

/-- Bytes written at ascending addresses leave every byte outside them. -/
theorem memRead_memWriteAll_other (m : List Host.Cell) (a b : Nat) (bs : List Byte) (h : b < a ∨ a + bs.length ≤ b)
    (hw : Memory.wf m = true) : memRead (memWriteAll m a bs) b = memRead m b := by
  induction bs generalizing m a with
  | nil => rfl
  | cons x bs ih =>
    simp only [List.length_cons] at h
    rw [memWriteAll, ih _ _ (by omega) (memWrite_wf m a x hw), memRead_memWrite_other m a b x (by omega) hw]

/-- Bytes written at ascending addresses are the bytes read there. -/
theorem memRead_memWriteAll_same (m : List Host.Cell) (a k : Nat) (bs : List Byte) (h : k < bs.length)
    (hw : Memory.wf m = true) : memRead (memWriteAll m a bs) (a + k) = bs[k] := by
  induction bs generalizing m a k with
  | nil => simp at h
  | cons x bs ih =>
    rw [memWriteAll]
    cases k with
    | zero =>
      rw [Nat.add_zero, memRead_memWriteAll_other _ _ _ _ (by omega) (memWrite_wf m a x hw)]
      simpa using memRead_memWrite_same m a x hw
    | succ k =>
      have := ih (memWrite m a x) (a + 1) k (by simpa using h) (memWrite_wf m a x hw)
      rw [show a + (k + 1) = a + 1 + k by omega, this]
      rfl

end Sys2Proof.Machine
end

