-- ==== Sys2Proof/Laws/Keeps.lean ====
section
/-! SUPPORT. What every shared operation keeps, said once: `Keeps s t` says that `t` differs from `s` by nothing that a
command may not do. Each lemma `Keeps.op` carries it over one more operation, so that a proof about a command follows the
command's own text. -/

namespace Sys2Proof.Machine

/-- `t` keeps the queue, the bounds and orders of every part, LOSS_COUNT from falling, and AUDIT_CTR. -/
structure Keeps (s t : State) : Prop where
  pending : t.pending = s.pending
  line : s.line.ok → t.line.ok
  cal : s.cal.ok → t.cal.ok
  bin : s.bin.ok → t.bin.ok
  dom : s.dom.ok → t.dom.ok
  berths : s.berths.ok → t.berths.ok
  flash : s.flash.ok → t.flash.ok
  gauge : s.gauge.ok → t.gauge.ok
  loss : s.link.lossCount.toNat ≤ t.link.lossCount.toNat
  audit : t.flash.auditCtr = s.flash.auditCtr

variable {s t u : State}

theorem Keeps.refl (s : State) : Keeps s s := ⟨rfl, id, id, id, id, id, id, id, Nat.le_refl _, rfl⟩

theorem Keeps.trans (h : Keeps s t) (k : Keeps t u) : Keeps s u :=
  ⟨k.pending.trans h.pending, k.line ∘ h.line, k.cal ∘ h.cal, k.bin ∘ h.bin, k.dom ∘ h.dom, k.berths ∘ h.berths,
   k.flash ∘ h.flash, k.gauge ∘ h.gauge, Nat.le_trans h.loss k.loss, k.audit.trans h.audit⟩

/-- Every bound and order holds after what keeps them. -/
theorem Keeps.inv (h : Keeps s t) (i : s.Inv) : t.Inv :=
  ⟨h.line i.line, h.cal i.cal, h.bin i.bin, h.dom i.dom, h.berths i.berths, h.flash i.flash, h.gauge i.gauge⟩

/-! ## Updates of one part -/

theorem Keeps.onLine (h : Keeps s t) (f : LineDie → LineDie) (hf : ∀ l, l.ok → (f l).ok) : Keeps s (t.onLine f) :=
  { h with line := fun i => hf _ (h.line i) }

theorem Keeps.onLink (h : Keeps s t) (f : Link → Link) (hf : ∀ l, l.lossCount.toNat ≤ (f l).lossCount.toNat) :
    Keeps s (t.onLink f) := { h with loss := Nat.le_trans h.loss (hf _) }

theorem Keeps.onPower (h : Keeps s t) (f : Power → Power) : Keeps s (t.onPower f) := { h with }
theorem Keeps.onTrim (h : Keeps s t) (f : Trim → Trim) : Keeps s (t.onTrim f) := { h with }
theorem Keeps.onSpi (h : Keeps s t) (f : Spi → Spi) : Keeps s (t.onSpi f) := { h with }
theorem Keeps.onTw (h : Keeps s t) (f : Tw → Tw) : Keeps s (t.onTw f) := { h with }
theorem Keeps.onEv (h : Keeps s t) (f : Events → Events) : Keeps s (t.onEv f) := { h with }
theorem Keeps.onLog (h : Keeps s t) (f : Log → Log) : Keeps s (t.onLog f) := { h with }
theorem Keeps.onFw (h : Keeps s t) (f : Firmware → Firmware) : Keeps s (t.onFw f) := { h with }

theorem Keeps.onCal (h : Keeps s t) (f : Cal → Cal) (hf : ∀ c, c.ok → (f c).ok) : Keeps s (t.onCal f) :=
  { h with cal := fun i => hf _ (h.cal i) }

theorem Keeps.onBin (h : Keeps s t) (f : BinIo → BinIo) (hf : ∀ b, b.ok → (f b).ok) : Keeps s (t.onBin f) :=
  { h with bin := fun i => hf _ (h.bin i) }

theorem Keeps.onDom (h : Keeps s t) (f : Domains → Domains) (hf : ∀ d, d.ok → (f d).ok) : Keeps s (t.onDom f) :=
  { h with dom := fun i => hf _ (h.dom i) }

theorem Keeps.onBerths (h : Keeps s t) (f : Berths → Berths) (hf : ∀ x, x.ok → (f x).ok) : Keeps s (t.onBerths f) :=
  { h with berths := fun i => hf _ (h.berths i) }

theorem Keeps.onFlash (h : Keeps s t) (f : Flash → Flash) (hf : ∀ x, x.ok → (f x).ok)
    (ha : ∀ x, (f x).auditCtr = x.auditCtr) : Keeps s (t.onFlash f) :=
  { h with flash := fun i => hf _ (h.flash i), audit := (ha _).trans h.audit }

theorem Keeps.onGauge (h : Keeps s t) (f : Gauge → Gauge) (hf : ∀ g, g.ok → (f g).ok) : Keeps s (t.onGauge f) :=
  { h with gauge := fun i => hf _ (h.gauge i) }

theorem Keeps.onBerth (h : Keeps s t) (b : Fin 4) (f : Berth → Berth) (hf : ∀ k, k.ok → (f k).ok) :
    Keeps s (t.onBerth b f) := by
  refine h.onBerths _ fun x i => ⟨i.1, fun n => ?_⟩
  by_cases e : b.val = n.val
  · have : b = n := Fin.ext e
    subst this
    simpa using hf _ (i.2 b)
  · simpa [Vector.getElem_set, e] using i.2 n

theorem Keeps.free (h : Keeps s t) (n : Nat) : Keeps s { t with free := n } := { h with }

theorem Keeps.when (h : Keeps s t) (c : Bool) (f : State → State) (hf : Keeps t (f t)) : Keeps s (t.when c f) := by
  cases c
  · exact h
  · exact h.trans hf

theorem Keeps.ite {c : Prop} [Decidable c] {a b : State} (ha : Keeps s a) (hb : Keeps s b) : Keeps s (if c then a else b) := by
  split
  · exact ha
  · exact hb

/-- A fold keeps what each of its steps keeps. -/
theorem Keeps.foldl {α : Type} (f : State → α → State) (hf : ∀ t x, Keeps t (f t x)) (xs : List α) (h : Keeps s t) :
    Keeps s (xs.foldl f t) := by
  induction xs generalizing t with
  | nil => exact h
  | cons x xs ih => exact ih (h.trans (hf t x))

/-! ## Domains -/

/-- The states of a domain, as a change of its record leaves them. -/
theorem Domains.ok_set_same (d : Domains) (x : Domain) (v : DomSt) (h : v.st = (d.get x).st) (i : d.ok) : (d.set x v).ok := by
  cases x <;> simp_all [Domains.ok, Domains.set, Domains.get]

/-- A domain that leaves a low state keeps the order where its needs are ON. -/
theorem Domains.ok_leave (d : Domains) (x : Domain) (v : DomSt) (hl : (d.get x).st.low = true)
    (hlog : x = .log → d.cpu.st = .on ∧ d.memM.st = .on) (hb : x = .memB → d.hif.st = .on) (i : d.ok) :
    (d.set x v).ok := by
  have low : ∀ p : PdState, p.low = true → p ≠ .on ∧ p.falling = false := fun p e => by
    cases p <;> simp_all [PdState.low, PdState.falling]
  have cpu : d.cpu.st.low = true → d.log.st.low = true := fun e => by
    cases h : d.log.st.low with
    | true => rfl
    | false => have c := low _ e; rcases (i.1 h).2 with k | k
               · exact absurd k c.1
               · rw [c.2] at k; exact absurd k.1 (by simp)
  have memM : d.memM.st.low = true → d.log.st.low = true := fun e => by
    cases h : d.log.st.low with
    | true => rfl
    | false => rw [(i.1 h).1] at e; exact e
  have hif : d.hif.st.low = true → d.memB.st.low = true := fun e => by
    cases h : d.memB.st.low with
    | true => rfl
    | false => rw [i.2 h] at e; exact e
  cases x <;> simp_all [Domains.ok, Domains.set, Domains.get]

theorem State.isOn_iff (s : State) (d : Domain) : s.isOn d = true ↔ (s.dom.get d).st = .on := by
  simp [State.isOn]

/-- Starting an exit changes the domains alone. -/
theorem State.startOn_frame (s : State) (d : Domain) : s.startOn d = { s with dom := (s.startOn d).dom } := rfl

theorem Keeps.startOn (h : Keeps s t) (d : Domain) : Keeps s (t.startOn d) := by
  refine { h with dom := fun i => ?_ }
  have i := h.dom i
  show Domains.ok (State.startOn d t).dom
  simp only [State.startOn, State.onDom_dom]
  split
  · exact Domains.ok_set_same _ _ _ rfl i
  · exact i
  · exact Domains.ok_set_same _ _ _ rfl i
  all_goals
    rename_i hs
    split
    · rename_i hp
      refine Domains.ok_leave _ _ _ (by rw [hs]; rfl) ?_ ?_ i <;> intro e <;> subst e <;>
        simp_all [State.mayTurnOn, State.isOn, Domains.get]
    · exact Domains.ok_set_same _ _ _ rfl i

theorem Keeps.bringOn (h : Keeps s t) (d : Domain) : Keeps s (t.bringOn d) := by
  cases d <;> simp only [State.bringOn] <;> (repeat' apply Keeps.startOn) <;> exact h

theorem Keeps.startWanted (h : Keeps s t) : Keeps s t.startWanted := by
  refine Keeps.foldl _ (fun t d => ?_) _ h
  split
  · exact (Keeps.refl t).startOn d
  · exact Keeps.refl t

/-! ## Wakes and events -/

theorem Keeps.wake (h : Keeps s t) (bit : Nat) (doms : List Domain) : Keeps s (t.wake bit doms) := by
  simp only [State.wake]
  split
  · exact Keeps.foldl _ (fun t d => (Keeps.refl t).bringOn d) _ (h.onDom _ fun _ i => by exact i)
  · exact h

theorem Keeps.raise (h : Keeps s t) (e : Nat) : Keeps s (t.raise e) :=
  (h.onEv _).when _ _ ((Keeps.refl _).wake _ _)

theorem Keeps.raiseWhenHif (h : Keeps s t) (e : Nat) : Keeps s (t.raiseWhenHif e) := by
  simp only [State.raiseWhenHif]
  split
  · exact h.raise e
  · exact h.onEv _

theorem Keeps.sysonAuto (h : Keeps s t) (k : Nat) : Keeps s (t.sysonAuto k) := h.onBin _ fun _ i => by exact i

theorem Keeps.logWrite (h : Keeps s t) (kind berth : Byte) (stamp : BitVec 64) (data : List Byte) :
    Keeps s (t.logWrite kind berth stamp data) := h.onFw _

/-! ## Records -/

theorem Keeps.storeBytes (h : Keeps s t) (a : Nat) (bs : List Byte) :
    Keeps s (t.onBerths fun x => { x with mem := memWriteAll x.mem a bs }) :=
  h.onBerths _ fun _ i => ⟨memWriteAll_wf _ _ _ i.1, i.2⟩

theorem Keeps.storeByte (h : Keeps s t) (a : Nat) (v : Byte) :
    Keeps s (t.onBerths fun x => { x with mem := memWrite x.mem a v }) :=
  h.onBerths _ fun _ i => ⟨memWrite_wf _ _ _ i.1, i.2⟩

/-- One record more is within the ring while it is not full. -/
theorem Berth.unread_succ (b : Berth) (h : b.unread ≠ 128) (i : b.unread ≤ 128) : ((b.ringWr + 1) - b.ringRd).toNat ≤ 128 := by
  simp only [Berth.unread] at *
  bv_omega

/-- A record stored in a ring that is not full. -/
theorem Keeps.ringStore (h : Keeps s t) (b : Fin 4) (a : Nat) (bs : List Byte) (hu : (t.berth b).unread ≠ 128) :
    Keeps s ((t.onBerths fun x => { x with mem := memWriteAll x.mem a bs }).onBerth b fun k =>
      { k with ringWr := k.ringWr + 1, rseq := k.rseq + 1, gap := false }) := by
  have k := h.storeBytes a bs
  refine { k with berths := fun i => ?_ }
  have j := k.berths i
  refine ⟨j.1, fun n => ?_⟩
  by_cases e : b.val = n.val
  · have : b = n := Fin.ext e
    subst this
    have := Berth.unread_succ _ hu (j.2 b)
    simpa [State.onBerth, State.onBerths, Berth.ok, Berth.unread, State.berth] using this
  · simpa [State.onBerth, State.onBerths, Vector.getElem_set, e] using j.2 n

theorem Keeps.putRecord (h : Keeps s t) (r : Rec) : Keeps s (t.putRecord r) := by
  obtain ⟨b, stamp, type, path, rflags, payload⟩ := r
  simp only [State.putRecord]
  split
  · exact (h.onBerth b _ fun _ i => by exact i).when _ _ ((Keeps.refl _).raise _)
  · rename_i hu
    apply Keeps.when
    · exact h.ringStore b _ _ hu
    · exact (Keeps.refl _).raise _

theorem Keeps.need (h : Keeps s t) (d : Domain) : Keeps s (t.need d) := Keeps.ite h (h.bringOn d)

theorem Keeps.record (h : Keeps s t) (b : Fin 4) (stamp : BitVec 64) (type path rflags : Byte) (payload : List Byte) :
    Keeps s (t.record b stamp type path rflags payload) := by
  unfold State.record
  exact Keeps.ite (h.putRecord _) ((h.onFw _).when _ _ ((Keeps.refl _).need _))

theorem Keeps.flushRecords (h : Keeps s t) : Keeps s t.flushRecords := by
  unfold State.flushRecords
  exact Keeps.ite (Keeps.foldl _ (fun t r => (Keeps.refl t).putRecord r) _ (h.onFw _)) (h.when _ _ ((Keeps.refl _).need _))

theorem Keeps.fill (h : Keeps s t) (fs : List (Nat × Option (List Byte))) : Keeps s (t.fill fs).2 := by
  simp only [State.fill]
  split
  · exact h
  · exact h.free _

theorem Keeps.fill_eq (h : Keeps s t) (fs : List (Nat × Option (List Byte))) (p : List Byte) (u : State)
    (e : t.fill fs = (p, u)) : Keeps s u := by
  have := h.fill fs
  rw [e] at this
  exact this

theorem Keeps.gaugeRecord (h : Keeps s t) (bit : Nat) (type : Byte) (clamped : Bool) (payload : List Byte) :
    Keeps s (t.gaugeRecord bit type clamped payload) := by
  simp only [State.gaugeRecord]
  split
  · split
    · exact h.record _ _ _ _ _ _
    · exact h
  · exact h

theorem Keeps.learnDisq (h : Keeps s t) (cause : Nat) : Keeps s (t.learnDisq cause) := by
  simp only [State.learnDisq]
  split
  · refine ((h.when _ _ ?_).onGauge _ fun _ i => by exact i).raise 84
    exact ((Keeps.refl t).fill _).gaugeRecord _ _ _ _
  · split
    · exact h.onGauge _ fun _ i => by exact i
    · exact h
  · exact h

/-! ## Trim aborts, the link leaving UP -/

theorem Keeps.trimAbort (h : Keeps s t) (cause : Nat) : Keeps s (t.trimAbort cause) := by
  simp only [State.trimAbort]
  split
  · refine Keeps.raise ?_ 26
    split
    · exact (h.onTrim _).onFw _
    · exact h.onTrim _
  · exact h

theorem Keeps.linkLeavesUp (h : Keeps s t) : Keeps s t.linkLeavesUp := by
  simp only [State.linkLeavesUp]
  split
  · exact (h.onLink _ fun _ => by exact Nat.le_refl _).trimAbort 1
  · exact h

theorem Keeps.chargerFollows (h : Keeps s t) : Keeps s t.chargerFollows := h.onPower _

theorem Keeps.closeWindow (h : Keeps s t) : Keeps s t.closeWindow :=
  (((h.onLink _ fun _ => by exact Nat.le_refl _).onTw _).chargerFollows)

/-! ## Entering a low state -/

theorem Keeps.beginEntry (h : Keeps s t) (d : Domain) (want : Low) (hs : (t.dom.get d).st = .on)
    (hcpu : d = .cpu → t.dom.log.st.low = true ∨ t.dom.log.st.falling = true)
    (hlog : d = .memM → t.dom.log.st.low = true) (hb : d = .hif → t.dom.memB.st.low = true) :
    Keeps s (t.beginEntry d want) := by
  have k : Keeps s (t.onDom fun x => x.set d { st := .entering (t.lowFor d want) }) := by
    refine { h with dom := fun i => ?_ }
    have i := h.dom i
    cases d <;> simp_all [Domains.ok, Domains.set, Domains.get, State.onDom, PdState.low, PdState.falling]
    intro e
    exact hcpu.resolve_left (by simpa using e)
  simp only [State.beginEntry]
  cases d <;> simp only [padBit]
  · exact (k.onDom _ fun _ i => by exact i).onTw _
  · exact k
  · exact k
  · exact (k.onDom _ fun _ i => by exact i).onLog _
  · exact k.onDom _ fun _ i => by exact i
  · exact ((k.onDom _ fun _ i => by exact i).closeWindow.linkLeavesUp.onPower _).onLink _ fun _ => by exact Nat.le_refl _
  · exact ((k.onDom _ fun _ i => by exact i).onEv _).onTw _

/-- An entry that is not blocked breaks no order. -/
theorem State.blocked_orders (s : State) (d : Domain) (h : s.blocked d = false) :
    (d = .memM → s.dom.log.st.low = true) ∧ (d = .hif → s.dom.memB.st.low = true) := by
  cases d <;> simp_all [State.blocked]

theorem Keeps.defer (h : Keeps s t) (d : Domain) (want : Low) : Keeps s (t.defer d want) :=
  h.onDom _ fun _ i => Domains.ok_set_same _ _ _ rfl i

theorem Keeps.tryEntry (h : Keeps s t) (d : Domain) (want : Low) (hs : (t.dom.get d).st = .on) :
    Keeps s (t.tryEntry d want) := by
  unfold State.tryEntry
  split
  · exact h.defer d want
  · rename_i hb
    have o := t.blocked_orders d (by simp_all [State.deferring])
    split
    · rename_i hd
      subst hd
      split
      · exact h.defer _ want
      · rename_i hl
        have k := h.beginEntry .log (t.pdLowOf .log) hl (by simp) (by simp) (by simp)
        refine k.beginEntry .cpu want ?_ ?_ (by simp) (by simp)
        · simpa [State.beginEntry, padBit, Domains.get, Domains.set] using hs
        · intro; right
          simp [State.beginEntry, padBit, Domains.set, PdState.falling]
      · rename_i h1 h2
        refine h.beginEntry .cpu want hs (fun _ => ?_) (by simp) (by simp)
        cases e : t.dom.log.st <;> simp_all [PdState.low, PdState.falling]
    · rename_i hd
      exact h.beginEntry d want hs (fun e => absurd e hd) o.1 o.2

theorem Keeps.requestEntry (h : Keeps s t) (d : Domain) (want : Low) : Keeps s (t.requestEntry d want) := by
  unfold State.requestEntry
  split
  · rename_i hs
    exact Keeps.tryEntry (h.onDom _ fun _ i => by exact i) d want (by cases d <;> simpa [Domains.get] using hs)
  · exact h

/-! ## What a domain loses, and resets -/

theorem Gauge.fresh_ok : Gauge.fresh.ok := by simp [Gauge.ok, Gauge.fresh, accMin, accMax]

theorem Keeps.lose (h : Keeps s t) (d : Domain) : Keeps s (t.lose d) := by
  cases d <;> simp only [State.lose]
  · exact (h.onFw _).onDom _ fun _ i => by exact i
  · exact h.onLog _
  · refine h.onBerths _ fun x i => ⟨rfl, fun n => ?_⟩
    simp [Berths.loseMemB, Berth.loseMemB, Berth.ok, Berth.unread]
  · exact h.onLog _
  · exact (h.learnDisq 3).onGauge _ fun _ _ => Gauge.fresh_ok
  · exact (h.onPower _).onLink _ fun _ => by exact Nat.le_refl _
  · exact ((h.onFw _).onEv _).onTw _

theorem Keeps.freeSeqs (h : Keeps s t) : Keeps s t.freeSeqs :=
  (Keeps.foldl _ (fun t b => (Keeps.refl t).onBerth b _ fun _ i => by exact i) _ h).free _

theorem Domains.allOff_ok (k : Bool) (c : BitVec 4) (d : Domains) : (d.allOff k c).ok := by
  simp [Domains.ok, Domains.allOff, PdState.low]

theorem Keeps.resetSwitched (h : Keeps s t) (code : BitVec 4) : Keeps s (t.resetSwitched code) := by
  simp only [State.resetSwitched]
  refine Keeps.freeSeqs (Keeps.onLog (Keeps.onFw (Keeps.onTw (Keeps.onEv (Keeps.onDom ?_ _ fun _ _ =>
    Domains.allOff_ok _ _ _) _) _) _) _)
  iterate 6 refine Keeps.lose ?_ _
  have k := ((h.onFw fun f => { f with started := false, recQ := [] }).learnDisq 4).linkLeavesUp
  split <;> first | exact k | exact k.onGauge _ fun _ _ => Gauge.fresh_ok

end Sys2Proof.Machine
end

