-- ==== Sys2Proof/Laws/KeepsHost.lean ====
section
/-! SUPPORT. What the operations behind the host's accesses keep: answers, commits and shifts, rings, and every byte that a
transfer reads or writes. -/

namespace Sys2Proof.Machine

variable {s t u : State}

/-! ## Answers -/

theorem Keeps.postFrame (h : Keeps s t) (b : Fin 4) (frame : List Byte) : Keeps s (t.postFrame b frame) :=
  ((h.storeBytes _ _).onBerth b _ fun _ i => by exact i).raise _

theorem Keeps.answer (h : Keeps s t) (b : Fin 4) (st : Status) (rest : List Byte) : Keeps s (t.answer b st rest) := by
  simp only [State.answer]
  split
  · exact h
  · split
    · exact h.onBerth b _ fun _ i => by exact i
    · exact (h.onBerth b _ fun _ i => by exact i).postFrame _ _

theorem Keeps.answerTime (h : Keeps s t) : Keeps s t.answerTime := by
  refine Keeps.foldl _ (fun t b => ?_) _ h
  dsimp only
  split
  · exact (Keeps.refl t).answer _ _ _
  · exact Keeps.refl t

/-! ## Commits, shifts and ticks -/

/-- The number of days before a month of a year is within the year. -/
theorem daysBeforeMonth_le (y m d : Nat) (hm : 1 ≤ m) (hm' : m ≤ 12) (hd : d ≤ monthLength y m) :
    daysBeforeMonth y m + d ≤ 365 + (if isLeap y then 1 else 0) := by
  have : m = 1 ∨ m = 2 ∨ m = 3 ∨ m = 4 ∨ m = 5 ∨ m = 6 ∨ m = 7 ∨ m = 8 ∨ m = 9 ∨ m = 10 ∨ m = 11 ∨ m = 12 := by omega
  rcases this with e | e | e | e | e | e | e | e | e | e | e | e <;> subst e <;>
    cases hl : isLeap y <;> simp_all [daysBeforeMonth, monthLength, monthLengths] <;> omega

/-- Days before a year of the cycle, and the year itself, within 146,097 days. -/
theorem daysBeforeYear_le (y : Nat) (h : y < 400) :
    daysBeforeYear y + 365 + (if isLeap y then 1 else 0) ≤ 146097 := by
  have : (if isLeap y = true then 1 else 0) ≤ 1 := by split <;> omega
  by_cases e : y = 399
  · subst e; decide
  · simp only [daysBeforeYear]; omega

/-- A BCD byte stands for a number below 100. -/
theorem unbcd_lt (b : Byte) (h : isBcd b = true) : unbcd b ≤ 99 := by
  simp only [isBcd, unbcd, Bool.and_eq_true, decide_eq_true_eq] at *
  omega

/-- A date that passed the check of R127 lies in the 400-year cycle. -/
theorem Cal.staged_lt (c : Cal) (h : c.stagedOk = true) : lsecOf c.staged < cycleSeconds := by
  simp only [Cal.stagedOk, Bool.and_eq_true, decide_eq_true_eq] at h
  obtain ⟨ha, ⟨⟨⟨⟨⟨⟨hs, hmi⟩, hh⟩, hm⟩, hm'⟩, hd⟩, hd'⟩⟩ := h
  have hy : c.staged.year < 400 := by
    have := unbcd_lt c.yearS ha.1.1.1.1.1.1.2
    simp only [Cal.staged]
    omega
  have h1 := daysBeforeMonth_le _ _ _ hm hm' hd'
  have h2 := daysBeforeYear_le _ hy
  simp only [lsecOf, cycleSeconds]
  omega

/-- A load keeps the calendar's bounds. -/
theorem Cal.load_ok (c : Cal) (tag : BitVec 2) (u : BitVec 15) (pl : BitVec 34) (pu : BitVec 15) (h : c.stagedOk = true) :
    (c.load tag u pl pu).ok := by
  refine ⟨?_, fun e => by simp [Cal.load] at e⟩
  have := c.staged_lt h
  show (BitVec.ofNat 34 (lsecOf c.staged)).toNat < cycleSeconds
  rw [BitVec.toNat_ofNat]
  exact Nat.lt_of_le_of_lt (Nat.mod_le _ _) this

/-- A time that passes the end of the cycle by less than two seconds wraps into it. -/
theorem wrap_lt (n t : Nat) (hn : 2 ≤ n) (ht : t < (n + 2) * 32768) :
    (if n * 32768 ≤ t then (t - n * 32768, true) else (t, false)).1 / 32768 < n := by
  split
  · dsimp only; omega
  · dsimp only; omega

/-- The time a tick gives lies in the cycle. -/
theorem shiftedTime_lt (l r : Nat) (shift : Option Half) (hl : l < cycleSeconds) (hr : r < 32768) :
    (shiftedTime l r shift).1 / 32768 < cycleSeconds := by
  unfold shiftedTime
  refine wrap_lt cycleSeconds _ (Nat.le_of_ble_eq_true rfl) ?_
  generalize cycleSeconds = n at *
  cases shift with
  | none => dsimp only; omega
  | some v =>
    dsimp only
    have : (if v.getLsbD 15 = true then 32768 else 0) ≤ 32768 := by split <;> omega
    omega

/-- The low half of a time, divided into seconds, stays below what the seconds were. -/
theorem lsec_lt (n : Nat) (h : n / 32768 < cycleSeconds) : (BitVec.ofNat 34 (n / 32768)).toNat < cycleSeconds := by
  rw [BitVec.toNat_ofNat]
  exact Nat.lt_of_le_of_lt (Nat.mod_le _ _) h

/-- A tick keeps the calendar's bounds. -/
theorem Cal.tick_ok (c : Cal) (r : Nat) (hr : r < 32768) (i : c.ok) : (c.tick r).1.ok := by
  have small := lsec_lt _ (shiftedTime_lt c.lsec.toNat r c.shift i.1 hr)
  unfold Cal.tick
  by_cases h : c.commit = some CommitMode.sett
  · simp only [h, if_true]
    exact Cal.load_ok _ _ _ _ _ (i.2 (by rw [h]; rfl))
  · simp only [h, if_false]
    split <;> exact ⟨small, fun e => i.2 e⟩

/-- Up to two counts at an edge keep them. -/
theorem Cal.counts_ok (c : Cal) (n : Nat) (hn : n ≤ 2) (i : c.ok) : (c.counts n).1.ok := by
  unfold Cal.counts
  dsimp only
  split
  · exact Cal.tick_ok c _ (by have := c.subsec.isLt; omega) i
  · exact i

/-- The update of an edge keeps them; a load needs the commit whose check has passed. -/
theorem Cal.atEdge_ok (c : Cal) (load : Bool) (n : Nat) (hn : n ≤ 2) (hl : load = true → c.commit.isSome = true) (i : c.ok) :
    (c.atEdge load n).1.ok := by
  unfold Cal.atEdge
  have k : ({ c with commit := if load then none else c.commit } : Cal).ok := ⟨i.1, fun e => i.2 (by cases load <;> simp_all)⟩
  have m := Cal.counts_ok _ n hn k
  generalize ({ c with commit := if load then none else c.commit } : Cal).counts n = sw at m
  obtain ⟨shown, wrap⟩ := sw
  cases load with
  | false => exact ⟨m.1, m.2⟩
  | true => exact (Cal.load_ok c 0b01 0 shown.lsec shown.subsec (i.2 (hl rfl)) :)

theorem Keeps.binSet (h : Keeps s t) (a : Nat) (m : Byte) : Keeps s (t.binSet a m) := h.onBin _ fun _ i => by exact i

theorem Keeps.commitCmd (h : Keeps s t) (m : CommitMode) : Keeps s (t.commitCmd m) := by
  simp only [State.commitCmd]
  split
  · rename_i ok
    exact { h with cal := fun i => ⟨(h.cal i).1, fun _ => ok⟩ }
  · exact ((h.onCal _ fun _ i => by exact i).binSet _ _).raise 16

theorem Keeps.calCmd (h : Keeps s t) (v : Byte) : Keeps s (t.calCmd v) := by
  simp only [State.calCmd]
  split
  · exact h.commitCmd _
  · split
    · exact h.commitCmd _
    · split
      · exact (h.onCal _ fun _ i => ⟨by exact i.1, fun e => by cases e⟩).answerTime
      · exact h

theorem Keeps.shiftCmd (h : Keeps s t) (v : Half) : Keeps s (t.shiftCmd v) := by
  simp only [State.shiftCmd]
  split
  · exact (h.onCal _ fun _ i => by exact i).binSet _ _
  · exact h.onCal _ fun _ i => by exact i

theorem Cal.stage_ok (c : Cal) (a : Nat) (v : Byte) (i : c.ok) : (c.stage a v).ok := by
  simp only [Cal.stage]
  split
  · exact i
  · rename_i e
    have k : ∀ d : Cal, d.commit = c.commit → d.lsec = c.lsec → d.ok := fun d hc hl =>
      ⟨by rw [hl]; exact i.1, fun x => absurd (hc ▸ x) e⟩
    split <;> exact k _ rfl rfl

theorem BinIo.sampleFso_ok (st : BitVec 64) (b : BinIo) (i : b.ok) : (b.sampleFso st).ok := by
  cases h : b.fsoBakDue <;> cases h' : b.fsoBatDue <;> simpa [BinIo.sampleFso, BinIo.mark, h, h', BinIo.ok] using i

theorem BinIo.sample_ok (st : BitVec 64) (b : BinIo) (i : b.ok) : (b.sample st).ok := by
  simp only [BinIo.sample]
  split <;> exact BinIo.sampleFso_ok st b i

/-- The next edge makes two counts at most. -/
theorem State.edgeCounts_le (s : State) : s.edgeCounts ≤ 2 := by
  unfold State.edgeCounts; repeat' split
  all_goals omega

theorem State.edgeKind_load (s : State) (h : s.edgeKind = .load) : s.cal.commit = some .setr := by
  simp only [State.edgeKind] at h
  repeat' split at h
  all_goals simp_all

theorem Keeps.ck32 (h : Keeps s t) : Keeps s t.ck32 := by
  have c : Keeps s (t.onCal fun _ => t.calNext.1) :=
    { h with cal := fun i => Cal.atEdge_ok _ _ _ t.edgeCounts_le (fun e => by
        rw [t.edgeKind_load (by simpa using e)]; rfl) (h.cal i) }
  refine Keeps.when (Keeps.onBin (Keeps.when (Keeps.when ((c.onTrim _).onBin _ fun _ i => by exact i) _ _ ?_) _ _ ?_) _
    fun b i => BinIo.sample_ok _ b i) _ _ (Keeps.refl _).answerTime
  · exact ((Keeps.refl _).binSet _ _).raise 17
  · exact (Keeps.refl _).binSet _ _

theorem Keeps.edgeOf (h : Keeps s t) (ks : List EdgeKind) : Keeps s (t.edgeOf ks) := Keeps.ite h.ck32 h

/-! ## Trim -/

theorem Keeps.trRun (h : Keeps s t) (v : Bool) : Keeps s (t.trRun v) := by
  simp only [State.trRun]
  split
  · split <;> exact h.onTrim _
  · exact h.trimAbort 6

theorem Keeps.trimResume (h : Keeps s t) : Keeps s t.trimResume := by
  simp only [State.trimResume]
  split
  · exact (h.onFw _).trRun true
  · exact h

theorem Keeps.stampFso (h : Keeps s t) (w : Fso) : Keeps s (t.stampFso w) := by
  cases w <;> exact h.onBin _ fun _ i => by exact i

/-! ## What a host access does beyond a stored value -/

theorem Keeps.violation (h : Keeps s t) (p : Port) (n : Fin 4) (a kind : Nat) : Keeps s (t.violation p n a kind) :=
  (h.onBerths _ fun _ i => by exact i).raise _

theorem Keeps.accOff (h : Keeps s t) (p : Port) (a : Nat) : Keeps s (t.accOff p a) := (h.onSpi _).raiseWhenHif 32

theorem Keeps.ringAccept (h : Keeps s t) (n : Fin 4) : Keeps s (t.ringAccept n) :=
  ((h.onDom _ fun _ i => by exact i).onBerth n _ fun _ i => by exact i).wake _ _

theorem Keeps.ring (h : Keeps s t) (p : Port) (n : Fin 4) : Keeps s (t.ring p n) := by
  simp only [State.ring]
  split
  · split
    · exact h.onDom _ fun _ i => by exact i
    · exact h.ringAccept n
  · exact h.violation _ _ _ _

theorem Keeps.setKeep (h : Keeps s t) (p : Port) (v : BitVec 3) : Keeps s (t.setKeep p v) := by
  cases p <;> simp only [State.setKeep] <;> split <;>
    first
      | exact h.onDom _ fun _ i => by exact i
      | exact (h.onDom _ fun _ i => by exact i).wake _ _

theorem Keeps.chargerGate (h : Keeps s t) : Keeps s t.chargerGate := by
  simp only [State.chargerGate]
  split <;> split <;> first | exact h | exact h.onPower _

theorem Link.send_loss (l : Link) : l.send.lossCount = l.lossCount := by
  unfold Link.send
  repeat' split
  all_goals rfl

theorem Link.sendCfg_loss (r : CfgReg) (l : Link) : (l.sendCfg r).lossCount = l.lossCount := by
  simp only [Link.sendCfg]; split
  · rw [Link.send_loss]
  · rfl

theorem Keeps.cfgStore (h : Keeps s t) (r : CfgReg) (v : Byte) : Keeps s (t.cfgStore r v) :=
  h.onLink _ fun l => by cases r <;> rw [Link.sendCfg_loss]

theorem Berth.setRingRd_ok (v : Byte) (b : Berth) (i : b.ok) : (b.setRingRd v).ok := by
  simp only [Berth.setRingRd]
  split
  · exact i
  · simp only [Berth.ok, Berth.unread]; omega

/-! ## Bytes of a transfer -/

theorem EventInput.clear_pps (e : EventInput) (v now : Byte) (st : BitVec 64) : (e.clear v now st).pps = e.pps := by
  simp only [EventInput.clear, apply_ite EventInput.pps, ite_self]

/-- A change of an event input leaves PPS mode to EVT3. -/
theorem BinIo.setEvt_ok (b : BinIo) (n : Fin 4) (e : EventInput) (h : n ≠ 3 → e.pps = false) (i : b.ok) :
    ({ b with evts := b.evts.set n e } : BinIo).ok := by
  refine ⟨i.1, fun m hm => ?_⟩
  by_cases k : n.val = m.val
  · have : n = m := Fin.ext k
    subst this
    simpa using h hm
  · simpa [Vector.getElem_set, k] using i.2 m hm

theorem EventInput.write_pps (n : Fin 4) (k : Nat) (v now : Byte) (st : BitVec 64) (e : EventInput) (hn : n ≠ 3) (h : e.pps = false) :
    (e.write (n == 3) k v now st).pps = false := by
  simp only [EventInput.write]
  split
  · simp [hn]
  · split
    · rw [EventInput.clear_pps]; exact h
    · exact h

theorem BinIo.clearFso_ok (b : BinIo) (v now : Byte) (st : BitVec 64) (i : b.ok) : (b.clearFso v now st).ok := by
  simpa only [BinIo.ok, BinIo.clearFso, apply_ite BinIo.scratch, apply_ite BinIo.evts, ite_self] using i

theorem Keeps.writeBin (h : Keeps s t) (a : Nat) (v : Byte) : Keeps s (t.writeBin a v) := by
  unfold State.writeBin
  repeat' with_reducible apply Keeps.ite
  all_goals first
    | exact h
    | exact h.onTrim _
    | exact (h.onTrim _).trRun _
    | exact h.calCmd _
    | exact h.onCal _ fun c i => Cal.stage_ok c a v i
    | exact h.onCal _ fun _ i => by exact i
    | exact h.onBin _ fun b i => BinIo.clearFso_ok b v _ _ i
    | exact h.onBin _ fun _ i => by exact i
    | (refine h.onBin _ fun b i => ?_; exact BinIo.setEvt_ok b _ _ (fun hn => EventInput.write_pps _ _ v _ _ _ hn (i.2 _ hn)) i)

theorem Keeps.writeDom (h : Keeps s t) (p : Port) (a : Nat) (v : Byte) : Keeps s (t.writeDom p a v) := by
  unfold State.writeDom
  repeat' with_reducible apply Keeps.ite
  all_goals first
    | exact h
    | exact h.setKeep _ _
    | exact h.ring _ _
    | exact h.onDom _ fun _ i => by exact i

theorem Keeps.writePower (h : Keeps s t) (a : Nat) (v : Byte) : Keeps s (t.writePower a v) := by
  simp only [State.writePower]
  repeat' (first | split | exact h | exact (h.onPower _).chargerGate | exact h.onPower _)

theorem Keeps.writeLink (h : Keeps s t) (a : Nat) (v : Byte) : Keeps s (t.writeLink a v) := by
  simp only [State.writeLink]
  split
  · exact h.cfgStore _ _
  · split
    · exact h.cfgStore _ _
    · exact h.onLink _ fun l => by split <;> exact Nat.le_refl _

theorem Keeps.writeHif (h : Keeps s t) (a : Nat) (v : Byte) : Keeps s (t.writeHif a v) := by
  simp only [State.writeHif]
  repeat' (first | split | exact h | exact h.onEv _ | exact h.onTw _ | exact h.onBerths _ fun _ i => by exact i)

theorem Berth.write_ok (off : Nat) (v : Byte) (b : Berth) (i : b.ok) : (b.write off v).ok := by
  simp only [Berth.write]
  split
  · exact Berth.setRingRd_ok v b i
  all_goals exact i

theorem Keeps.writeMem (h : Keeps s t) (n : Fin 4) (a : Nat) (v : Byte) : Keeps s (t.writeMem n a v) := by
  simp only [State.writeMem]
  split
  · exact (h.onBerth n _ fun _ i => by exact i).raise 47
  · exact h.storeByte a v

theorem Keeps.writeWide (h : Keeps s t) (base v : Nat) : Keeps s (t.writeWide base v) := by
  simp only [State.writeWide]
  split
  · exact h.shiftCmd _
  · exact Keeps.ite (h.onTrim _) h
  · exact h.onDom _ fun _ i => by exact i

theorem Keeps.writeByte (h : Keeps s t) (p : Port) (w : List (Nat × Byte)) (a : Nat) (v : Byte) :
    Keeps s (t.writeByte p w a v) := by
  simp only [State.writeByte]
  repeat' (first | split | exact h | exact h.writeWide _ _ | exact h.writeBin _ _ | exact h.writeDom _ _ _ |
    exact h.writePower _ _ | exact h.writeLink _ _ | exact h.writeMem _ _ _ | exact h.writeHif _ _ | exact h.onSpi _)
  · exact h.onBin _ fun b i => ⟨memWrite_wf _ _ _ i.1, i.2⟩
  · exact h.onGauge _ fun _ i => by exact i
  · exact h.onBerth _ _ fun b i => Berth.write_ok _ v b i

theorem Keeps.refuse (h : Keeps s t) (x : Xfer) (a kind : Nat) (v : Verdict) : Keeps s (t.refuse x a kind v).2 := by
  simp only [State.refuse]
  repeat' (first | split | exact h | exact h.violation _ _ _ _ | exact h.accOff _ _)

theorem Keeps.xferWrite (h : Keeps s t) (x : Xfer) (a : Nat) (v : Byte) : Keeps s (t.xferWrite x a v).2 := by
  simp only [State.xferWrite]
  split
  · exact h.writeByte _ _ _ _
  · exact h.refuse _ _ _ _

theorem Keeps.rcClear (h : Keeps s t) (base v : Nat) : Keeps s (t.rcClear base v) := by
  simp only [State.rcClear]
  repeat' (first | split | exact h.onSpi _ | exact h.onPower _ | exact h.onTw _ | exact h.onEv _ |
    exact h.onLink _ fun _ => by exact Nat.le_refl _)
  · refine h.onBin _ fun b i => ?_
    exact BinIo.setEvt_ok b _ _ (fun hn => i.2 _ hn) i
  · exact h.onDom _ fun _ i => by exact i
  · exact h.onBerths _ fun _ i => by exact i
  · exact h.onBerth _ _ fun _ i => by exact i

theorem Keeps.rcDone (h : Keeps s t) (x : Xfer) (base len : Nat) : Keeps s (t.rcDone x base len).2 := by
  simp only [State.rcDone]
  repeat' (first | split | exact h | exact h.rcClear _ _)

theorem Keeps.xferRead (h : Keeps s t) (x : Xfer) (a : Nat) (c : Bool) : Keeps s (t.xferRead x a c).2.2 := by
  simp only [State.xferRead]
  split
  · split
    · exact h
    · cases c
      · exact h
      · exact h.rcDone _ _ _
    · exact h
  · exact h
  · exact h.refuse _ _ _ _

theorem Keeps.xferWrites (h : Keeps s t) (x : Xfer) (a : Nat) (vs : List Byte) : Keeps s (t.xferWrites x a vs).2 := by
  induction vs generalizing t x a with
  | nil => exact h
  | cons v vs ih => exact ih (h.xferWrite x a v) _ _

theorem Keeps.xferReads (h : Keeps s t) (x : Xfer) (a n : Nat) : Keeps s (t.xferReads x a n).2.2 := by
  induction n generalizing t x a with
  | zero => exact h
  | succ n ih => exact ih (h.xferRead x a true) _ _

theorem Keeps.hostWrite (h : Keeps s t) (p : Port) (a : Nat) (bs : List Byte) : Keeps s (t.hostWrite p a bs) :=
  h.xferWrites _ _ _

theorem Keeps.portWrite (h : Keeps s t) (p : Port) (a : Nat) (bs : List Byte) : Keeps s (t.portWrite p a bs) :=
  h.when _ _ ((Keeps.refl t).hostWrite _ _ _)

/-! ## Transfers on SPI and transactions on two wires -/

theorem Keeps.putXfer (h : Keeps s t) (x : Xfer) : Keeps s (t.putXfer x) := h.onSpi _

theorem Keeps.withXfer (h : Keeps s t) (f : Xfer → State → State) (hf : ∀ x, Keeps t (f x t)) : Keeps s (t.withXfer f) := by
  simp only [State.withXfer]
  split
  · exact h.trans (hf _)
  · exact h

theorem Keeps.endXfer (h : Keeps s t) (k : Fin 8) : Keeps s (t.endXfer k) := by
  simp only [State.endXfer]
  split
  · exact h
  · split
    · exact h.onSpi _
    · exact ((h.onSpi _).onSpi _).raise 42

theorem Keeps.csClash (h : Keeps s t) (k : Fin 8) : Keeps s (t.csClash k) := by
  simp only [State.csClash]
  split
  · exact h
  · exact ((h.endXfer k).onSpi _).raise 41

theorem Keeps.twProto (h : Keeps s t) (c : BitVec 3) : Keeps s (t.twProto c) := (((h.onTw _).onTw _).onTw _).raise 38
theorem Keeps.twPecErr (h : Keeps s t) : Keeps s t.twPecErr := (((h.onTw _).onTw _).onTw _).raise 33
theorem Keeps.twPecMiss (h : Keeps s t) : Keeps s t.twPecMiss := ((h.onTw _).onTw _).raise 33

theorem Keeps.transaction (h : Keeps s t) (r : Bool) (f : State → State) (hf : Keeps t (f t)) : Keeps s (t.transaction r f) := by
  simp only [State.transaction]
  repeat' (first | split | exact h | exact h.trans hf | exact h.onTw _)

theorem Keeps.twWriteEnd (h : Keeps s t) (code : Byte) (bs : List Byte) (n : Nat) (p : Bool) (f : State → State)
    (hf : Keeps t (f t)) : Keeps s (t.twWriteEnd code bs n p f) := by
  have k : Keeps s ((f t).onTw (Tw.done [] true)) := (h.trans hf).onTw _
  unfold State.twWriteEnd
  split
  · exact Keeps.ite (h.twProto 6) (Keeps.ite h.twPecMiss k)
  · exact Keeps.ite h.twPecErr (Keeps.ite k (h.twProto 5))

theorem Keeps.sbsFail (h : Keeps s t) (c : BitVec 3) : Keeps s (t.sbsFail c) := (h.onTw _).raise 39

theorem Keeps.probeOk (h : Keeps s t) (d : List Byte) : Keeps s (t.probeOk d) := by
  simp only [State.probeOk]
  split
  · exact ((h.onTw _).raise 44).answer _ _ _
  · exact h

theorem Keeps.probeFail (h : Keeps s t) (c : BitVec 3) : Keeps s (t.probeFail c) := by
  simp only [State.probeFail]
  split
  · exact ((h.onTw _).raise 40).answer _ _ _
  · exact h

end Sys2Proof.Machine
end

