-- ==== Sys2Proof/Laws/KeepsCore.lean ====
section
/-! SUPPORT. What the operations of the core die keep: the link endpoint, the charger, the domains, the Log engine and the
gauge. -/

namespace Sys2Proof.Machine

variable {s t u : State}

/-! ## The line die's own changes -/

theorem Keeps.whileRunning (h : Keeps s t) (f : LineDie → LineDie) (hf : ∀ l, l.ok → (f l).ok) :
    Keeps s (t.whileRunning f) := h.when _ _ ((Keeps.refl t).onLine f hf)

theorem LineDie.send_tlm (l : LineDie) : l.send.tlmQ.length ≤ l.tlmQ.length := by
  unfold LineDie.send
  split
  · exact Nat.le_refl _
  · split <;> simp_all
theorem LineDie.pushEvt_tlm (c : Byte) (w : Word) (l : LineDie) : (l.pushEvt c w).tlmQ.length ≤ l.tlmQ.length :=
  LineDie.send_tlm _
theorem LineDie.pushQa_tlm (k : QaKind) (a c : BitVec 3) (w : Word) (l : LineDie) :
    (l.pushQa k a c w).tlmQ.length ≤ l.tlmQ.length := by
  unfold LineDie.pushQa; split
  · exact Nat.le_refl _
  · exact LineDie.send_tlm _
theorem LineDie.pushZc_tlm (p k : Bool) (w : Word) (l : LineDie) : (l.pushZc p k w).tlmQ.length ≤ l.tlmQ.length := by
  unfold LineDie.pushZc; split
  · exact Nat.le_refl _
  · exact LineDie.send_tlm _
theorem LineDie.resume_tlm (l : LineDie) : l.resume.tlmQ = l.tlmQ := by
  unfold LineDie.resume; split <;> rfl
theorem LineDie.stopFor_tlm (c : StopCause) (k : Byte) (w : Word) (l : LineDie) :
    (l.stopFor c k w).tlmQ.length ≤ l.tlmQ.length := by
  unfold LineDie.stopFor; split
  · exact Nat.le_refl _
  · exact LineDie.pushEvt_tlm _ _ _
theorem LineDie.lift_tlm (cs : List StopCause) (b : Bool) (l : LineDie) : (l.lift cs b).tlmQ = l.tlmQ := by
  unfold LineDie.lift; split
  · rw [LineDie.resume_tlm]
  · rfl
theorem LineDie.unhold_tlm (l : LineDie) : l.unhold.tlmQ = l.tlmQ := by
  unfold LineDie.unhold; split
  · rw [LineDie.resume_tlm]
  · rfl
theorem LineDie.heard_tlm (l : LineDie) : l.heard.tlmQ.length ≤ l.tlmQ.length := LineDie.send_tlm _
theorem LineDie.regulate_tlm (d : BitVec 12) (l : LineDie) : (l.regulate d).tlmQ.length ≤ l.tlmQ.length := by
  unfold LineDie.regulate
  rw [LineDie.unhold_tlm]
  exact LineDie.heard_tlm l
theorem LineDie.endQuiet_tlm (c : BitVec 3) (w : Word) (l : LineDie) : (l.endQuiet c w).tlmQ.length ≤ l.tlmQ.length := by
  unfold LineDie.endQuiet; split
  · exact LineDie.pushQa_tlm _ _ _ _ _
  · exact Nat.le_refl _
theorem LineDie.rising_tlm (w : Word) (p : Nat) (l : LineDie) : (l.rising w p).tlmQ = l.tlmQ := rfl
theorem LineDie.falling_tlm (w : Word) (p : Nat) (l : LineDie) : (l.falling w p).tlmQ = l.tlmQ := rfl

/-- What leaves no more TLM frames queued keeps the bound of the queue. -/
theorem LineDie.ok_of_le {l k : LineDie} (h : k.tlmQ.length ≤ l.tlmQ.length) (i : l.ok) : k.ok := Nat.le_trans h i

/-! ## The link endpoint -/

theorem Link.enterTraining_loss (l : Link) : l.enterTraining.lossCount = l.lossCount := by
  simp only [Link.enterTraining, Link.sendCfg_loss]

theorem Keeps.uplinkSeen (h : Keeps s t) : Keeps s t.uplinkSeen := by
  unfold State.uplinkSeen
  exact Keeps.ite (h.onLink _ fun l => Nat.le_of_eq (congrArg BitVec.toNat (Link.enterTraining_loss l).symm)) h

theorem Keeps.linkGoes (h : Keeps s t) (x : LinkState) : Keeps s (t.linkGoes x) :=
  (h.linkLeavesUp.onLink _ fun _ => by exact Nat.le_refl _).chargerFollows

theorem Keeps.linkFault (h : Keeps s t) : Keeps s t.linkFault := (h.linkGoes .fault).raise 3

/-- A downlink frame's change of the line die. -/
theorem Keeps.downFrame (h : Keeps s t) (fr : DownFrame) (f : LineDie → LineDie) (hf : ∀ l, l.ok → (f l).ok) :
    Keeps s (t.downFrame fr f) := by
  unfold State.downFrame
  exact Keeps.ite ((h.onLink _ fun l => by rw [Link.send_loss]).whileRunning f hf) h

/-- An uplink frame's change of the core die. -/
theorem Keeps.upFrame (h : Keeps s t) (fr : UpFrame) (f : State → State) (hf : ∀ u, Keeps s u → Keeps s (f u)) :
    Keeps s (t.upFrame fr f) := by
  unfold State.upFrame
  have k := h.onLine (fun l => { l with upFlight := none }.send) fun l i => LineDie.ok_of_le (LineDie.send_tlm _) i
  exact Keeps.ite (Keeps.ite (hf _ k.uplinkSeen) (Keeps.ite k.uplinkSeen k)) h

theorem Keeps.countDiscard (h : Keeps s t) (n : Nat) : Keeps s (t.countDiscard n) := by
  unfold State.countDiscard
  exact Keeps.ite (h.onLink _ fun _ => by exact Nat.le_refl _).linkFault (h.onLink _ fun _ => by exact Nat.le_refl _)

theorem Keeps.linkUp (h : Keeps s t) : Keeps s t.linkUp := by
  refine Keeps.raise (Keeps.onLine (Keeps.onDom (h.onLink _ fun _ => by exact Nat.le_refl _) _ fun _ i => by exact i) _ ?_) 15
  intro l i
  split
  · exact LineDie.ok_of_le (LineDie.pushEvt_tlm _ _ _) i
  · exact i

theorem Keeps.recordLoss (h : Keeps s t) (w : Word) : Keeps s (t.recordLoss w) := h.onBin _ fun _ i => by exact i

theorem Keeps.trimZc (h : Keeps s t) (f : ZcFrame) : Keeps s (t.trimZc f) := by
  unfold State.trimZc
  refine Keeps.ite (Keeps.ite (h.trimAbort 1) (Keeps.ite (h.trimAbort 3) (Keeps.ite h ?_))) h
  split
  · exact Keeps.ite (h.onTrim _) (h.trimAbort 2)
  · exact h.onTrim _

/-- An event that is raised on a condition. -/
theorem Keeps.raiseIf (h : Keeps s t) (c : Bool) (e : Nat) : Keeps s (t.when c (State.raise e)) :=
  h.when c _ ((Keeps.refl t).raise e)

theorem Keeps.sourceChange (h : Keeps s t) (o n : Option Source) : Keeps s (t.sourceChange o n) := by
  unfold State.sourceChange
  extract_lets u
  have k : Keeps s u := h.onPower _
  refine Keeps.learnDisq (k.when _ _ ?_) 7
  exact (((Keeps.refl u).onPower _).raise 7).when _ _ ((Keeps.refl _).stampFso _)

theorem Keeps.chgEnter (h : Keeps s t) (c : ChgState) : Keeps s (t.chgEnter c) := by
  unfold State.chgEnter
  extract_lets c zero u start v
  have ku : Keeps s u := h.onPower _
  have kv : Keeps s v := (ku.raiseIf _ _).when _ _ ((Keeps.refl _).onGauge _ fun _ i => by exact i)
  exact Keeps.ite h ((kv.raiseIf _ _).raiseIf _ _)

theorem Keeps.pressed (h : Keeps s t) (k : Nat) (l : Bool) : Keeps s (t.pressed k l) :=
  (((h.onBin _ fun _ i => by exact i).binSet _ _).raise 27).wake 10 _

/-! ## Paths and records of the Log engine -/

theorem Keeps.onPath (h : Keeps s t) (p : Path) (f : PathSt → PathSt) : Keeps s (t.onPath p f) := h.onLog _

theorem Keeps.pathRecord (h : Keeps s t) (p : Path) (stamp : BitVec 64) (type rflags : Byte)
    (fs : List (Nat × Option (List Byte))) : Keeps s (t.pathRecord p stamp type rflags fs) := by
  unfold State.pathRecord
  split
  · exact (h.fill fs).record _ _ _ _ _ _
  · exact h

theorem Keeps.memUsed (h : Keeps s t) : Keeps s t.memUsed :=
  Keeps.foldl _ (fun t n => (Keeps.refl t).onBerth n _ fun _ i => by exact i) _ h

theorem Keeps.charge (h : Keeps s t) (b : Option (Fin 4)) (ns : Nat) : Keeps s (t.charge b ns) := by
  unfold State.charge
  split
  · exact h.onBerth _ _ fun _ i => by exact i
  · exact h

theorem Keeps.startSounding (h : Keeps s t) (p : Path) : Keeps s (t.startSounding p) :=
  ((h.onPath p _).onLog _).when _ _ ((Keeps.refl _).raise 70)

theorem Keeps.startLearn (h : Keeps s t) (p : Path) : Keeps s (t.startLearn p) := h.onLog _

theorem Keeps.startNext (h : Keeps s t) : Keeps s t.startNext := by
  unfold State.startNext
  refine Keeps.ite (Keeps.ite (h.startSounding _) (Keeps.ite (h.startSounding _) ?_)) h
  split
  · exact h.startLearn _
  · exact h

theorem Keeps.storeWrite (h : Keeps s t) (b : Fin 4) (a : Bool) (e : Option (Fin 4)) (f : StoreImage → StoreImage) :
    Keeps s (t.storeWrite b a e f) := by
  unfold State.storeWrite; exact h.onFw _

theorem Keeps.totalsEntry (h : Keeps s t) (k : Byte) (p : Path) : Keeps s (t.totalsEntry k p) := by
  unfold State.totalsEntry
  split
  · exact h.logWrite _ _ _ _
  · exact h

theorem Keeps.saveTotals (h : Keeps s t) (k : Byte) : Keeps s (t.saveTotals k) := by
  unfold State.saveTotals
  extract_lets u v
  have ku : Keeps s u := h.when _ _ ((Keeps.refl t).need _)
  have kv : Keeps s v := ku.when _ _ ((Keeps.refl u).totalsEntry k .a)
  exact kv.when _ _ ((Keeps.refl v).totalsEntry k .b)

/-! ## Domains that reach ON -/

theorem Keeps.takeZone (h : Keeps s t) : Keeps s t.takeZone := by
  unfold State.takeZone
  exact Keeps.ite ((h.onPower _).raiseIf _ _) h

theorem Keeps.restoreHif (h : Keeps s t) : Keeps s t.restoreHif := by
  unfold State.restoreHif
  dsimp only
  split
  · exact ((h.onEv _).onFw _).onEv _
  · exact (h.onFw _).onEv _

theorem Keeps.sysReset (h : Keeps s t) : Keeps s t.sysReset := by
  unfold State.sysReset
  exact Keeps.ite ((h.onDom _ fun _ i => by exact i).raise 80) h

theorem Keeps.raiseLate (h : Keeps s t) : Keeps s t.raiseLate :=
  Keeps.foldl _ (fun t e => Keeps.ite ((Keeps.refl t).raise e) (Keeps.refl t)) _ (h.onEv _)

theorem Keeps.reached (h : Keeps s t) (d : Domain) (o : Low) (v : Nat) : Keeps s (t.reached d o v) := by
  cases d <;> simp only [State.reached]
  · exact h
  · exact h
  · exact (h.when _ _ (Keeps.refl _).memUsed).flushRecords
  · exact (h.onLog _).startNext
  · exact Keeps.ite ((h.onGauge _ fun _ _ => Gauge.fresh_ok).raise 93) h
  · exact (h.onDom _ fun _ i => by exact i).takeZone.chargerGate
  · exact (h.raiseLate.when _ _ (Keeps.refl _).restoreHif).sysReset

theorem Keeps.fwReset (h : Keeps s t) (c : BitVec 4) : Keeps s (t.fwReset c) := by
  unfold State.fwReset; exact (h.resetSwitched c).onFw _

theorem Keeps.beforeWait (h : Keeps s t) : Keeps s t.beforeWait := by
  unfold State.beforeWait
  exact h.onDom _ fun _ i => by exact i

theorem Keeps.handled (h : Keeps s t) : Keeps s t.handled := h.onDom _ fun _ i => by exact i

/-! ## Soundings -/

theorem Keeps.onShot (h : Keeps s t) (f : Shot → Shot) : Keeps s (t.onShot f) := h.onLog _

theorem Keeps.flowRecords (h : Keeps s t) (x : Sounding) (r : FlowRes) (q : HeatRes) (a b : Bool) :
    Keeps s (t.flowRecords x r q a b) := by
  unfold State.flowRecords
  exact Keeps.ite ((h.pathRecord _ _ _ _ _).pathRecord _ _ _ _ _) (h.pathRecord _ _ _ _ _)

theorem Keeps.flowResult (h : Keeps s t) (x : Sounding) (r : FlowRes) : Keeps s (t.flowResult x r) := by
  unfold State.flowResult
  extract_lets tfall leeway ok first late first' hist v q heat before c above after detect u w
  have ku : Keeps s u := h.onPath _ _
  have kw : Keeps s w := (((ku.raiseIf _ _).raiseIf _ _).raiseIf _ _).raise _
  exact kw.when _ _ ((Keeps.refl w).flowRecords _ _ _ _ _)

theorem Keeps.finishSounding (h : Keeps s t) (x : Sounding) : Keeps s (t.finishSounding x) := by
  unfold State.finishSounding
  extract_lets res a b c r d
  have kb : Keeps s b := (h.onLog _).onPath _ _
  have kc : Keeps s c := kb.when _ _ ((Keeps.refl b).pathRecord _ _ _ _ _)
  have kd : Keeps s d := kc.when _ _ ((Keeps.refl c).onLog _)
  exact (kd.flowResult _ _).startNext

theorem Keeps.finishPair (h : Keeps s t) : Keeps s t.finishPair := (h.onLog _).startNext

theorem Keeps.endShot (h : Keeps s t) (r : ShotResult) (w : List (BitVec 14)) : Keeps s (t.endShot r w) := by
  unfold State.endShot
  split
  · exact h
  · extract_lets learning a b c d y
    have ka : Keeps s a := ((((h.raiseIf _ _).raiseIf _ _).raiseIf _ _).raiseIf _ _).raiseIf _ _
    have kb : Keeps s b := ka.when _ _ ((Keeps.refl a).pathRecord _ _ _ _ _)
    have kc : Keeps s c := Keeps.ite (kb.onLog _) (kb.onPath _ _)
    have kd : Keeps s d := kc.onLog _
    exact Keeps.ite (Keeps.ite kd.finishPair (kd.finishSounding _)) (kd.onLog _)

theorem Link.quietAnswer_loss (a : BitVec 3) (k : Nat) (c : BitVec 3) (l : Link) :
    (l.quietAnswer a k c).lossCount = l.lossCount := rfl

theorem Keeps.grantLocally (h : Keeps s t) (e : Nat) (a : BitVec 3) (n : BitVec 13) : Keeps s (t.grantLocally e a n) := by
  unfold State.grantLocally
  extract_lets refuse
  have r : ∀ c, Keeps s (refuse c) := fun c =>
    (h.when _ _ ((Keeps.refl t).onLink _ fun _ => by exact Nat.le_refl _)).onShot _
  exact Keeps.ite (r 2) (Keeps.ite (r 0) (h.onLink _ fun _ => by exact Nat.le_refl _).chargerFollows)

/-! ## Calibrations and RTD sets -/

theorem Keeps.calEnds (h : Keeps s t) (p : Path) (o : CalOutcome) : Keeps s (t.calEnds p o) := (h.onLog _).onPath _ _

theorem Keeps.leewayEnds (h : Keeps s t) (c : Calibration) (a : Bool) : Keeps s (t.leewayEnds c a) := by
  unfold State.leewayEnds
  exact (((h.calEnds _ _).pathRecord _ _ _ _ _).raise 77).when _ _ (((Keeps.refl _).onPath _ _).storeWrite _ _ _ _)

theorem Keeps.rtdComplete (h : Keeps s t) (r : RtdSet) : Keeps s (t.rtdComplete r) := by
  unfold State.rtdComplete
  refine Keeps.when (Keeps.raise (Keeps.foldl _ (fun t x => ?_) _ (h.onLog _)) 75) _ _ ((Keeps.refl _).raise 76)
  dsimp only
  split
  · exact ((Keeps.refl t).fill _).record _ _ _ _ _ _
  · exact Keeps.refl t

theorem Keeps.rtdEnds (h : Keeps s t) (r : RtdSet) (c : Fin 5) (rest : List (Fin 5)) (k : Option Nat) :
    Keeps s (t.rtdEnds r c rest k) := by
  unfold State.rtdEnds
  have k := fun b n f => (h.charge b n).onLog f
  exact (Keeps.ite ((k _ _ _).rtdComplete _) (k _ _ _)).startNext

/-! ## The gauge -/

theorem Keeps.enterLevel (h : Keeps s t) (k : Nat) (a : Bool) : Keeps s (t.enterLevel k a) :=
  (h.onGauge _ fun _ i => by exact i).raise _

theorem Keeps.socLevels (h : Keeps s t) : Keeps s t.socLevels :=
  Keeps.foldl _ (fun t k => Keeps.ite ((Keeps.refl t).enterLevel k false) (Keeps.refl t)) _ h

theorem Keeps.cellLevels (h : Keeps s t) : Keeps s t.cellLevels :=
  Keeps.foldl _ (fun t k => Keeps.ite ((Keeps.refl t).enterLevel k true) (Keeps.refl t)) _ h

theorem Keeps.eocCheck (h : Keeps s t) : Keeps s t.eocCheck := by
  unfold State.eocCheck
  exact Keeps.ite h (Keeps.ite ((h.onGauge _ fun _ i => by exact i).raise 92)
    (Keeps.ite (h.onGauge _ fun _ i => by exact i) h))

/-- The accumulator saturates at its 48 bits. -/
theorem Gauge.add_ok (i : Int) (g : Gauge) : (g.add i).1.ok := by
  simp only [Gauge.ok, Gauge.add, clampInt, accMin, accMax]
  omega

theorem Gauge.reckon_acc (g : Gauge) : g.reckon.acc = g.acc := rfl
theorem Gauge.anchor_acc (v : BitVec 16) (a : Int) (g : Gauge) : (g.anchor v a).acc = g.acc := rfl
theorem Gauge.rest_acc (q : Bool) (g : Gauge) : (g.rest q).acc = g.acc := by
  unfold Gauge.rest; split
  · rfl
  · split <;> rfl
theorem Gauge.learnStep_acc (q : Bool) (g : Gauge) : (g.learnStep q).acc = g.acc := by
  unfold Gauge.learnStep; split
  · rfl
  · split
    · rfl
    · split <;> rfl
theorem Gauge.leaveLevels_acc (g : Gauge) : g.leaveLevels.acc = g.acc := by
  unfold Gauge.leaveLevels
  generalize [0, 1, 2] = ks
  induction ks generalizing g with
  | nil => rfl
  | cons k ks ih => rw [List.foldl_cons, ih]; split <;> rfl

/-- A change that leaves ACC keeps its bounds. -/
theorem Gauge.ok_of_acc (g k : Gauge) (h : k.acc = g.acc) (i : g.ok) : k.ok := by
  unfold Gauge.ok at *; rw [h]; exact i

theorem Keeps.takeReading (h : Keeps s t) (n sum rts : Nat) : Keeps s (t.takeReading n sum rts) := by
  unfold State.takeReading
  exact (h.onGauge _ fun _ i => by exact i).when _ _ ((Keeps.refl _).learnDisq 1)

theorem Keeps.zoneResult (h : Keeps s t) (k : Int) : Keeps s (t.zoneResult k) := by
  unfold State.zoneResult
  exact (h.onPower _).when _ _ (Keeps.refl _).takeZone

theorem Keeps.closeLearn (h : Keeps s t) (a b : Int) : Keeps s (t.closeLearn a b) := by
  unfold State.closeLearn
  dsimp only
  split <;> exact (((h.fill _).gaugeRecord _ _ _ _).onGauge _ fun _ i => by exact i).raise _

theorem Keeps.learnFix (h : Keeps s t) : Keeps s t.learnFix := by
  unfold State.learnFix
  exact (h.when _ _ ((Keeps.refl _).closeLearn _ _)).onGauge _ fun g i =>
    Gauge.ok_of_acc g _ (by split <;> rfl) i

end Sys2Proof.Machine
end

