-- ==== Sys2Proof/Laws/KeepsFirm.lean ====
section
/-! SUPPORT. What firmware's operations keep: charters, epochs, seals, the stores of flash, a start, and the operations the
mailbox commands share. -/

namespace Sys2Proof.Machine

variable {s t u : State}

/-! ## The logbook (R292) -/

/-- Dropping the first entry of a class takes one from that class, if it has one, and none from another. -/
theorem dropFirst_filter (p q : LogEntry → Bool) (es : List LogEntry) :
    ((dropFirst p es).filter q).length ≤ (es.filter q).length ∧
      (0 < (es.filter p).length → ((dropFirst p es).filter p).length + 1 = (es.filter p).length) := by
  induction es with
  | nil => simp [dropFirst]
  | cons e es ih =>
    unfold dropFirst
    by_cases h : p e
    · rw [if_pos h]
      refine ⟨?_, fun _ => ?_⟩
      · by_cases k : q e <;> simp [k]
      · simp [h]
    · rw [if_neg h]
      refine ⟨?_, fun j => ?_⟩
      · by_cases k : q e <;> simp [k, ih.1]
      · simp only [List.filter_cons_of_neg h] at *
        exact ih.2 j

/-- An entry added to the logbook leaves both classes within their rooms. -/
theorem bookAdd_ok (f : Flash) (e : LogEntry) (i : f.ok) : ({ f with logbook := bookAdd f.logbook e } : Flash).ok := by
  obtain ⟨it, ia⟩ := i
  simp only [Flash.ok, bookAdd, List.filter_append, List.length_append]
  cases h : e.isTotals
  · have same : (fun x : LogEntry => x.isTotals == false) = fun x => !x.isTotals := by
      funext x; cases x.isTotals <;> rfl
    have a := dropFirst_filter (fun x => !x.isTotals) LogEntry.isTotals f.logbook
    have b := dropFirst_filter (fun x => !x.isTotals) (fun x => !x.isTotals) f.logbook
    have e1 : ([e].filter LogEntry.isTotals).length = 0 := by simp [h]
    have e2 : ([e].filter fun x => !x.isTotals).length = 1 := by simp [h]
    rw [same, e1, e2]
    simp only [Bool.false_eq_true, if_false]
    split <;> omega
  · have same : (fun x : LogEntry => x.isTotals == true) = LogEntry.isTotals := by
      funext x; cases x.isTotals <;> rfl
    have a := dropFirst_filter LogEntry.isTotals (fun x => !x.isTotals) f.logbook
    have b := dropFirst_filter LogEntry.isTotals LogEntry.isTotals f.logbook
    have e1 : ([e].filter LogEntry.isTotals).length = 1 := by simp [h]
    have e2 : ([e].filter fun x => !x.isTotals).length = 0 := by simp [h]
    rw [same, e1, e2]
    simp only [if_true]
    split <;> omega

theorem Flash.saveStore_logbook (i : StoreImage) (f : Flash) :
    (f.saveStore i).logbook = f.logbook ∧ (f.saveStore i).auditCtr = f.auditCtr := by
  unfold Flash.saveStore
  split
  · split <;> exact ⟨rfl, rfl⟩
  all_goals exact ⟨rfl, rfl⟩

theorem Keeps.saveStore (h : Keeps s t) (i : StoreImage) : Keeps s (t.onFlash (Flash.saveStore i)) :=
  h.onFlash _ (fun f k => by unfold Flash.ok at *; rw [(Flash.saveStore_logbook i f).1]; exact k)
    fun f => (Flash.saveStore_logbook i f).2

theorem Keeps.bookAdd (h : Keeps s t) (e : LogEntry) :
    Keeps s (t.onFlash fun f => { f with logbook := Sys2Proof.Machine.bookAdd f.logbook e }) :=
  h.onFlash _ (fun f i => bookAdd_ok f e i) fun _ => rfl

/-! ## Charters, epochs, seals -/

theorem Keeps.berthsAll (h : Keeps s t) (f : Fin 4 → Berth → Berth) (hf : ∀ n k, k.ok → (f n k).ok) (ns : List (Fin 4)) :
    Keeps s (ns.foldl (fun t n => t.onBerth n (f n)) t) :=
  Keeps.foldl _ (fun t n => (Keeps.refl t).onBerth n _ (hf n)) _ h

theorem Keeps.applyCharter (h : Keeps s t) : Keeps s t.applyCharter := by
  unfold State.applyCharter
  exact Keeps.foldl _ (fun t n => (Keeps.refl t).onBerth n _ fun _ i => by exact i) _
    ((h.onDom _ fun _ i => by exact i).onBin _ fun _ i => by exact i)

theorem Keeps.chooseCharter (h : Keeps s t) : Keeps s t.chooseCharter := h.onFw _

theorem Keeps.writeSpare (h : Keeps s t) (c : Charter) : Keeps s (t.writeSpare c) := by
  unfold State.writeSpare
  refine h.onFlash _ (fun f i => ?_) fun f => ?_
  · split <;> exact i
  · split <;> rfl

theorem Keeps.replaceCharter (h : Keeps s t) (n : Fin 4) (e : Entry) : Keeps s (t.replaceCharter n e) := by
  unfold State.replaceCharter
  exact ((h.writeSpare _).onFw _).onBerth n _ fun _ i => by exact i

theorem Keeps.newEpoch (h : Keeps s t) (n : Fin 4) : Keeps s (t.newEpoch n) := by
  unfold State.newEpoch
  exact Keeps.ite (h.onBerth n _ fun _ i => by exact i)
    ((h.onFlash _ (fun _ i => by exact i) fun _ => by rfl).onBerth n _ fun _ i => by exact i)

theorem Keeps.macAdvance (h : Keeps s t) (n : Fin 4) : Keeps s (t.macAdvance n) := by
  unfold State.macAdvance
  exact Keeps.ite (h.newEpoch n) (h.onBerth n _ fun _ i => by exact i)

theorem Keeps.eraseLog (h : Keeps s t) (n : Fin 4) : Keeps s (t.eraseLog n) := by
  unfold State.eraseLog
  exact ((h.when _ _ ((Keeps.refl _).onPath _ _)).when _ _ ((Keeps.refl _).onPath _ _)).onLog _

theorem Keeps.sealBerth (h : Keeps s t) (e : LogEntry) : Keeps s (t.sealBerth e) := (h.replaceCharter _ _).raise 88

theorem Keeps.unsealBerth (h : Keeps s t) (n : Fin 4) : Keeps s (t.unsealBerth n) := h.replaceCharter _ _

/-- Entries that become durable one after another. -/
theorem Keeps.flushLog (h : Keeps s t) : Keeps s t.flushLog := by
  unfold State.flushLog
  refine Keeps.onFw ?_ _
  generalize t.fw.logQ = es
  have e : (t.onFlash fun f => { f with logbook := es.foldl Sys2Proof.Machine.bookAdd f.logbook }) =
      es.foldl (fun t e => t.onFlash fun f => { f with logbook := Sys2Proof.Machine.bookAdd f.logbook e }) t := by
    induction es generalizing t with
    | nil => rfl
    | cons e es ih => exact ih (t := t.onFlash fun f => { f with logbook := Sys2Proof.Machine.bookAdd f.logbook e }) (h.bookAdd e)
  rw [e]
  exact Keeps.foldl _ (fun t e => (Keeps.refl t).bookAdd e) es h

theorem Keeps.completeUnseal (h : Keeps s t) : Keeps s t.completeUnseal := by
  unfold State.completeUnseal
  split
  · exact h
  · refine Keeps.ite h ?_
    extract_lets n i a b
    have ka : Keeps s a := h.saveStore _
    have kb : Keeps s b := ka.when _ _ ((Keeps.refl a).unsealBerth _)
    exact (kb.logWrite _ _ _ _).flushLog

theorem Keeps.completeSeals (h : Keeps s t) : Keeps s t.completeSeals := by
  refine Keeps.foldl _ (fun t n => ?_) _ h
  split
  · exact Keeps.ite ((Keeps.refl t).sealBerth _) (Keeps.refl t)
  · exact Keeps.refl t

/-! ## A start -/

theorem Keeps.loadStore (h : Keeps s t) : Keeps s t.loadStore := by
  unfold State.loadStore; exact h.onLog _

theorem Keeps.restoreTotals (h : Keeps s t) : Keeps s t.restoreTotals := by
  unfold State.restoreTotals; exact (h.onPath _ _).onPath _ _

theorem Keeps.applyTrim (h : Keeps s t) (p : List Byte) : Keeps s (t.applyTrim p) := by
  unfold State.applyTrim
  refine Keeps.ite (h.trRun false) ?_
  refine Keeps.trRun (Keeps.when (h.onTrim _) _ _ ?_) true
  exact (Keeps.refl _).onBin _ fun b i => BinIo.setEvt_ok b 3 _ (fun hn => absurd rfl hn) i

theorem Keeps.loadTrim (h : Keeps s t) : Keeps s t.loadTrim := by
  unfold State.loadTrim
  split
  · exact (h.onFw _).applyTrim _
  · exact h.onFw _

theorem Keeps.rolledBack (h : Keeps s t) (a b : Bank) : Keeps s (t.rolledBack a b) := h.logWrite _ _ _ _

theorem Keeps.chooseBank (h : Keeps s t) : Keeps s t.chooseBank := by
  unfold State.chooseBank
  have k : ∀ f : Flash → Flash, (∀ x : Flash, (f x).logbook = x.logbook ∧ (f x).auditCtr = x.auditCtr) →
      Keeps s (t.onFlash f) := fun f hf =>
    h.onFlash f (fun x i => by unfold Flash.ok at *; rw [(hf x).1]; exact i) fun x => (hf x).2
  exact Keeps.ite ((k _ fun _ => by exact ⟨rfl, rfl⟩).rolledBack _ _)
    (Keeps.ite (Keeps.ite ((k _ fun _ => by exact ⟨rfl, rfl⟩).rolledBack _ _) (k _ fun _ => by exact ⟨rfl, rfl⟩)) h)

theorem Keeps.coldLoad (h : Keeps s t) : Keeps s t.coldLoad := by
  unfold State.coldLoad
  extract_lets a b c d e raw f g
  have kb : Keeps s b := h.chooseCharter.applyCharter.chooseBank
  have kc : Keeps s c := Keeps.foldl (fun s n => s.newEpoch n) (fun t n => (Keeps.refl t).newEpoch n) (List.finRange 4) kb
  have ke : Keeps s e := (kc.completeUnseal.completeSeals.onLog _).loadStore.restoreTotals
  have kg : Keeps s g := ((ke.onLog _).onDom _ fun _ i => by exact i).onEv _
  exact kg.onFw _

/-! ## Durable writes -/

theorem Keeps.answerWaiter (h : Keeps s t) (c : Half) (r : List Byte) : Keeps s (t.answerWaiter c r) := by
  unfold State.answerWaiter
  split
  · exact h.answer _ _ _
  · exact h

theorem Keeps.answerTotals (h : Keeps s t) : Keeps s t.answerTotals := by
  unfold State.answerTotals
  refine Keeps.ite h ?_
  have k := h.answerWaiter 0x060F []
  dsimp only
  split
  · exact (k.answer _ _ _).onFw _
  · exact k

theorem Keeps.afterEntry (h : Keeps s t) (e : LogEntry) : Keeps s (t.afterEntry e) := by
  unfold State.afterEntry
  have k := h.when e.isTotals (State.raise 78) ((Keeps.refl t).raise 78)
  exact Keeps.ite ((k.sealBerth _).answerWaiter _ _) (Keeps.ite ((k.eraseLog _).storeWrite _ _ _ _)
    (Keeps.ite ((k.raise 88).answerWaiter _ _) k))

/-! ## Requests -/

theorem Keeps.hold (h : Keeps s t) (n : Fin 4) (rq : Request) : Keeps s (t.hold n rq) := h.onBerth n _ fun _ i => by exact i

theorem Keeps.macLockout (h : Keeps s t) (n : Fin 4) : Keeps s (t.macLockout n) := by
  unfold State.macLockout
  exact Keeps.ite (((h.onBerth n _ fun _ i => by exact i).logWrite _ _ _ _).raise 91) h

theorem Keeps.macFail (h : Keeps s t) (n : Fin 4) (c : Bool) : Keeps s (t.macFail n c) := by
  unfold State.macFail
  exact (h.answer _ _ _).when _ _ (((Keeps.refl _).onBerth n _ fun _ i => by exact i).macLockout n)

theorem Keeps.takeChecked (h : Keeps s t) (n : Fin 4) (rq : Request) (mac : List Byte) : Keeps s (t.takeChecked n rq mac) := by
  unfold State.takeChecked
  have late : ∀ (rq : Request) (u : State), Keeps s u → Keeps s
      (if (t.berth n).seqKnown && rq.seq == (t.berth n).lastSeq then (u.hold n { rq with accepted := false }).answer n .seqError []
       else
        let v := (u.hold n rq).onBerth n fun b => { b with lastSeq := rq.seq, seqKnown := true }
        if commandCodes.contains rq.cmd then v else v.answer n .unknownCmd []) := by
    intro rq u k
    have v := (k.hold n rq).onBerth n (fun b => { b with lastSeq := rq.seq, seqKnown := true }) fun _ i => by exact i
    exact Keeps.ite ((k.hold n _).answer _ _ _) (Keeps.ite v (v.answer _ _ _))
  refine Keeps.ite ((h.hold n _).macFail n _) (Keeps.ite ((h.hold n _).macFail n _) (Keeps.ite ((h.hold n _).answer _ _ _)
    (Keeps.ite (Keeps.ite ((h.hold n _).macFail n _) ?_) ?_)))
  · exact late _ _ ((h.macAdvance n).onBerth n _ fun _ i => by exact i)
  · exact late _ _ h

theorem Keeps.checkRequest (h : Keeps s t) (n : Fin 4) (bytes : List Byte) : Keeps s (t.checkRequest n bytes) := by
  unfold State.checkRequest
  refine Keeps.ite ((h.hold n _).answer _ _ _) ?_
  dsimp only
  generalize (if slice bytes 0 _ = (t.berth n).lastFrame then (t.berth n).stored else none) = r
  cases r with
  | some r => exact h.postFrame _ _
  | none => exact Keeps.ite ((h.hold n _).macFail n _) (h.takeChecked n _ _)

theorem Keeps.checked (h : Keeps s t) (b : Fin 4) (d i l : Bool) (bad : Option Nat) (f : State → State) (hf : Keeps s (f t)) :
    Keeps s (t.checked b d i l bad f) := by
  unfold State.checked
  refine Keeps.ite (h.answer _ _ _) (Keeps.ite (h.answer _ _ _) (Keeps.ite (h.answer _ _ _) ?_))
  split
  · exact h.answer _ _ _
  · exact hf

theorem Keeps.unless (h : Keeps s t) (b : Fin 4) (cs : List (Bool × Status)) (f : State → State) (hf : Keeps s (f t)) :
    Keeps s (t.unless b cs f) := by
  unfold State.unless
  split
  · exact h.answer _ _ _
  · exact hf

theorem Keeps.ok (h : Keeps s t) (b : Fin 4) (r : List Byte) : Keeps s (t.ok b r) := h.answer _ _ _

theorem Keeps.waits (h : Keeps s t) (b : Fin 4) : Keeps s (t.waits b) := h.onBerth b _ fun _ i => by exact i

theorem Keeps.openRead (h : Keeps s t) (b : Fin 4) (rq : Request) (r : State → List Byte) : Keeps s (t.openRead b rq r) :=
  h.checked _ _ _ _ _ _ (h.ok _ _)

theorem Keeps.onCtl (h : Keeps s t) (f : HifSave → HifSave) : Keeps s (t.onCtl f) := by
  unfold State.onCtl; exact (h.onFw _).onEv _

theorem Keeps.writesFlash (h : Keeps s t) (b : Fin 4) : Keeps s (t.writesFlash b) :=
  Keeps.foldl _ (fun t n => Keeps.ite (Keeps.refl t) ((Keeps.refl t).onBerth n _ fun _ i => by exact i)) _ h

theorem Keeps.commitCharter (h : Keeps s t) (b : Fin 4) (es : Vector Entry 4) : Keeps s (t.commitCharter b es) := by
  unfold State.commitCharter
  extract_lets c u v w
  have kv : Keeps s v := ((h.writeSpare _).logWrite _ _ _ _).onFw _
  have kw : Keeps s w := Keeps.foldl _ (fun t n => (Keeps.refl t).onBerth n _ fun _ i => by exact i) _ kv
  exact ((kw.writesFlash b).raise 89).ok _ _

theorem Keeps.abortCal (h : Keeps s t) (n : Fin 4) : Keeps s (t.abortCal n) := by
  unfold State.abortCal
  split
  · refine Keeps.ite ?_ h
    split
    · exact (h.calEnds _ _).onLog _
    · exact h.leewayEnds _ _
  · exact h

theorem Keeps.holdDomains (h : Keeps s t) (v : BitVec 3) : Keeps s (t.holdDomains v) :=
  ((h.when _ _ ((Keeps.refl _).need _)).when _ _ ((Keeps.refl _).need _)).when _ _ ((Keeps.refl _).need _)

theorem Keeps.gaugeConfig (h : Keeps s t) (p : List Byte) : Keeps s (t.gaugeConfig p) := by
  unfold State.gaugeConfig
  refine (h.when _ _ ((Keeps.refl _).learnDisq 13)).onGauge _ fun g i => Gauge.ok_of_acc g _ ?_ i
  dsimp only
  split <;> rfl

theorem Keeps.gaugeRestore (h : Keeps s t) (p : List Byte) : Keeps s (t.gaugeRestore p) := by
  unfold State.gaugeRestore
  exact ((h.learnDisq 5).onGauge _ fun g i => by exact i).socLevels

theorem Keeps.acceptPath (h : Keeps s t) (b : Fin 4) (x : Path) (p : PathSt) (f : PathItems → PathItems) :
    Keeps s (t.acceptPath b x p f) := by
  unfold State.acceptPath
  exact ((((h.need .memM).onPath x _).memUsed).storeWrite _ _ _ _).waits b

theorem Keeps.probeStart (h : Keeps s t) (b : Fin 4) (w : Bool) (n a c : Nat) (d : List Byte) :
    Keeps s (t.probeStart b w n a c d) :=
  ((h.need .hif).onTw _).waits b

end Sys2Proof.Machine
end

