-- ==== Sys2Proof/WellFormed.lean ====
section
/-! DEFINITION. Which commands are well formed: the bounds that the rules put on what reaches the module, where the type
of an operand does not say them. The meanings are total and do not lean on this check. -/

namespace Sys2Proof

/-- The bounds on a command's operands. -/
def Instr.wf : Instr → Bool
  -- a WRITE has at least one data byte (R190)
  | .registerWrite _ _ bytes => !bytes.isEmpty
  -- the two samples of a crossing straddle 0 V (R55)
  | .zeroCrossing _ v0 v1 _ => v0.msb != v1.msb
  -- CPU knows no RET (R158)
  | .waitInstruction targets => targets.all fun t => !(t.1 == .cpu && t.2 == .ret)
  -- a launch conversion is within the TDC's range of 2^20 periods of 2,000 bins (R327)
  | .shotFire _ _ _ launch => launch.all fun d => decide (d < 2 ^ 20 * 2000)
  -- a read set that succeeds has its seven words (R421)
  | .sbsReadComplete how words => how != .ok || words.length == 7
  -- a fix reading is sixteen conversions (R405)
  | .fixAttempt bsns _ => bsns.length == 16
  | _ => true

end Sys2Proof
end

