-- ==== Sys2Proof/Tests/Slice0.lean ====
section
/-! SUPPORT. Tests of the model by its own author: ill-formed commands, the manual's worked examples, and for each statement
of Certificates/Slice0/Obligations.lean states and operands that meet its hypotheses. -/

namespace Sys2Proof.Tests

open Sys2Proof Sys2Proof.Machine

-- One theorem after another: `decide +kernel` waits for the kernel, and a thread for each theorem would wait with it.
set_option Elab.async false

/-! ## Ill-formed commands: one for each check of WellFormed.lean -/

theorem test_wf_write_without_data : Instr.wf (.registerWrite .csA 0x01C0 []) = false := by decide
theorem test_wf_crossing_that_does_not_cross : Instr.wf (.zeroCrossing 0 5 7 100) = false := by decide
theorem test_wf_wait_takes_cpu_to_ret : Instr.wf (.waitInstruction [(.cpu, .ret)]) = false := by decide
theorem test_wf_launch_beyond_the_tdc : Instr.wf (.shotFire 0 0 12000 (some (2 ^ 20 * 2000))) = false := by decide
theorem test_wf_battery_read_of_six_words :
    Instr.wf (.sbsReadComplete .ok (List.replicate 6 0)) = false := by decide
theorem test_wf_fix_of_fifteen_readings : Instr.wf (.fixAttempt (List.replicate 15 0) 10000) = false := by decide
theorem test_wf_takes_the_well_formed :
    (Instr.wf (.registerWrite .csA 0x01C0 [1]) && Instr.wf (.zeroCrossing 0 (-5) 7 100) &&
      Instr.wf (.waitInstruction [(.cpu, .off)]) && Instr.wf (.shotFire 0 0 12000 (some (2 ^ 20 * 2000 - 1))) &&
      Instr.wf (.sbsReadComplete .ok (List.replicate 7 0)) && Instr.wf (.fixAttempt (List.replicate 16 0) 10000)) = true := by
  decide

/-! ## States the tests start from -/

/-- The state after a command; the state itself where it ends in no next state. -/
def after (c : Instr) (s : State) : State :=
  match exec c s with
  | .next t => t
  | _ => s

/-- Every domain ON, firmware started, the strap latched, the link UP and the line die running; B0 and B3 bound to CS_A,
B1 to CS_B, B2 to the two-wire channel. -/
def live : State :=
  { State.reset with
    dom := { State.reset.dom with
      cpu := { st := .on }, memM := { st := .on }, memB := { st := .on }, log := { st := .on }, gauge := { st := .on }
      pwr := { st := .on }, hif := { st := .on }, cpuUp := true, bind := 0x24 }
    bin := { State.reset.bin with strapBusy := false }
    tw := { State.reset.tw with addr := 0x4B }
    line := { State.reset.line with running := true, downlink := true, switching := true, sourceOn := false }
    link := { State.reset.link with state := .up }
    ev := { State.reset.ev with routeOk := true }
    power := { State.reset.power with src := some .bat, batValid := true }
    fw := { State.reset.fw with started := true } }

/-- `live` after a reset whose state nobody has touched: every domain OFF. -/
def asleep : State := { live with dom := { live.dom with
  cpu := {}, memM := {}, memB := {}, log := {}, gauge := {}, pwr := {}, hif := {}, cpuUp := false } }

/-- A request of berth `b`, taken and not yet executed. -/
def request (cmd : Half) (payload : List Byte) : Request :=
  { cmd, seq := 5, flags := 2, payload, mac := false, ctr := 0, frame := [] }

/-- A berth's charter entry with every right, a key and quotas. -/
def richEntry : Entry := { port := 0, rights := 0x3FFF, logQuota := 1000, memQuota := 48, key := List.replicate 32 1 }

/-- `s` with the request in hand for berth `b`, and every right for it. -/
def asking (s : State) (b : Fin 4) (rq : Request) : State :=
  { s with
    berths := { s.berths with blk := s.berths.blk.set b { s.berths.blk[b] with cur := some rq } }
    fw := { s.fw with charter := { s.fw.charter with entries := s.fw.charter.entries.set b richEntry } } }

/-- `asking`, with the charter as it stands: no right for B0 or B3. -/
def asksOnly (s : State) (b : Fin 4) (rq : Request) : State :=
  { s with berths := { s.berths with blk := s.berths.blk.set b { s.berths.blk[b] with cur := some rq } } }

/-! ## The manual's worked examples -/

/-- Chapter 1: CPU and MEM_B up and on the battery, nothing pending: LIVE is 0xD0 (bits 7 to 1 hold three 1s). -/
theorem test_live_byte_of_chapter_1 : live.live .csA = 0xD0 := by decide +kernel

/-- Chapter 5: asleep on the pack, LIVE is 0x10, and 0x51 with MEM_B ON. -/
theorem test_live_bytes_of_chapter_5 :
    asleep.live .csA = 0x10 ∧ ({ asleep with dom := asleep.dom.set .memB { st := .on } } : State).live .csA = 0x51 := by
  decide +kernel

/-- Chapter 6: an event of group 3, a response and the ACK of B2, bound to CS_A: EVSUM is 0x4408 and LIVE 0xDC; on CS_B,
where B3 is bound, they are 0 and 0xD0. -/
def chapter6 : State :=
  { live with
    dom := { live.dom with bind := 0x4F, bells := live.dom.bells.set 2 { ack := true } }
    ev := { live.ev with pend := live.ev.pend.set 2 (1#96 <<< 50) }
    berths := { live.berths with blk := live.berths.blk.set 2 { live.berths.blk[2] with respRdy := true } } }

theorem test_evsum_of_chapter_6 :
    (chapter6.evsum .csA, chapter6.live .csA, chapter6.evsum .csB, chapter6.live .csB) = (0x4408, 0xDC, 0, 0xD0) := by
  decide +kernel

/-- Chapter 6: the other host's read of B2's response mailbox is logged once, against B2, at 0x1900, with EV54. -/
theorem test_refused_read_of_chapter_6 :
    let s := after (.spiReadByte 0x1900 true) (after (.spiReadByte 0x1900 true) (after (.spiCsFall true false) chapter6))
    s.berths.av.stat = 0b0100 ∧ s.berths.av.cnt.toList = [0, 0, 1, 0] ∧ s.berths.av.addr = 0x1900 ∧ s.ev.raised = 1#96 <<< 54 ∧
      (s.spi.xfer.map (·.sent.drop 4)).getD [] = [0xFF, 0xFF] := by decide +kernel

/-- Chapter 8: the header CRCs, and chapter 7: the PEC of the ring. -/
theorem test_crcs_of_chapters_7_and_8 :
    crc16 [0x00, 0x01, 0x05, 0x03, 0x00, 0x00] = 0x4154 ∧ crc16 [0x00, 0x01, 0x05, 0x81, 0x01, 0x00] = 0x275F ∧
    crc16 [0x00, 0x01, 0x05, 0x02, 0x00, 0x00] = 0x7664 ∧ pec [0x96, 0x20, 0x02] = 0x74 ∧
    pec [0x96, 0x40, 0x0A, 0x02, 0x00, 0x00, 0x01, 0x05, 0x02, 0x00, 0x00, 0x64, 0x76] = 0xBE := by decide +kernel

/-- CRC-32 with the parameters of R248: its published check value over the digits 1 to 9. -/
theorem test_crc32_check_value : crc32 [0x31, 0x32, 0x33, 0x34, 0x35, 0x36, 0x37, 0x38, 0x39] = 0xCBF43926 := by decide +kernel

/-- FIPS 180-4: SHA-256 of "abc", its first bytes. -/
theorem test_sha256_abc : (sha256 [0x61, 0x62, 0x63]).take 8 = [0xBA, 0x78, 0x16, 0xBF, 0x8F, 0x01, 0xCF, 0xEA] := by
  decide +kernel

/-- RFC 4231, case 1: the key of twenty 0x0B (padded with zeros, as HMAC pads a short key) over "Hi There". -/
theorem test_hmac_case_1 :
    (hmac (List.replicate 20 0x0B ++ List.replicate 12 0) [0x48, 0x69, 0x20, 0x54, 0x68, 0x65, 0x72, 0x65]).take 8 =
      [0xB0, 0x34, 0x4C, 0x61, 0xD8, 0xDB, 0x38, 0x53] := by decide +kernel

/-- Chapter 8: the no-op of a sealed berth: MAC_CTR 0x00030012 becomes 0x00030014, LAST_SEQ 5, the response header ends in
0x5F 0x27, and EV48 is raised; the same frame rung again is answered again and MAC_CTR stays. -/
def chapter8Key : List Byte := (List.range 32).map (BitVec.ofNat 8)

def chapter8Frame : List Byte :=
  [0x00, 0x01, 0x05, 0x03, 0x00, 0x00, 0x54, 0x41] ++
    (hmac chapter8Key [0x00, 0x12, 0x00, 0x03, 0x00, 0x00, 0x01, 0x05, 0x03, 0x00, 0x00, 0x54, 0x41]).take 8

def sealedB0 : Entry := { port := 0, sealed := true, key := chapter8Key }

def chapter8 : State :=
  { live with
    fw := { live.fw with charter := { live.fw.charter with entries := live.fw.charter.entries.set 0 sealedB0 } }
    berths := { live.berths with blk := live.berths.blk.set 0 { sealed := true, macCtr := 0x00030012, lastSeq := 4, seqKnown := true } } }

def chapter8Run (s : State) : State :=
  after (.nop 0) (after (.firmwareTakeRequest 0) (after (.spiRing 0) (after (.spiCsFall false false)
    (after (.registerWrite .csA 0x1000 chapter8Frame) s))))

theorem test_sealed_noop_of_chapter_8 :
    let s := chapter8Run chapter8
    s.berths.blk[0].macCtr = 0x00030014 ∧ s.berths.blk[0].lastSeq = 5 ∧ s.berths.blk[0].respRdy = true ∧
      s.ev.raised = 1#96 <<< 48 ∧
      memReadAll s.berths.mem 0x1100 9 = [0x00, 0x01, 0x05, 0x81, 0x01, 0x00, 0x5F, 0x27, 0x00] := by decide +kernel

/-- The repeat of chapter 8, as one step: a frame equal to the last accepted one, whose response is stored, is answered
with that response again; MAC_CTR stays. -/
theorem test_repeated_frame_of_chapter_8 :
    let frame : List Byte := [0x00, 0x01, 0x05, 0x03, 0x00, 0x00, 0x54, 0x41, 1, 2, 3, 4, 5, 6, 7, 8]
    let s := after (.registerWrite .csA 0x1000 frame) (chapter8.onBerth 0 fun k =>
      { k with lastFrame := frame, stored := some [0x00, 0x01, 0x05], lastSeq := 5, macCtr := 0x00030014 })
    let t := after (.firmwareTakeRequest 0) (after (.ringWrite .csA 0) s)
    t.berths.blk[0].macCtr = 0x00030014 ∧ t.berths.blk[0].respRdy = true ∧ t.berths.blk[0].lastStatus = 0 ∧
      memReadAll t.berths.mem 0x1100 3 = [0x00, 0x01, 0x05] := by decide +kernel

/-- Chapter 4: 2100-02-29 is refused with CAL_REJ; 2100-02-28 23:59:59 loads as LSEC 3,160,857,599, a Sunday. -/
def chapter4 (day hour min sec : Byte) : State :=
  { live with cal := { live.cal with started := true, centS := 0x01, monthS := 0x02, dayS := day, hourS := hour, minS := min, secS := sec } }

theorem test_no_leap_day_in_2100 :
    (after (.calCmdSetr .csA) (chapter4 0x29 0x12 0 0)).cal.calRej = true := by decide +kernel

theorem test_end_of_february_2100 :
    let s := after .setrLoad (after (.calCmdSetr .csA) (chapter4 0x28 0x23 0x59 0x59))
    s.cal.lsec = 3160857599 ∧ dowOf s.cal.lsec.toNat = 7 ∧ s.cal.setLast = stampOf 3160857599 0 0b01 ∧ dowOf 3160857600 = 1 := by
  decide +kernel

/-- Chapter 4: at 00:00:05 with SHIFT of 8,192, the tick gives 00:00:05 and SUBSEC 24,576, and SET_PREV holds 00:00:06. -/
theorem test_shift_of_chapter_4 :
    let s := after .secondsTick { live with cal := { live.cal with
      started := true, lsec := 3160857605, subsec := 32767, shift := some 8192 } }
    (s.cal.lsec, s.cal.subsec, s.cal.shift, s.cal.setLast, s.cal.setPrev) =
      (3160857605, 24576, none, stampOf 3160857605 24576 0b11, stampOf 3160857606 0 0b11) := by decide +kernel

/-- Chapter 4: TR_COUNT 2,748,834,045 over 2^22 cycles of 50 Hz gives TR_CALC −168, read as 0x1F58. -/
theorem test_trim_of_chapter_4 :
    let s := after .trimMeasDone { live with trim := { live.trim with
      run := true, active := true, auto := true, k := 22, prog := 4194304, openRaw := some 0, raw := 2748834045 } }
    (s.trim.count, s.trim.calcd, s.trim.trim, s.trim.valid) = (2748834045, 0x1F58, 0x1F58, true) := by decide +kernel

/-- Chapter 3: the adapter pulled: the battery is selected, EV07, and FSO_BAT as of the next CK32 edge; the next test finds WAIT without EV08. -/
def chapter3 : State :=
  { live with power := { live.power with
      src := some .adp, adpValid := true, batValid := true, cells := 3, vreg := 20, chgEn := true, chg := .cc, tsAt := some 0 } }

theorem test_pulled_adapter_of_chapter_3 :
    let s := after .sourceSwitchClose (after (.sourceInvalid .adp 0) chapter3)
    (s.power.src, s.ev.raised, s.bin.fsoBatDue, (after (.chgStateTest 11400 11400 0) s).power.chg,
      (after (.chgStateTest 11400 11400 0) s).ev.raised) = (some .bat, 1#96 <<< 7, true, .wait, 1#96 <<< 7) := by decide +kernel

theorem test_charger_start_of_chapter_3 :
    let s := after (.chgStateTest 11400 19000 0) { chapter3 with power := { chapter3.power with chg := .wait } }
    (s.power.chg, s.ev.raised) = (.cc, 1#96 <<< 8) := by decide +kernel

/-- Chapter 2: QA OPEN for tag 3 and L of 6,400 at PLLA edge 582: the window closes 64 µs later, at edge 4,678; a capture of
4,096 samples that opens at edge 640 is cut to whole blocks inside it, 4,032 samples to edge 4,672, 73.000 µs. -/
def chapter2 : State :=
  { live with
    link := { live.link with quietQ := [⟨3, 6400⟩] }
    line := { live.line with upFlight := some (.qa ⟨.opened, 3, 0, 0⟩) } }

theorem test_window_of_chapter_2 :
    (after (.qaOpenReceived 3 0 582) chapter2).link.window = some ⟨582, 4678⟩ := by decide +kernel

/-- R63: the CRC-8 over the digits 1 to 9; the published check value of this polynomial and start, without a final XOR. -/
theorem test_link_crc_check_value :
    linkCrc ([0x31, 0x32, 0x33, 0x34, 0x35, 0x36, 0x37, 0x38, 0x39].flatMap fun b : Byte => bitsOf b) = 0x20 := by decide +kernel

/-- R63, R65: the QUIET frame of chapter 2, 29 bits, written out from the table: start bit, type 0x2, tag 0b011, L = 6,400, CRC;
with one bit turned it is discarded. -/
theorem test_quiet_frame_of_chapter_2 :
    let wire : List Bool := [false] ++ [false, false, true, false] ++ [false, true, true] ++
      [true, true, false, false, true, false, false, false, false, false, false, false, false] ++
      [false, false, true, false, true, true, false, true]
    (DownFrame.quiet 3 6400).bits = wire ∧ DownFrame.read wire = some (.quiet 3 6400) ∧ discards .down (wire.set 9 false) = true := by
  decide +kernel

/-- Chapter 2: at 60.000 µs, PLLA edge 3,840, VAUX below 16.0 V sends OVERRIDE and raises EV02. -/
theorem test_droop_of_chapter_2 :
    let s := after (.qwDroopOverride 3840 15999) { live with link := { live.link with window := some ⟨582, 4678⟩ } }
    s.link.overrideAt = some 3840 ∧ s.link.overrideDue = true ∧ s.ev.raised = 1#96 <<< 2 ∧
    (after (.qwDroopOverride 3840 16000) { live with link := { live.link with window := some ⟨582, 4678⟩ } }).link.overrideAt = none := by
  decide +kernel

/-- A sounding of path A in progress, with the given block and shot. -/
def sounding (acq : List Byte) (shot : Shot) : Sounding :=
  { path := .a, snum := 1, portA := 0, portB := 1, gain := 60, acq, flow := flowReset, card := cardReset, fluid := fluidReset, template := none
    leeway := 0, shot }

theorem test_capture_of_chapter_2 :
    let s := after (.captureOpen (4000 + 3840)) { live with
      link := { live.link with window := some ⟨7782, 11878⟩ }
      log := { live.log with cur := some (sounding (((acqReset.set 5 64).set 6 0x00).set 7 0x0F) { fire := some 4000 }) } }
    s.log.cur.bind (fun x => x.shot.capture) = some (7840, 4032) := by decide +kernel

/-- Chapter 9: a delivery that finds PEND set counts in MERGED and clears the latch. -/
theorem test_merge_of_chapter_9 :
    let s := after .eventDeliver { live with ev := { live.ev with
      raised := 1#96 <<< 20, route := live.ev.route.set 20 0b0100, pend := live.ev.pend.set 2 (1#96 <<< 20) } }
    s.ev.merged.toList = [0, 0, 1, 0] ∧ s.ev.raised = 0 ∧ s.ev.pend[2] = 1#96 <<< 20 := by decide +kernel

/-- Chapter 10: TOF_down 4,720,552,960 and TOF_up 4,720,561,152 give DTOF 8,192 and TOF_MEAN 4,720,557,056; the largest A1 of
4,100 leaves the gain. -/
theorem test_sounding_of_chapter_10 :
    let shot : ShotResult := { idx := 0, up := false, swapped := false, cause := 0, tof := 4720552960, a1 := some 4100 }
    let rs := [shot, { shot with idx := 1, up := true, tof := 4720561152 }]
    soundingResult rs = some (4720557056, 8192) ∧ gainStep rs = 0 := by decide +kernel

/-- Chapter 11: the flow block, the card and the sounding give v_line 0.96125 m/s and 904,048 µm/s, and 7,100,372 µL/s. -/
def chapter11Flow : List Byte :=
  leBytes 4 100000 ++ leBytes 4 230940 ++ leBytes 4 115470 ++ leBytes 4 1310720000 ++
    [0x14, 0xEE, 0x01, 5, 10, 0, 40, 0, 16, 30, 0x50, 30, 100, 0x00, 0x00, 0x01] ++ [0, 0, 0, 0, 20, 0, 0, 0, 0, 0, 0, 0, 0, 0, 0, 0]

def chapter11Card : List Byte := [2, 0, 0, 0] ++ leBytes 2 500 ++ leBytes 2 1200 ++ leBytes 2 1000 ++ leBytes 2 800

theorem test_flow_of_chapter_11 :
    let r := flowOf chapter11Flow chapter11Card [] 2048 20 11468800000 6555648
    (r.cause, r.vline, roundRat (r.vbar * 1000000), r.re.map fun x => (x / 100).floor, r.k.map fun x => roundRat (x * 65536)) =
      (0, 961249, 904048, some 957, some 61582) := by decide +kernel

/-- Chapter 12: 90.00 % at ACC 500,000,000,000 with SOC_K 21,600,000 reads 24.00 % at ACC 357,440,000,000. -/
theorem test_soc_of_chapter_12 :
    let g : Gauge := { Gauge.fresh with cfg := gaugeCfgReset, qFull := 3000, socA := 9000, accA := 500000000000
                                        acc := 357440000000, socK := 21600000 }
    g.kFor 3000 = 21600000 ∧ g.kFor 3075 = 22140000 ∧ g.reckon.soc = 2400 := by decide +kernel

/-- Chapter 12: the learn that closes with −60.00 % and −1,980.0 mAh makes Q_FULL 3,075 mAh, with EV83. -/
theorem test_learn_of_chapter_12 :
    let s := (live.onGauge fun g => { g with
      cfg := (g.cfg.set 4 0xB8).set 5 0x0B, qFull := 3000, learn := .opened, absSum := 142560000000, busyConv := 5941
      fixTemp := 250, tpack := 250 }).closeLearn (-6000) (-142560000000)
    s.gauge.qFull = 3075 ∧ s.gauge.learnCnt = 1 ∧ s.ev.raised = 1#96 <<< 83 := by decide +kernel

/-- Chapter 13: the wire-to-water answer: OK, 69.51 % and 7,100,372 µL/s (the chapter's illustration works P_HYD out
with the density rounded to 998.21 kg/m³, so that field is not compared here). -/
theorem test_w2w_of_chapter_13 :
    let s := ((live.onTrim fun t => { t with raw := 400000 }).onLog fun l => { l with a := { l.a with
      acqOk := true, flowOk := true, flow := chapter11Flow, tPrev := some ⟨0, 400000⟩, spans := [⟨0, 400000, some 7100372⟩] } })
    let t := after (.w2w 0) (asking s 0 (request 0x0700 [0, 10, 0, 0, 0x80, 0x84, 0x1E, 0, 0x20, 0x4E, 0, 0]))
    memReadAll t.berths.mem 0x1108 1 = [0] ∧
    memReadAll t.berths.mem 0x110D 6 = [0x27, 0x1B, 0xD4, 0x57, 0x6C, 0] := by decide +kernel

/-- R362: at the last point of a card its correction applies and CLAMPED is carried; at the first it is not. -/
theorem test_card_at_its_ends :
    cardAt [(100, 5), (200, 9)] 100 = (5, false) ∧ cardAt [(100, 5), (200, 9)] 150 = (7, false) ∧
    cardAt [(100, 5), (200, 9)] 200 = (9, true) ∧ cardAt [] 200 = (0, false) := by decide +kernel

/-! ## States that meet the hypotheses: the machine as a whole -/

def queued (c : Instr) (s : State) : State := { s with pending := [c] }

theorem meets_StepRunsTheFrontCommand :
    (queued (.nop 0) live).pending = Instr.nop 0 :: [] ∧ live.pending = [] := by decide +kernel

/-- Invariants at the ends of their ranges, and a step. -/
def atTheEnds : State :=
  { live with
    pending := [.secondsTick]
    cal := { live.cal with started := true, lsec := 12622780799, subsec := 32767 }
    line := { live.line with tlmQ := List.replicate 8 ⟨0, 0, 0, 0, false, 0⟩ }
    gauge := { live.gauge with acc := 2 ^ 47 - 1 }
    berths := { live.berths with mem := [(0x1000, 1)], blk := live.berths.blk.set 1 { ringWr := 128 } }
    bin := { live.bin with scratch := [(0x01C0, 7), (0x01FF, 1)], evts := live.bin.evts.set 3 { pps := true } } }

theorem meets_StepsKeepTheMemoriesCanonical :
    atTheEnds.memOk = true ∧ ∃ t, step atTheEnds = .next t := ⟨by decide +kernel, _, rfl⟩

theorem meets_StepsKeepTheRingsBounded :
    (∀ n : Fin 4, atTheEnds.berths.blk[n].unread ≤ 128) ∧ atTheEnds.berths.blk[1].unread = 128 := by decide +kernel

theorem meets_StepsKeepTheDomainOrder : live.dom.ok ∧ asleep.dom.ok := by
  constructor <;> (unfold Domains.ok; decide +kernel)

theorem meets_StepsKeepTheTimeInItsCycle : atTheEnds.cal.ok := by unfold Cal.ok; decide +kernel

theorem meets_StepsKeepTheCapacities : atTheEnds.gauge.ok ∧ atTheEnds.flash.ok ∧ atTheEnds.line.ok ∧ atTheEnds.bin.ok := by
  refine ⟨by unfold Gauge.ok; decide +kernel, by unfold Flash.ok; decide +kernel, by unfold LineDie.ok; decide +kernel,
    by unfold BinIo.ok; decide +kernel⟩

theorem meets_CountersAndCharterChangeOnlyByTheirRules :
    (∃ t, exec .secondsTick live = .next t) ∧ (∀ b : Fin 4, Instr.secondsTick ≠ .unseal b) ∧
    Instr.secondsTick ≠ .binPowerOnReset ∧
    Instr.secondsTick ∉ [Instr.binPowerOnReset, .firmwareStart, .logbookEntryDurable, .configStoreDurable] := by
  refine ⟨⟨_, rfl⟩, ?_⟩; decide +kernel

theorem meets_CommandsNeedTheirRequest :
    ((Instr.nop, (0x0100 : Half)) ∈ Sys2Proof.Claims.mailboxRows) ∧ asleep.isOn .cpu = false ∧
    (live.onFw fun f => { f with started := false }).fw.started = false ∧ live.berths.blk[0].cur = none ∧
    (asking live 0 (request 0x0101 [])).berths.blk[0].cur = some (request 0x0101 []) ∧
    (request 0x0101 []).cmd ≠ 0x0100 ∧ ({ request 0x0100 [] with waiting := true } : Request).waiting = true := by
  refine ⟨List.mem_cons_self, ?_⟩; decide +kernel

theorem meets_AnswersArePosted :
    live.berths.blk[0].cur = none ∧ (asking live 0 (request 0x0100 [])).berths.blk[0].cur = some (request 0x0100 []) ∧
    (request 0x0100 []).accepted = true ∧ ({ request 0x0100 [] with accepted := false } : Request).accepted = false ∧
    (Status.ok = .ok ∧ ({ request 0x0100 [] with flags := 0 } : Request).flags.getLsbD 1 = false) ∧
    (request 0x0100 []).flags.getLsbD 1 = true ∧ Status.denied ≠ .ok ∧
    ({ request 0x0100 [] with mac := true } : Request).mac = true ∧ 1 + (List.replicate 239 (0 : Byte)).length < 65536 := by
  decide +kernel

theorem meets_RecordsEnterTheRing :
    live.ringsUp = true ∧ (live.onBerth 1 fun _ => { ringWr := 128 }).berths.blk[1].unread = 128 ∧
    (live.onBerth 1 fun _ => { ringWr := 128, gap := true }).berths.blk[1].gap = true ∧
    (live.onBerth 1 fun _ => { ringWr := 127, ringThr := 128 }).berths.blk[1].unread + 1 = max 1 (min 128 128) ∧
    live.berths.blk[1].unread ≠ 128 ∧ live.berths.blk[1].unread + 1 = max 1 (min 128 live.berths.blk[1].ringThr.toNat) ∧
    (live.onBerth 1 fun _ => { ringWr := 5 }).berths.blk[1].unread + 1 ≠ max 1 (min 128 1) := by decide +kernel

/-! ## The line die -/

/-- `live` with another line die. -/
def dieOf (f : LineDie → LineDie) : State := live.onLine f

theorem meets_LineDieStartsAndStops :
    State.reset.line.running = false ∧ live.line.running = true ∧ 450000 < 450001 ∧ 100000 ≤ 450000 ∧ 99999 < 100000 ∧
    (let l := (dieOf fun l => { l with waitBrownIn := true }).line
     l.waitBrownIn = true ∧ l.stops = [] ∧ l.hold = false) ∧
    (dieOf fun l => { l with waitBrownIn := true, stops := [.overTemp] }).line.stops ≠ [] ∧
    (dieOf fun l => { l with waitBrownIn := true, hold := true }).line.hold = true := by decide +kernel

theorem meets_ProtectionsStopTheSwitch :
    (let l := (dieOf fun l => { l with begun := true }).line
     l.running = true ∧ l.stops = [] ∧ l.begun = true ∧ l.switching = true ∧
     (if l.ssr then 250 * l.plim.toNat else 12000) ≤ 12000) ∧
    (let l := (dieOf fun l => { l with ssr := true }).line; (if l.ssr then 250 * l.plim.toNat else 12000) ≤ 24000) ∧
    (∃ r ∈ Sys2Proof.Claims.stopRows 9 12000 (dieOf fun l => { l with stops := [.overload] }).line,
      r.2.1 ∈ (dieOf fun l => { l with stops := [.overload] }).line.stops) ∧
    (∃ r ∈ Sys2Proof.Claims.stopRows 9 11999 live.line, r.1 = .overloadStop 9 11999 ∧ r.2.2 = false) := by decide +kernel

theorem meets_RecoveriesLiftTheirStops :
    let one (c : StopCause) := dieOf fun l => { l with stops := [c] }
    let two := dieOf fun l => { l with stops := [.brownOut, .overTemp] }
    let held := dieOf fun l => { l with stops := [.brownOut], hold := true }
    (∀ c, (one c).line.running = true ∧ (one c).line.waitBrownIn = false ∧ (one c).line.hold = false ∧ (one c).line.stops ≠ [] ∧
      ∀ x ∈ (one c).line.stops, x = c) ∧
    (∀ x ∈ (dieOf fun l => { l with stops := [.shortCircuit, .overload] }).line.stops, x = .shortCircuit ∨ x = .overload) ∧
    (∃ c ∈ two.line.stops, c ∉ [StopCause.brownOut]) ∧ held.line.hold = true ∧
    (∀ c ∈ (one .brownOut).line.stops, c ∉ [StopCause.overTemp]) := by
  refine ⟨fun c => by cases c <;> decide +kernel, ?_⟩; decide +kernel

/-- `live` with a frame on the downlink, and one on the uplink. -/
def downFrame (f : DownFrame) (s : State) : State := s.onLink fun l => { l with downFlight := some f }

def upFrame (f : UpFrame) (s : State) : State := s.onLine fun l => { l with upFlight := some f }

theorem meets_LineDieObeysTheDownlink :
    live.line.running = true ∧ (downFrame (.reg .run 5) live).link.downFlight = some (.reg .run 5) ∧
    (downFrame (.reg .override 5) live).link.downFlight = some (.reg .override 5) ∧ live.line.quietOpen = false ∧
    (dieOf fun l => { l with quietOpen := true, quiet := some ⟨1, 5⟩ }).line.quietOpen = true ∧
    (downFrame (.reg .softStop 5) live).link.downFlight = some (.reg .softStop 5) ∧ live.line.switching = true ∧
    (dieOf fun l => { l with switching := false }).line.switching = false ∧
    (downFrame (.cfg 1 32) live).link.downFlight = some (.cfg 1 32) ∧ (downFrame (.cfg 2 96) live).link.downFlight = some (.cfg 2 96) ∧
    ((downFrame (.cfg 3 0) live).link.downFlight = some (.cfg 3 0) ∧ (3 : BitVec 4) ≠ 1 ∧ (3 : BitVec 4) ≠ 2) ∧
    live.link.downFlight = none ∧ live.line.downlink = true ∧ (dieOf fun l => { l with downlink := false }).line.downlink = false ∧
    (let s := dieOf fun l => { l with downlink := false, hold := true }; s.line.hold = true ∧ s.line.downlink = false) ∧
    (live.line.hold && !live.line.downlink) = false := by decide +kernel

theorem meets_StopSymbolHoldsTheSwitchOff :
    live.link.stopSymbolDue = false ∧ (live.onLink fun l => { l with stopSymbolDue := true }).link.stopSymbolDue = true ∧
    live.line.running = true ∧ live.line.quietOpen = false ∧
    (let s := dieOf fun l => { l with quietOpen := true, quiet := some ⟨1, 5⟩ }
     s.line.running = true ∧ s.line.quietOpen = true ∧ s.line.beacon = false) ∧
    (let s := dieOf fun l => { l with quietOpen := true, beacon := true }
     s.line.running = true ∧ s.line.quietOpen = true ∧ s.line.beacon = true) := by decide +kernel

theorem meets_StoppedLineDieIsDeaf :
    State.reset.line.running = false ∧
    (State.reset.onLink fun l => { l with stopSymbolDue := true }).link.stopSymbolDue = true ∧
    ∀ f, f ∈ [DownFrame.reg .run 0, .reg .override 0, .reg .softStop 0, .quiet 1 5, .cfg 1 32] →
      (downFrame f State.reset).link.downFlight = some f := by
  refine ⟨by decide, by decide +kernel, fun _ _ => rfl⟩

theorem meets_ZeroCrossingsAreStampedAndSent :
    live.line.running = true ∧ ((-1 : BitVec 18).toInt < 0 ∧ 0 ≤ (0 : BitVec 18).toInt) ∧
    (0 ≤ (0 : BitVec 18).toInt ∧ (-1 : BitVec 18).toInt < 0) ∧ ((5 : BitVec 18).toInt < 0 ↔ (0 : BitVec 18).toInt < 0) := by
  decide +kernel

theorem meets_LineLossAndReturnAreDeclared :
    (let s := dieOf fun l => { l with present := true, lossRefs := [⟨50, 2000000, 90000⟩] }
     let ref : LossRef := (s.line.lossRefs.find? fun r => ((100 : Word) - r.at_).toNat < 2 ^ 31).getD ⟨100, 2000000, 0⟩
     s.line.running = true ∧ s.line.present = true ∧ max 10240 (ref.peak * s.line.lossFrac.toNat / 64) ≤ (45000 : Rat) ∧
     ¬ max 10240 (ref.peak * s.line.lossFrac.toNat / 64) ≤ (44999 : Rat) ∧ s.line.dc = false ∧
     100 * (ref.nom * 5 / 800).ceil.toNat = 1250000) ∧
    live.line.present = false ∧
    (dieOf fun l => { l with lossRepeat := some (7, 1) }).line.lossRepeat = some (7, 0 + 1) ∧ live.line.lossRepeat = none ∧
    25600 ≤ (25600 : BitVec 18).toInt.natAbs ∧ live.line.lastCross = none ∧
    (let s := dieOf fun l => { l with lastCross := some 0 }
     s.line.lastCross = some 0 ∧ 10000000 ≤ ((10000000 : Word) - 0).toNat ∧ ((9999999 : Word) - 0).toNat < 10000000) ∧
    (25599 : BitVec 18).toInt.natAbs < 25600 ∧
    (let s := dieOf fun l => { l with dc := true }; s.line.dc = true ∧ s.line.present = false) ∧ live.line.dc = false ∧
    (let s := dieOf fun l => { l with lastPos := some 3, retCycles := 2 }
     s.line.lastPos = some 3 ∧ s.line.present = false ∧ 2 ≤ s.line.retCycles) ∧ live.line.lastPos = none := by decide +kernel

theorem meets_FramesTakeTheirTurns :
    let l := live.line
    (l.upFlight = none ∧ l.beacon = false ∧ l.evtQ = [] ∧ l.qaQ = [] ∧ l.zcQ = [] ∧ l.tlmQ = []) ∧
    ({ l with evtQ := [⟨1, 0⟩], qaQ := [⟨.opened, 1, 0, 0⟩], zcQ := [⟨true, false, false, 0, 0⟩] } : LineDie).evtQ = ⟨1, 0⟩ :: [] ∧
    (upFrame (.evt ⟨1, 0⟩) live).line.upFlight.isSome = true ∧
    (let k := live.link
     k.downFlight = none ∧ k.stopSymbolDue = false ∧ k.state = .up ∧ k.regDue = false ∧ k.quietDue = [] ∧ k.cfgQ = []) ∧
    ({ live.link with regDue := true } : Link).regDue = true ∧
    ({ live.link with quietDue := [⟨1, 5⟩] } : Link).quietDue = ⟨1, 5⟩ :: [] ∧
    ({ live.link with cfgQ := [(1, 32)] } : Link).cfgQ = (1, 32) :: [] ∧
    ({ live.link with state := .fault } : Link).state ≠ .training := by decide +kernel

theorem meets_TelemetryIsQueuedOrDropped :
    live.line.running = true ∧ (dieOf fun l => { l with beacon := true }).line.beacon = true ∧ live.line.beacon = false ∧
    8 ≤ atTheEnds.line.tlmQ.length ∧ live.line.tlmQ.length < 8 := by decide +kernel

theorem meets_EvtQueueKeepsTheNewestEight :
    let l := live.line
    l.beacon = false ∧ ({ l with beacon := true, evtQ := List.replicate 7 ⟨1, 0⟩ } : LineDie).evtQ.length < 8 ∧
    ({ l with beacon := true, evtQ := List.replicate 8 ⟨1, 0⟩ } : LineDie).evtQ.length = 8 := by decide +kernel

theorem meets_LineDieQuietWindow :
    live.line.running = true ∧ (downFrame (.quiet 1 6401) live).link.downFlight = some (.quiet 1 6401) ∧
    6400 < (6401 : BitVec 13).toNat ∧ (6400 : BitVec 13) ≠ 0 ∧ (6400 : BitVec 13).toNat ≤ 6400 ∧
    (dieOf fun l => { l with softStart := true }).line.softStart = true ∧ live.line.softStart = false ∧ live.line.quiet = none ∧
    live.link.downFlight = none ∧
    (let s := dieOf fun l => { l with quiet := some ⟨1, 5⟩ }
     s.line.quiet = some ⟨1, 5⟩ ∧ s.line.quietOpen = false ∧ s.line.guard = none ∧ s.line.beacon = false) ∧
    (dieOf fun l => { l with quiet := some ⟨1, 5⟩, beacon := true }).line.beacon = true ∧
    (let s := dieOf fun l => { l with guard := some (100, 350) }
     s.line.guard = some (100, 350) ∧ 9 * 350 ≤ ((3250 : Word) - 100).toNat ∧ ((3249 : Word) - 100).toNat < 9 * 350) ∧
    (dieOf fun l => { l with quietOpen := true }).line.quietOpen = true := by decide +kernel

/-! ## The core side of the link -/

def linkOf (f : Link → Link) : State := live.onLink f

/-- `live` with one domain in another state. -/
def domOf (d : Domain) (st : PdState) : State := live.onDom fun x => x.set d { st }

theorem meets_RaiseLatchesAndWakes :
    (live.ev.wakeEn.getLsbD 5 && live.dom.wakeEn.getLsbD 18) = false ∧
    (let w (s : State) : State := { s with ev := { s.ev with wakeEn := 1#96 <<< 5 }, dom := { s.dom with wakeEn := 1#32 <<< 18 } }
     ((w live).ev.wakeEn.getLsbD 5 && (w live).dom.wakeEn.getLsbD 18) = true ∧ (w live).dom.cpu.st = .on ∧
     (w asleep).dom.cpu.st = .off ∧ (w asleep).powered = true ∧ (w (domOf .cpu (.leaving .off))).dom.cpu.st = .leaving .off ∧
     (w (domOf .cpu (.entering .off))).dom.cpu.st = .entering .off) := by decide +kernel

theorem meets_BeaconDetectorWakesOnce :
    let b := asleep.onLine fun l => { l with beacon := true }
    (b.isOn .pwr = false ∧ b.dom.beaconLatch = false ∧ b.line.running = true ∧ b.line.beacon = true ∧ b.bin.held = false) ∧
    live.isOn .pwr = true ∧ b.dom.wakeEn.getLsbD 0 = false ∧ (live.onBin fun x => { x with held := true }).bin.held = true ∧
    (let s := b.onDom fun d => { d with wakeEn := 1 }
     s.dom.wakeEn.getLsbD 0 = true ∧ s.dom.cpu.st = .off ∧ s.powered = true) := by decide +kernel

theorem meets_UplinkStartsTraining :
    live.isOn .pwr = true ∧ (linkOf fun l => { l with state := .down }).link.state = .down ∧ live.link.state = .up ∧
    (dieOf fun l => { l with beacon := true }).line.running = true ∧ (dieOf fun l => { l with beacon := true }).line.beacon = true ∧
    (live.line.running && live.line.beacon) = false := by decide +kernel

theorem meets_CoreDieSendsRegAndStop :
    live.isOn .pwr = true ∧ live.dom.xo16Fail = false ∧ live.link.state = .up ∧ asleep.isOn .pwr = false ∧
    (live.onDom fun d => { d with xo16Fail := true }).dom.xo16Fail = true ∧
    (linkOf fun l => { l with state := .fault }).link.state = .fault ∧
    (linkOf fun l => { l with stopVaux := true }).link.stopVaux = true ∧ live.link.stopVaux = false := by decide +kernel

theorem meets_TwoSsrFramesBringTheLinkUp :
    let f : TlmFrame := ⟨0, 0, 0, 0, true, 0⟩
    let s := upFrame (.tlm f) (linkOf fun l => { l with state := .training, ssrStreak := 1 })
    s.isOn .pwr = true ∧ s.dom.xo16Fail = false ∧ s.line.upFlight = some (.tlm f) ∧ s.link.state = .training ∧ f.ssr = true ∧
    s.link.ssrStreak = 1 ∧ live.link.ssrStreak = 0 ∧
    (dieOf fun l => { l with owesTimeout := some 4 }).line.owesTimeout = some 4 ∧ s.line.owesTimeout = none := by decide +kernel

theorem meets_DiscardsAreCounted :
    UpFrame.read (UpFrame.evt ⟨1, 0⟩).bits ≠ none ∧ DownFrame.read (DownFrame.cfg 1 32).bits ≠ none ∧
    DownFrame.read [] = none ∧ UpFrame.read [] = none ∧ State.reset.line.running = false ∧
    asleep.isOn .pwr = false ∧ live.isOn .pwr = true ∧ live.link.state = .up ∧ live.line.running = true ∧
    (linkOf fun l => { l with state := .training }).link.state ≠ .up ∧
    (live.link.crcTimes.filter fun t => 7 < t + 50000).length < 15 ∧
    15 ≤ ((linkOf fun l => { l with crcTimes := List.replicate 15 100 }).link.crcTimes.filter fun t => 50099 < t + 50000).length ∧
    ((linkOf fun l => { l with crcTimes := List.replicate 15 100 }).link.crcTimes.filter fun t => 50100 < t + 50000).length < 15 := by
  decide +kernel

theorem meets_LinkFaultsAndTimesOut :
    live.isOn .pwr = true ∧ live.link.state = .up ∧ live.link.goodbye = false ∧
    (linkOf fun l => { l with goodbye := true }).link.goodbye = true ∧
    (linkOf fun l => { l with state := .training }).link.state = .training ∧ asleep.isOn .pwr = false ∧
    (linkOf fun l => { l with state := .down }).link.state = .down := by decide +kernel

theorem meets_UplinkFramesArriveInTheirTurn :
    let f : UpFrame := .tlm ⟨0, 0, 0, 0, true, 0⟩
    (∃ r ∈ Sys2Proof.Claims.uplinkRows ⟨0, 0, 0, 0, true, 0⟩ ⟨true, false, true, 3, 100⟩ ⟨3, 0⟩ 1 0 5 7, r.2 = f) ∧
    live.line.upFlight ≠ some f ∧ (upFrame f asleep).line.upFlight = some f ∧ asleep.isOn .pwr = false ∧
    (let s := upFrame f (live.onDom fun d => { d with xo16Fail := true })
     s.line.upFlight = some f ∧ s.isOn .pwr = true ∧ s.dom.xo16Fail = true) := by decide +kernel

theorem meets_TelemetryUpdatesTheRegisters :
    let f : TlmFrame := ⟨3, 0, 880, 0, true, 0⟩
    let s := upFrame (.tlm f) (linkOf fun l => { l with lastTlm := some 255 })
    s.isOn .pwr = true ∧ s.dom.xo16Fail = false ∧ s.line.upFlight = some (.tlm f) ∧ s.link.state = .up ∧
    s.link.lastTlm = some 255 := by decide +kernel

theorem meets_LinePeakIsTracked :
    ({ live.link with halfSign := some true } : Link).halfSign = some (0xFFF : BitVec 12).msb ∧
    (live.link.halfSign = none ∧ live.link.halfPk = none ∧ live.link.pkHist = []) ∧
    (let l : Link := { live.link with halfSign := some false }
     l.halfSign = some (!(0xFFF : BitVec 12).msb) ∧ l.halfPk = none ∧ l.pkHist = []) ∧
    ({ live.link with halfSign := some false, halfPk := some 300 } : Link).halfPk = some 300 := by decide +kernel

theorem meets_ZeroCrossingFramesAreTaken :
    let f : ZcFrame := ⟨true, false, true, 3, 100⟩
    let s := upFrame (.zc f) ((linkOf fun l => { l with posSeen := true, linePeriod := BitVec.ofNat 32 (2 ^ 24 * 2) }).onTrim fun t =>
      { t with run := true, active := true, lastSeq := some 2 })
    s.isOn .pwr = true ∧ s.dom.xo16Fail = false ∧ s.line.upFlight = some (.zc f) ∧ s.link.state = .up ∧ f.positive = true ∧
    s.link.posSeen = true ∧ f.seq.toNat = (s.link.linePeriod.toNat / 2 ^ 24 + 1) % 32 ∧
    (f.stamp - s.link.zcPos).toNat < 2 ^ 24 ∧
    ({ f with range := true } : ZcFrame).range = true ∧ s.link.rangeSeen = false ∧ s.trim.active = true ∧ s.trim.src = false ∧
    ({ f with lock := false } : ZcFrame).lock = false ∧ f.lock = true ∧ f.range = false ∧ s.trim.lastSeq = some 2 ∧ f.seq = 2 + 1 ∧
    s.fw.trimRestart = false ∧ s.trim.openRaw = none ∧ (s.onTrim fun t => { t with openRaw := some 0 }).trim.openRaw.isSome = true ∧
    s.trim.prog.toNat < 2 ^ s.trim.kEff ∧ ({ f with seq := 4 } : ZcFrame).seq ≠ 2 + 1 ∧ s.fw.trimRestarts = false := by
  decide +kernel

theorem meets_LineLossAndReturnAreReceived :
    let s := upFrame (.evt ⟨0x01, 9⟩) live
    s.isOn .pwr = true ∧ s.dom.xo16Fail = false ∧ s.link.state = .up ∧ s.line.upFlight = some (.evt ⟨0x01, 9⟩) ∧
    s.link.lossKey ≠ some 9 ∧ (linkOf fun l => { l with lossKey := some 9 }).link.lossKey = some 9 ∧
    (live.onTrim fun t => { t with active := true, run := true }).trim.active = true ∧ s.trim.active = false ∧
    (upFrame (.evt ⟨0x02, 9⟩) live).line.upFlight = some (.evt ⟨0x02, 9⟩) := by decide +kernel

theorem meets_FaultCodesSetTheirBits :
    let s (c : Byte) := upFrame (.evt ⟨c, 4⟩) live
    (∀ c, (s c).isOn .pwr = true ∧ (s c).dom.xo16Fail = false ∧ (s c).line.upFlight = some (.evt ⟨c, 4⟩) ∧ (s c).link.state = .up) ∧
    (∃ r ∈ Sys2Proof.Claims.faultRows, r.1 = 0x0A) ∧
    ((0x0C : Byte) ≠ 0x0B ∧ (0x0C : Byte) ≠ 0x01 ∧ (0x0C : Byte) ≠ 0x02 ∧ ∀ r ∈ Sys2Proof.Claims.faultRows, r.1 ≠ 0x0C) := by
  refine ⟨fun c => ⟨(by decide +kernel : live.isOn .pwr = true), rfl, rfl, rfl⟩, ?_⟩; decide +kernel

theorem meets_CoreQuietWindow :
    live.isOn .pwr = true ∧ live.dom.xo16Fail = false ∧ live.link.state = .up ∧ asleep.isOn .pwr = false ∧
    chapter2.line.upFlight = some (.qa ⟨.opened, 3, 0, 0⟩) ∧
    chapter2.link.quietQ.find? (fun q => q.tag == 3) = some ⟨3, 6400⟩ ∧ (∀ q ∈ live.link.quietQ, q.tag ≠ 3) ∧
    (upFrame (.qa ⟨.ended, 3, 1, 8⟩) live).line.upFlight = some (.qa ⟨.ended, 3, 1, 8⟩) ∧
    (upFrame (.qa ⟨.refused, 3, 1, 8⟩) live).line.upFlight = some (.qa ⟨.refused, 3, 1, 8⟩) ∧ live.link.window = none ∧
    (let s := linkOf fun l => { l with window := some ⟨10, 20⟩ }
     s.link.window = some ⟨10, 20⟩ ∧ s.link.overrideAt = none ∧ 10 ≤ 19 ∧ 19 < 20 ∧
     15999 < 12000 + 100 * min 55 s.link.qwDroop.toNat ∧ 12000 + 100 * min 55 s.link.qwDroop.toNat ≤ 16000) ∧
    (linkOf fun l => { l with overrideAt := some 12 }).link.overrideAt.isSome = true ∧
    (let s := live.onTw fun t => { t with startHeld := true, sbsPending := true }
     s.tw.startHeld = true ∧ s.tw.sbsPending = true) ∧ live.tw.startHeld = false ∧ live.tw.probe = none := by decide +kernel

/-! ## Power path and charger -/

def powerOf (f : Power → Power) : State := live.onPower f

theorem meets_SourcesBecomeValidAndInvalid :
    Sys2Proof.Claims.sourceRows live.power = [(.adp, 8600, 8200, some (21000, 21500)), (.aux, 12000, 11000, none), (.bat, 3100, 2800, none)] ∧
    (8600 ≤ 8600 ∧ ∀ h, some (21000, 21500) = some h → 20999 < h.1) ∧ live.power.src = some .bat ∧ live.power.before = none ∧
    live.power.src ≠ some .adp ∧ live.bin.held = false ∧
    (let p : Power := Sys2Proof.Claims.withValid live.power .bat false; (p.adpValid || p.auxValid || p.batValid) = false) ∧
    (let p : Power := Sys2Proof.Claims.withValid chapter3.power .adp false; (p.adpValid || p.auxValid || p.batValid) = true) ∧
    chapter3.power.src = some .adp := by
  refine ⟨by decide +kernel, ⟨by decide, fun h e => ?_⟩, by decide +kernel⟩
  cases e; decide

theorem meets_SelectorClosesTheBestSource :
    live.power.before = none ∧ live.power.batValid = true ∧ live.power.adpValid = false ∧ live.power.auxValid = false ∧
    live.power.src = some .bat ∧
    (let s := powerOf fun p => { p with before := some .adp, src := none }
     some Source.bat ≠ s.power.src ∧ s.power.before.isSome = true ∧ s.bin.held = false) ∧
    (live.onBin fun b => { b with held := true }).bin.held = true ∧ (powerOf fun p => { p with batValid := false }).power.best = none ∧
    (live.onGauge fun g => { g with learn := .opened }).gauge.learn = .opened ∧ live.gauge.learn ≠ .opened := by decide +kernel

theorem meets_SynchronousRectifierDrivesSrg :
    live.isOn .pwr = true ∧ live.power.srEn = true ∧ live.dom.padHeld.getLsbD 0 = false ∧ 8000 ≤ 8000 ∧
    asleep.isOn .pwr = false ∧ (powerOf fun p => { p with srEn := false }).power.srEn = false ∧
    (live.onDom fun d => { d with padHeld := 1 }).dom.padHeld.getLsbD 0 = true ∧ 7999 < 8000 := by decide +kernel

/-- A charger of a 1S Li-ion pack with a fresh temperature, in the given state, on the adapter. -/
def charger (chg : ChgState) : State :=
  powerOf fun p => { p with src := some .adp, adpValid := true, cells := 1, chgEn := true, chg, tsAt := some 0 }

theorem meets_ChargerRegulatesItsZone :
    (charger .pre).power.chg = .pre ∧ (charger .cc).power.chg = .cc ∧ (charger .cv).power.chg = .cv ∧
    (charger .wait).power.chg ∉ [.pre, .cc, .cv] ∧ (charger .cc).power.paused = false ∧ (charger .cc).power.hotStop = false := by
  decide +kernel

theorem meets_ChargerMovesAsItsTableSays :
    let s := charger .wait
    (s.isOn .pwr = true ∧ s.power.chgEn = true ∧ s.power.cells ≠ 0 ∧ s.power.chg ≠ .off ∧ s.noTs = false ∧
      s.power.zone = .normal ∧ s.power.chg = .wait ∧ s.power.src = some .adp ∧ 3700 + 1500 ≤ 5200) ∧
    ((charger .cc).power.chg = .cc ∧ 1 * ((charger .cc).power.vRegCell + 120) < 4321 ∧
      (charger .cc).power.src ≠ some .bat ∧ 4320 + 800 ≤ 5120) ∧
    ((charger .cv).power.chg = .cv ∧ (99 : Half).toNat < 25 * max 2 (min 16 (charger .cv).power.iterm.toNat)) ∧
    ((charger .cv).onTrim fun t => { t with raw := 10 ^ 9 }).noTs = true ∧ (charger .suspend).power.chg = .suspend ∧
    ((charger .pre).power.chg = .pre ∧ ¬ 3000 + 800 ≤ 3799 ∧ 3000 + 800 ≤ 3800) ∧
    (charger .done).power.chg = .done ∧ (charger .fault).power.chg = .fault := by decide +kernel

theorem meets_ChargerEndsAndFaults :
    asleep.isOn .pwr = false ∧ live.power.chgEn = false ∧ live.power.cells = 0 ∧
    (let p := ((charger .cv).onPower fun p => { p with lowMs := 60000 }).power; p.chg = .cv ∧ 60000 ≤ p.lowMs) ∧
    (charger .cc).power.chg ≠ .cv ∧ (charger .cv).power.lowMs < 60000 ∧
    (let p := ((charger .pre).onPower fun p => { p with preMs := 3600000 }).power
     p.chg = .pre ∧ 600000 * max 1 p.tpre.toNat ≤ p.preMs) ∧ (charger .cc).power.chg ≠ .pre ∧
    (let p := ((charger .cc).onPower fun p => { p with fastMs := 36000000 }).power
     p.chg = .cc ∧ 3600000 * max 1 p.tfast.toNat ≤ p.fastMs) ∧ (charger .pre).power.fastMs = 0 ∧
    ((charger .done).power.chg ≠ .pre ∧ (charger .done).power.chg ≠ .cc ∧ (charger .done).power.chg ≠ .cv) ∧
    ((charger .cc).power.chg ≠ .off ∧ (charger .cc).power.hotStop = false) ∧ live.power.chg = .off ∧
    (powerOf fun p => { p with chg := .cc, hotStop := true }).power.hotStop = true := by decide +kernel

theorem meets_AlwaysOnSupplyIsRecorded :
    (powerOf fun p => { p with onVbak := true }).power.onVbak = true ∧ live.power.onVbak = false ∧
    (live.onBin fun b => { b with held := true }).bin.held = true ∧ live.bin.held = false ∧
    (live.onGauge fun g => { g with learn := .opened }).gauge.learn = .opened ∧ live.gauge.learn ≠ .opened ∧
    ((live.onCal fun c => { c with lsec := 128 }).cal.lsec.toNat % 64 = 0 ∧ 2199 < 2200) ∧
    (live.onCal fun c => { c with lsec := 127 }).cal.lsec.toNat % 64 ≠ 0 ∧ 2200 ≤ 2200 := by decide +kernel

/-! ## Writes from the host -/

/-- `live` with no grant for CS_B. -/
def ungranted : State := live.onBin fun b => { b with rtcGrant := 0b101, sysonGrant := 0b101, chgGrant := 0b101 }

theorem meets_UngrantedWritesChangeNothing :
    ungranted.bin.rtcGrant.getLsbD (portCode .csB) = false ∧ ungranted.bin.sysonGrant.getLsbD (portCode .csB) = false ∧
    ungranted.isOn .pwr = true ∧ ungranted.bin.chgGrant.getLsbD (portCode .csB) = false := by decide +kernel

theorem meets_CalendarCommandsFromTheHost :
    live.portUp .csA = true ∧ live.bin.rtcGrant.getLsbD (portCode .csA) = true ∧ live.cal.stagedOk = true ∧
    (chapter4 0x29 0x12 0 0).cal.stagedOk = false ∧ (∀ b, ¬ (live.berth b).waitsFor 0x0400) ∧
    (live.onCal fun c => { c with shift := some 1 }).cal.shift.isSome = true ∧ live.cal.shift = none ∧ live.cal.commit = none ∧
    (live.onCal fun c => { c with commit := some .setr }).cal.commit.isSome = true := by decide +kernel

theorem meets_TrimRunsAndStampClears :
    live.portUp .tw = true ∧ live.bin.rtcGrant.getLsbD (portCode .tw) = true ∧ live.trim.active = false ∧
    (live.onTrim fun t => { t with run := true, active := true }).trim.active = true ∧
    live.bin.sysonGrant.getLsbD (portCode .tw) = true ∧
    ((live.onBin fun b => { b with setNow := [(0x0148, 0x02)] }).bin.setMask 0x0148).getLsbD 1 = true := by decide +kernel

theorem meets_LineLimitsAndChargerEnable :
    live.portUp .csA = true ∧ live.isOn .pwr = true ∧ live.link.state = .up ∧ (linkOf fun l => { l with state := .down }).link.state = .down ∧
    live.bin.chgGrant.getLsbD (portCode .csA) = true ∧
    ((1 : Byte).getLsbD 0 = true ∧ (powerOf fun p => { p with cells := 1 }).power.cells ≠ 0 ∧
      (powerOf fun p => { p with cells := 1 }).power.chg = .off) ∧ (charger .cc).power.chg ≠ .off ∧ (0 : Byte).getLsbD 0 = false ∧
    live.power.cells = 0 ∧ live.power.chg = .off ∧ asleep.isOn .pwr = false ∧ asleep.portUp .csA = true := by decide +kernel

theorem meets_KeepAndDoorbells :
    live.portUp .csA = true ∧ Port.csB ≠ .csA ∧
    ((!(7 : BitVec 3).getLsbD 0 || live.isOn .cpu) && (!(7 : BitVec 3).getLsbD 1 || (live.isOn .memB && live.isOn .hif)) &&
      (!(7 : BitVec 3).getLsbD 2 || live.isOn .hif)) = true ∧
    ((7 : BitVec 3).getLsbD 0 = true ∧ asleep.isOn .cpu = false ∧ asleep.dom.wakeEn.getLsbD 17 = true ∧
      asleep.dom.cpu.st = .off ∧ asleep.powered = true ∧ asleep.portUp .csA = true) ∧
    (live.bound .csA 0 = true ∧ live.dom.bells[0].pend = false ∧ live.dom.wakeEn.getLsbD 12 = true) ∧
    (live.onDom fun d => { d with bells := d.bells.set 0 { pend := true } }).dom.bells[0].pend = true ∧
    live.bound .csA 1 = false := by decide +kernel

theorem meets_RingReadAndPendClear :
    live.portUp .csA = true ∧ live.isOn .hif = true ∧ live.bound .csA 0 = true ∧ live.isOn .memB = true ∧
    (((live.onBerth 0 fun _ => { ringWr := 128 }).berth 0).ringWr - 0).toNat ≤ 128 ∧
    128 < (((live.onBerth 0 fun _ => { ringWr := 129 }).berth 0).ringWr - 0).toNat ∧ live.bound .csA 1 = false := by
  decide +kernel

/-! ## The Binnacle -/

def calOf (f : Cal → Cal) : State := live.onCal fun c => f { c with started := true }

theorem meets_SecondsTickAdvancesTheTime :
    let s := calOf fun c => { c with subsec := 32767 }
    (s.bin.held = false ∧ s.cal.commit ≠ some .setr ∧ s.corrDue = false ∧ s.cal.started = true ∧ s.cal.subsec = 32767 ∧
      s.cal.commit = none ∧ s.cal.shift = none ∧ s.cal.lsec.toNat + 1 < 12622780800) ∧
    live.cal.started = false ∧ (calOf id).cal.subsec ≠ 32767 ∧
    (calOf fun c => { c with lsec := 12622780799 }).cal.lsec.toNat + 1 = 12622780800 ∧
    (let s := calOf fun c => { c with commit := some .sett }; s.cal.commit ≠ some .setr ∧ s.cal.commit = some .sett) ∧
    (let s := calOf fun c => { c with shift := some 0xFFFF, lsec := 5 }
     s.cal.commit = none ∧ s.cal.shift = some 0xFFFF ∧ s.cal.lsec.toNat + 3 < 12622780800) := by decide +kernel

theorem meets_StampsAreWrittenAtTheEdge :
    live.bin.llDue = none ∧ ({ live.bin with llDue := some 9, fsoBakDue := true, fsoBakValid := true } : BinIo).llDue = some 9 := by
  decide +kernel

theorem meets_SetrLoadsTheStagedTime :
    let s := calOf fun c => { c with commit := some .setr }
    s.bin.held = false ∧ s.cal.commit = some .setr ∧ s.cal.started = true ∧ s.corrDue = false ∧ s.cal.subsec ≠ 32767 ∧
    s.cal.lsec.toNat < 12622780800 ∧ live.cal.commit ≠ some .setr := by decide +kernel

theorem meets_CommandedTimeIsLoaded :
    let s := calOf fun c => { c with subsec := 32767 }
    s.portUp .csA = true ∧ s.bin.rtcGrant.getLsbD (portCode .csA) = true ∧ s.cal.stagedOk = true ∧ s.cal.started = true ∧
    s.corrDue = false ∧ s.cal.subsec = 32767 := by decide +kernel

/-- A correction is due at the next edge. -/
def correcting (trim : BitVec 13) (subsec : BitVec 15) : State :=
  (calOf fun c => { c with subsec }).onTrim fun t => { t with cycleTrim := trim, corrOwed := true }

theorem meets_TrimCorrectsTheCount :
    (let s := correcting 0x1F58 5
     s.bin.held = false ∧ s.cal.started = true ∧ s.cal.commit ≠ some .setr ∧ s.corrDue = true ∧ s.trim.cycleTrim.msb = true) ∧
    (let s := correcting 168 32765
     s.corrDue = true ∧ s.trim.cycleTrim.msb = false ∧ s.cal.subsec.toNat + 2 < 32768) ∧
    (let s := correcting 168 32766
     s.corrDue = true ∧ s.trim.cycleTrim.msb = false ∧ 32768 ≤ s.cal.subsec.toNat + 2 ∧ s.cal.commit = none ∧
       s.cal.shift = none ∧ s.cal.lsec.toNat + 1 < 12622780800) ∧
    live.corrDue = false ∧ (live.onTrim fun t => { t with cyclePos := 8388607 }).trim.cyclePos + 1 = 8388608 ∧
    live.trim.cyclePos + 1 ≠ 8388608 ∧ (calOf fun c => { c with onLrc := true }).cal.onLrc = true ∧
    (live.cal.onLrc = false ∧ live.bin.held = false) ∧ (live.onBin fun b => { b with held := true }).bin.held = true ∧
    (live.onTrim fun t => { t with active := true }).trim.active = true ∧ live.trim.active = false ∧ live.fw.trimRestart = false := by
  decide +kernel

def trimOf (f : Trim → Trim) : State := live.onTrim f

/-- A measurement of 2^16 PPS periods. -/
def ppsOf (f : Trim → Trim) : State :=
  (live.onTrim fun t => f { t with run := true, active := true, src := true, k := 16 }).onBin fun b =>
    { b with evts := b.evts.set 3 { pps := true } }

theorem meets_TrimIsMeasured :
    (let s := trimOf fun t => { t with active := true, lastSeq := some 1 }
     s.trim.active = true ∧ s.trim.openRaw = none ∧ s.trim.src = false ∧ s.trim.lastSeq.isSome = true) ∧ live.trim.active = false ∧
    live.trim.lastSeq = none ∧
    (let s := trimOf fun t => { t with active := true, openRaw := some 0, k := 22, prog := 4194304 }
     s.trim.openRaw = some 0 ∧ s.trim.active = true ∧ 2 ^ min s.trim.k.toNat 22 ≤ s.trim.prog.toNat) ∧ live.trim.openRaw = none ∧
    (let s := ppsOf id
     s.bin.evts[3].pps = true ∧ s.trim.active = true ∧ s.bin.held = false ∧ s.trim.src = true ∧ s.trim.lastPps = none) ∧
    (let s := ppsOf fun t => { t with lastPps := some 0, raw := 32784 }
     s.trim.lastPps = some 0 ∧ 32752 ≤ s.trim.raw - 0 ∧ s.trim.raw - 0 ≤ 32784) ∧
    (let s := ppsOf fun t => { t with lastPps := some 0, raw := 32785 }
     32784 < s.trim.raw - 0 ∧ s.fw.trimRestart = false ∧ s.fw.trimRestarts = false) ∧ live.bin.evts[3].pps = false := by
  decide +kernel

def binOf (f : BinIo → BinIo) : State := live.onBin f

theorem meets_TicksEdgesAndTripsWake :
    (let s := (binOf fun b => { b with tickEn := true }).onCal fun c => { c with subsec := 32767, before := 32767 }
     s.bin.tickEn = true ∧ s.cal.tickDone = false ∧ s.cal.jumped = false ∧ s.cal.lsec.toNat * 32768 + s.cal.subsec.toNat = s.cal.before) ∧
    (let s := (binOf fun b => { b with tickEn := true, tickSel := 0 }).onCal fun c => { c with subsec := 128, before := 127 }
     s.cal.subsec.toNat ≠ s.cal.before ∧ s.cal.subsec.toNat / 2 ^ (min 20 s.bin.tickSel.toNat + 7) ≠
       s.cal.before / 2 ^ (min 20 s.bin.tickSel.toNat + 7)) ∧
    (calOf fun c => { c with jumped := true }).cal.jumped = true ∧
    live.bin.tickEn = false ∧ (ppsOf id).bin.evts[3].pps = true ∧ live.bin.evts[0].edge.getLsbD 0 = false ∧ live.bin.held = false ∧
    (binOf fun b => { b with held := true }).bin.held = true ∧
    (let s := binOf fun b => { b with evts := b.evts.set 0 { edge := 0b10, filt := 3 } }
     s.bin.evts[0].pps = false ∧ s.bin.evts[0].edge.getLsbD 1 = true ∧ s.bin.evts[0].stamped = false ∧
     2 ^ s.bin.evts[0].filt.toNat ≤ 8 ∧ 7 < 2 ^ s.bin.evts[0].filt.toNat ∧ s.bin.evtNow &&& 1#8 = 0) ∧
    (binOf fun b => { b with evtNow := 1 }).bin.evtNow &&& 1#8 ≠ 0 ∧
    (binOf fun b => { b with evts := b.evts.set 0 { edge := 1, stamped := true } }).bin.evts[0].stamped = true ∧
    (live.onDom fun d => { d with wakeEn := 4 }).dom.wakeEn.getLsbD 2 = true ∧ live.bin.cmps[3].edge = 0 ∧
    (let s := binOf fun b => { b with cmps := b.cmps.set 3 { edge := 0b10, out := true, thr := 10, hyst := 1 } }
     let c := s.bin.cmps[3]
     c.edge ≠ 0 ∧ c.edge.getLsbD 0 = false ∧ c.edge.getLsbD 1 = true ∧ 2 ^ c.filt.toNat ≤ 1 ∧
     decide (200 + 50 * c.thr.toNat ≤ 675 + (if c.out then 25 * min 2 c.hyst.toNat else 0)) = c.out ∧
     decide (200 + 50 * c.thr.toNat ≤ 674 + (if c.out then 25 * min 2 c.hyst.toNat else 0)) ≠ c.out) ∧
    (live.onDom fun d => { d with wakeEn := 0x200 }).dom.wakeEn.getLsbD 9 = true := by decide +kernel

theorem meets_PowerKeyPressesAreClassed :
    500 * (live.bin.pkLong.toNat + 1) = 2000 ∧ (32 ≤ 1999 ∧ 1999 < 2000) ∧ 12000 ≤ 12000 ∧ live.bin.held = false ∧
    (binOf fun b => { b with held := true }).bin.held = true ∧
    live.bin.pkHardoff = true ∧ (binOf fun b => { b with pkHardoff := false }).bin.pkHardoff = false := by decide +kernel

theorem meets_OutputPadsFollowTheState :
    (live.spi.vddio = true ∧ live.bin.held = false ∧ live.dom.nrstLow = false) ∧ live.isOn .hif = true ∧ asleep.isOn .hif = false ∧
    (live.onSpi fun p => { p with vddio := false }).spi.vddio = false ∧
    (linkOf fun l => { l with ltpEn := true }).link.ltpEn = true ∧ live.link.ltpEn = false ∧
    (dieOf fun l => { l with beacon := true }).line.beacon = true ∧
    (binOf fun b => { b with sqwEn := true, sqwSel := 15 }).bin.sqwSel = 15 ∧ (binOf fun b => { b with sqwEn := true }).bin.sqwSel ≠ 15 ∧
    live.bin.sqwEn = false := by decide +kernel

theorem meets_BinnacleResetAndPads :
    (binOf fun b => { b with held := true }).bin.held = true ∧ live.bin.held = false ∧
    (binOf fun b => { b with strapBusy := true }).bin.strapBusy = true ∧ live.bin.strapBusy = false := by decide +kernel

/-! ## Power domains, wakes, resets and delivery -/

/-- `live` with an idle time for every domain and LOG OFF. -/
def idling : State := live.onDom fun d => { d with idle := Vector.replicate 6 1, log := {} }

theorem meets_DomainsLeaveOn :
    Domain.hif ≠ .cpu ∧ live.dom.idleOf .hif = 0 ∧ asleep.isOn .hif = false ∧
    (idling.dom.idleOf .pwr ≠ 0 ∧ idling.isOn .pwr = true ∧ idling.blocked .pwr = true) ∧
    (∀ d ∈ [Domain.memM, .memB, .gauge, .hif], idling.dom.idleOf d ≠ 0 ∧ (idling.dom.idleOf d).toNat * 32768 ≤ 100 * 328 ∧
      ¬ (idling.dom.idleOf d).toNat * 32768 ≤ 100 * 327 ∧ idling.isOn d = true) ∧
    idling.blocked .memM = false ∧ idling.blocked .gauge = false ∧
    (let s := idling.onDom fun d => { d with log := { st := .on } }
     s.isOn .log = true ∧ s.blocked .log = false ∧ s.log.active = false) ∧
    (let s := (idling.onLink fun l => { l with state := .down }); s.isOn .pwr = true ∧ s.blocked .pwr = false) ∧
    (let s := idling.onDom fun d => { d with memB := {} }; s.isOn .hif = true ∧ s.blocked .hif = false) ∧
    (let s := idling.onDom fun d => { d with gauge := { st := .on, deferred := some .ret } }
     (s.dom.get .gauge).deferred = some .ret ∧ s.isOn .gauge = true ∧ s.deferring .gauge = false) ∧
    padBit .hif = some 3 ∧ padBit .memM = none ∧ (live.dom.get .gauge).deferred = none := by decide +kernel

theorem meets_WaitInstructionTakesTheCpuOff :
    asleep.isOn .cpu = false ∧ live.isOn .cpu = true ∧ live.fw.started = true ∧
    live.dom.wakePend &&& (live.dom.wakeEn ||| 0xC0000) = 0 ∧ live.keepAny.getLsbD 0 = false ∧ live.isOn .log = true ∧
    live.dom.log.st = .on ∧ idling.isOn .log = false ∧
    (live.onDom fun d => { d with keepA := 1 }).keepAny.getLsbD 0 = true ∧
    ((domOf .log (.leaving .off)).dom.log.st = .leaving .off) ∧
    (let s := live.onDom fun d => { d with wakePend := 0x1000 }
     s.dom.wakePend &&& (s.dom.wakeEn &&& 0x3FFFF) ≠ 0) ∧
    (live.dom.wakePend &&& live.dom.wakeEn = 0 ∧ live.isOn .gauge = true ∧ live.blocked .gauge = false) ∧
    (live.onDom fun d => { d with cpu := { st := .on, deferred := some .off } }).dom.cpu.deferred = some .off := by decide +kernel

theorem meets_EntriesEndInRetOrOff :
    (∀ x, (live.dom.get x).wanted = false) ∧ ((domOf .memB (.entering .ret)).dom.get .memB).st = .entering .ret ∧
    (∀ d ∈ [Domain.cpu, .memM, .memB, .log, .gauge, .pwr, .hif],
      ((domOf d (.entering .off)).dom.get d).st = .entering .off ∧ ∀ x, ((domOf d (.entering .off)).dom.get x).wanted = false) ∧
    (live.dom.get .hif).st ≠ .entering .off := by
  refine ⟨fun x => by cases x <;> rfl, rfl, ?_, by decide +kernel⟩
  intro d hd; refine ⟨by cases d <;> rfl, fun x => by cases d <;> cases x <;> rfl⟩

theorem meets_DomainsReachOn :
    (∀ d ∈ [Domain.memM, .memB, .log, .gauge, .pwr, .hif], ((domOf d (.leaving .off)).dom.get d).st = .leaving .off) ∧
    live.dom.xo16Fail = false ∧ ((domOf .gauge (.leaving .ret)).dom.get .gauge).st = .leaving .ret ∧
    (let s := (domOf .log (.leaving .ret)).onDom fun d => { d with xo16Fail := true }
     s.dom.log.st = .leaving .ret ∧ s.dom.xo16Fail = true) ∧ (live.dom.get .hif).st = .on ∧
    (domOf .cpu (.leaving .off)).dom.cpu.st = .leaving .off ∧ (live.dom.get .memB).wanted = false ∧
    (let s := live.onDom fun d => { d with padHeld := 0b1000 }
     padBit .hif = some 3 ∧ s.fw.started = true ∧ s.isOn .hif = true ∧ s.dom.padHeld.getLsbD 3 = true) ∧
    padBit .memM = none := by decide +kernel

theorem meets_ClocksAndAlarms :
    live.isOn .cpu = true ∧ (live.onDom fun d => { d with pllcReq := true }).dom.pllcReq = true ∧ live.dom.pllcReq = false ∧
    live.dom.xo16Fail = false ∧ asleep.isOn .cpu = false ∧
    (let s := asleep.onDom fun d => { d with fwTimer := true, wakeEn := 0x80000 }
     s.dom.fwTimer = true ∧ s.dom.wakeEn.getLsbD 19 = true ∧ s.dom.cpu.st = .off ∧ s.powered = true) ∧
    live.dom.wakeEn.getLsbD 19 = false ∧ live.dom.fwTimer = false := by decide +kernel

theorem meets_RecordsWaitForTheirRing :
    (domOf .memB .off).ringsUp = false ∧ (domOf .memB .off).isOn .cpu = true ∧ (domOf .memB .off).fw.started = true ∧
    asleep.ringsUp = false ∧ asleep.isOn .cpu = false ∧ (domOf .memB (.leaving .off)).dom.memB.st = .leaving .off := by
  decide +kernel

theorem meets_ResetsReachAndKeep :
    live.bin.held = false ∧ live.isOn .cpu = true ∧
    ((live.onFw fun f => { f with resetDue := true }).fw.resetDue = true ∧ live.totalsPending = false) ∧
    (let s := ({ live with line := { live.line with beacon := true } }).onLink fun l => { l with state := .fault }
     s.isOn .pwr = true ∧ s.line.running = true ∧ s.line.beacon = true ∧ s.link.state = .fault ∧ s.dom.linkResetDone = false) ∧
    (live.onBin fun b => { b with held := true }).bin.held = true ∧ asleep.isOn .cpu = false ∧ live.fw.resetDue = false ∧
    asleep.isOn .pwr = false ∧ live.dom.gauge.st = .on ∧ asleep.dom.gauge.st = .off ∧
    live.gauge.learn ≠ .opened ∧ live.trim.active = false ∧
    (asleep.onDom fun d => { d with resetCode := some 0x2 }).dom.resetCode = some 0x2 ∧ live.dom.resetCode = none ∧
    (∀ d, (live.dom.get d).wanted = false) := by
  refine ⟨by decide +kernel, by decide +kernel, by decide +kernel, by decide +kernel, by decide +kernel, by decide +kernel,
    by decide +kernel, by decide +kernel, by decide +kernel, by decide +kernel, by decide +kernel, by decide +kernel,
    by decide +kernel, by decide +kernel, fun d => by cases d <;> rfl⟩

theorem meets_EventsAreDelivered :
    live.isOn .hif = true ∧ live.ev.routeOk = true ∧ asleep.isOn .hif = false ∧ State.reset.ev.routeOk = false := by
  decide +kernel

/-! ## The SPI port, the checks of a byte and the pins -/

theorem meets_PinsFollowTheBerthLines :
    live.dom.padHeld.getLsbD 3 = false ∧ (live.onDom fun d => { d with padHeld := 8 }).dom.padHeld.getLsbD 3 = true := by
  decide +kernel

theorem meets_HostWritesAreChecked :
    (live.onSpi fun x => { x with vddio := false }).portUp .csA = false ∧ live.portUp .csA = true ∧
    (owner 0x1400 = some 1 ∧ live.bound .csA 1 = false) ∧ (owner 0x1000 = some 0 ∧ live.bound .csA 0 = true) ∧
    owner 0x01C0 = none ∧ live.pageOn 0x01C0 = true ∧ asleep.pageOn 0x0400 = false ∧ owner 0x0400 = none ∧
    live.pageOn 0x0600 = true ∧ live.pageOn 0x0FFF = true ∧ live.pageOn 0x6000 = true ∧ live.pageOn 0x0008 = true ∧
    live.pageOn 0x1000 = true ∧ isMem 0x1000 = true ∧ isMem 0x10FF = true ∧ isMem 0x1100 = true ∧ isMem 0x2000 = true ∧
    (0x10FF % 0x400 < 0x100 ∧
      (live.onDom fun d => { d with bells := d.bells.set 0 { pend := true } }).dom.bells[0].pend = true) ∧
    live.dom.bells[0].pend = false := by decide +kernel

theorem meets_RegisterWritesStoreTheirFields :
    live.portUp .tw = true ∧ (∀ r ∈ Sys2Proof.Claims.fieldRows live .tw 0xA5, r.2.2.1 = true) ∧
    (∀ d ∈ [Domain.pwr, .hif], live.isOn d = true) := by decide +kernel

theorem meets_WideFieldsAndBlocksAreWritten :
    live.portUp .csA = true ∧ live.bin.rtcGrant.getLsbD (portCode .csA) = true ∧ live.bin.setMask 0x0130 = 0 ∧
    (live.onBin fun b => { b with setNow := [(0x0130, 0xFF)] }).bin.setMask 0x0130 ≠ 0 := by decide +kernel

theorem meets_PortsReachOnlyTheirBerths :
    (∀ n, owner 0x1400 = some n → live.bound .csA n.val = false) ∧ live.bound .csA 1 = false ∧
    (live.berth 1).waitsFor 0x0400 = false ∧ (live.berth 1).waitsFor 0x0401 = false := by decide +kernel

def spiOf (f : Spi → Spi) : State := live.onSpi f

/-- A transfer of CS_A in progress. -/
def transferring (x : Xfer) : State := spiOf fun s => { s with csA := true, xfer := some x }

theorem meets_ChipSelectsFrameTransfers :
    (spiOf fun x => { x with csA := true }).spi.csA = true ∧
    (live.spi.csA = false ∧ live.portUp .csA = true ∧ live.spi.clash = false ∧ live.spi.csB = false ∧ live.portUp .csB = true) ∧
    (spiOf fun x => { x with csB := true, deafB := true }).spi.deafB = true ∧
    ((spiOf fun x => { x with vddio := false }).spi.csA = false ∧ (spiOf fun x => { x with vddio := false }).portUp .csA = false ∧
      (spiOf fun x => { x with vddio := false }).portUp .csB = false) ∧
    ((live.spi.csA && live.spi.deafA) = false ∧ (live.spi.csB && live.spi.deafB) = false) ∧
    (spiOf fun x => { x with clash := true }).spi.clash = true ∧
    (transferring { port := .csA }).spi.xfer = some { port := .csA } ∧ (1 : Fin 8) ≠ 0 ∧ live.spi.xfer = none := by
  decide +kernel

theorem meets_TransferBytesAreServed :
    let x : Xfer := { port := .csA }
    live.spi.xfer = none ∧ (transferring x).spi.xfer = some x ∧ x.opcode = none ∧
    ({ x with opcode := some 0x02 } : Xfer).opcode = some 0x02 ∧
    ((0x24 : Byte) ≠ 0x00 ∧ (0x24 : Byte) ≠ 0x02 ∧ (0x24 : Byte) ≠ 0x0B ∧ (0x24 : Byte) &&& 0xFC ≠ 0x20) ∧
    live.judge .csA 0x01C0 true = .served ∧ live.judge .csA 0x0FFF true = .hole ∧
    (ungranted.judge .csB 0x0119 true = .refused) ∧ live.judge .csA 0x1100 false = .served ∧
    blockOf rsBlocks 0x1100 = none ∧ blockOf rcFields 0x1100 = none ∧ live.judge .csA 0x0600 false = .hole ∧
    asleep.judge .csA 0x0400 false = .off ∧ live.judge .csA 0x1400 false = .violation 1 := by decide +kernel

/-! ## The two-wire channels -/

def twOf (f : Tw → Tw) : State := live.onTw f

/-- A transaction addressed to the module, HIF running. -/
def addressed (readFirst : Bool) : State := twOf fun t => { t with phase := .active, readFirst, busy := true }

theorem meets_AddressMatchWakesTheHost :
    (live.onBin fun b => { b with held := true }).portUp .tw = false ∧ live.portUp .tw = true ∧ live.tw.sbsActive = false ∧
    live.bin.strapBusy = false ∧ (0x4C : BitVec 7) ≠ live.tw.addr ∧ (0x4B : BitVec 7) = live.tw.addr ∧
    live.dom.wakeEn.getLsbD 16 = true ∧ (asleep.dom.hif.st = .off ∧ asleep.powered = true) ∧ live.isOn .hif = true ∧
    (asleep.isOn .hif = false ∧ (asleep.onTw fun t => { t with sleepAsync := true }).tw.sleepAsync = true) ∧
    asleep.tw.sleepAsync = false ∧ (twOf fun t => { t with phase := .stretched }).tw.phase = .stretched ∧
    live.tw.phase ≠ .stretched := by decide +kernel

theorem meets_BegunBytesOnlyMeetTheirChecks :
    (addressed false).tw.phase = .active ∧ (addressed false).tw.readFirst = false ∧ 31 < (fixedBlock 0).2 ∧
    15 < (addressed false).tw.rlen.toNat := by decide +kernel

theorem meets_OtherTransactionsDoNothing :
    (twOf fun t => { t with phase := .ignored }).tw.phase = .ignored ∧ live.tw.phase = .idle := by decide +kernel

theorem meets_TwoWireReadsSendTheirBytes :
    (addressed true).tw.phase = .active ∧ (addressed true).tw.readFirst = true ∧ (addressed false).tw.readFirst = false ∧
    32 ≤ (fixedBlock 0).2 ∧ (fixedBlock 0).2 < 33 ∧ (addressed false).tw.rlen.toNat < 17 := by decide +kernel

theorem meets_TwoWireWritesTakeEffectAtTheirEnd :
    (addressed false).tw.phase = .active ∧ (addressed false).tw.readFirst = false ∧ (255 : Byte) ≠ 0 ∧ (254 : Byte).toNat ≤ 254 ∧
    live.berths.blk[2].pecReq = false ∧ (live.onBerth 2 fun _ => { pecReq := true }).berths.blk[2].pecReq = true ∧
    live.tw.pecReq = false ∧ (twOf fun t => { t with pecReq := true }).tw.pecReq = true ∧
    (0x75 : Byte) ≠ pec [0x96, 0x20, 0x02] := by decide +kernel

theorem meets_ProcessCallReadsTheResponse :
    (addressed false).tw.phase = .active ∧ (addressed false).tw.readFirst = false ∧ (255 : Byte) ≠ 0 ∧
    (1 : Byte).toNat + (255 : Byte).toNat ≤ 256 ∧ 257 ≠ 0 ∧ (255 : Byte).toNat < 257 := by decide +kernel

theorem meets_MalformedTransactionsAreRecorded :
    (addressed false).tw.phase = .active ∧ (addressed false).tw.readFirst = false := by decide +kernel

theorem meets_TwoWireTimeoutsAndArbitration :
    live.portUp .tw = true ∧ (twOf fun t => { t with phase := .active }).tw.phase ≠ .idle ∧
    (twOf fun t => { t with sbsActive := true }).tw.sbsActive = true ∧ (binOf fun b => { b with held := true }).portUp .tw = false ∧
    (twOf fun t => { t with stat := 2, sbsPending := true }).recovering = true ∧ live.recovering = false ∧ live.link.window = none ∧
    ((0x97 : Byte) >>> 1).setWidth 7 = live.tw.addr ∧ (twOf fun t => { t with sbsActive := true, sbsTries := 2 }).tw.sbsTries < 3 ∧
    3 ≤ (twOf fun t => { t with sbsActive := true, sbsTries := 3 }).tw.sbsTries ∧ live.tw.sbsActive = false := by
  decide +kernel

/-- `s` inside a quiet window. -/
def inWindow (s : State) : State := s.onLink fun l => { l with window := some ⟨10, 20⟩ }

theorem meets_SmartBatteryReads :
    (let s := live.onGauge fun g => { g with cfg := g.cfg.set 23 1 }
     s.isOn .hif = true ∧ s.isOn .cpu = true ∧ s.fw.started = true ∧ bitAt s.gauge.cfg 23 0 = true ∧
       s.tw.sbsPending = false ∧ s.tw.sbsActive = false) ∧ asleep.isOn .hif = false ∧ bitAt live.gauge.cfg 23 0 = false ∧
    live.portUp .tw = true ∧ live.recovering = false ∧
    (twOf fun t => { t with sbsPending := true }).tw.sbsPending = true ∧ live.tw.sbsPending = false ∧
    (inWindow (twOf fun t => { t with startHeld := true, sbsPending := true })).link.window.isSome = true ∧
    (twOf fun t => { t with sbsActive := true }).tw.sbsActive = true ∧ live.link.window = none ∧
    bitAt live.gauge.cfg 27 3 = false ∧ live.holderOf 6 = none ∧ bitAt live.gauge.cfg 23 1 = false ∧
    bitAt (live.onGauge fun g => { g with cfg := g.cfg.set 23 3 }).gauge.cfg 23 1 = true ∧
    (let s := (live.onGauge fun g => { g with cfg := g.cfg.set 27 8 }).onBerth 0 fun k => { k with rights := 0x3FFF }
     s.holderOf 6 = some 0 ∧ bitAt s.gauge.cfg 27 3 = true) ∧ live.tw.sbsActive = false := by decide +kernel

/-- A probe transfer in progress. -/
def probing (write polling : Bool) : State :=
  twOf fun t => { t with probe := some { berth := 0, write, head := 0, addr := 5, wide := false, count := 2, polling } }

theorem meets_ProbeTransfersEnd :
    live.tw.probe = none ∧ asleep.isOn .hif = false ∧ (inWindow live).link.window.isSome = true ∧
    (twOf fun t => { t with pbStuck := true }).tw.pbStuck = true ∧ (probing true true).isOn .hif = true ∧
    (probing true true).isOn .cpu = true ∧ (probing true true).tw.probe.map (·.polling) = some true ∧
    (probing true false).tw.probe.map (fun o => (o.polling, o.write)) = some (false, true) ∧
    (probing false false).tw.probe.map (fun o => (o.polling, o.write, o.count)) = some (false, false, [1, 2].length) := by
  decide +kernel

theorem meets_ProbeLinesAreRecovered :
    asleep.isOn .hif = false ∧ (live.isOn .hif = true ∧ live.isOn .cpu = true) ∧ live.link.window = none ∧
    (inWindow live).link.window.isSome = true ∧ live.tw.probe = none ∧ (probing true true).tw.probe.isSome = true := by
  decide +kernel

/-! ## Firmware's own work -/

/-- The CPU runs and firmware has not started. -/
def starting (f : Flash → Flash) : State := (live.onFw fun w => { w with started := false }).onFlash f

-- The CRC of an image is a deep term.
set_option maxRecDepth 100000 in
theorem meets_FirmwareStartLoadsTheCharter :
    asleep.isOn .cpu = false ∧ live.fw.started = true ∧ live.isOn .cpu = true ∧ (starting id).fw.started = false ∧
    ((starting id).onFw fun w => { w with coldStart := false }).fw.coldStart = false ∧ (starting id).fw.coldStart = true ∧
    (∀ e ∈ (starting id).flash.logbook, e.kind ≠ 3 ∧ e.kind ≠ 4) ∧
    (let c : Charter := { defaultCharter with serial := 1 }
     let s := starting fun f => { f with charterA := c.image, charterB := (Charter.image { c with serial := 2 }) }
     (Charter.ofImage s.flash.charterA).map Charter.serial = some 1 ∧ (Charter.ofImage s.flash.charterB).map Charter.serial = some 2) ∧
    Charter.ofImage (starting id).flash.charterA = none ∧ Charter.ofImage (starting id).flash.charterB = none ∧
    (let s := starting fun f => { f with epochs := f.epochs.set 0 [(List.replicate 32 0, 0xFFFF)] }
     0xFFFF ≤ s.flash.topEpoch 0 defaultCharter.entries[0].key) ∧
    (starting id).flash.topEpoch 0 defaultCharter.entries[0].key < 0xFFFF ∧ (starting id).flash.storeA = none ∧
    (starting id).flash.storeB = none ∧ (starting id).fw.recQ = [] := by
  decide +kernel

set_option maxRecDepth 100000 in
/-- An image with a bit of its SERIAL changed, one with a wrong MAGIC, and a whole one. -/
theorem meets_CharterImagesAreJudged :
    let p := defaultCharter.image
    let bit := p.set 8 1
    let magic := p.set 0 0x44
    leAt bit 272 4 ≠ (crc32 (slice bit 0 272)).toNat ∧ slice magic 0 8 ≠ slice p 0 8 ∧ (Charter.ofImage p).isSome = true := by
  decide +kernel

/-- B0 has rung with the given first eight bytes in its request mailbox. -/
def rung (frame : List Byte) (k : Berth) : State :=
  ((live.onDom fun d => { d with bells := d.bells.set 0 { pend := true }, ringOrder := [0] }).onBerth 0 fun _ => k).onBerths fun x =>
    { x with mem := frame.zipIdx.filterMap fun v => if v.1 = 0 then none else some (0x1000 + v.2, v.1.toNat) }

def noopFrame : List Byte := [0x00, 0x01, 0x05, 0x02, 0x00, 0x00, 0x64, 0x76]

/-- Command 0x0150, which the catalogue does not have. -/
def strangeFrame : List Byte :=
  [0x50, 0x01, 0x05, 0x02, 0x00, 0x00] ++ leBytes 2 (crc16 [0x50, 0x01, 0x05, 0x02, 0x00, 0x00]).toNat

theorem meets_RequestsAreTakenAndChecked :
    (live.isOn .cpu && live.fw.started && live.isOn .memB && !live.fw.resetDue && live.nextRing == some 0) = false ∧
    (let s := rung noopFrame {}
     let bytes := memReadAll s.berths.mem (windowBase 0) 256
     s.isOn .cpu = true ∧ s.fw.started = true ∧ s.isOn .memB = true ∧ s.fw.resetDue = false ∧ s.nextRing = some 0 ∧
     leAt bytes 6 2 = (crc16 (slice bytes 0 6)).toNat ∧ leAt bytes 4 2 ≤ 240 ∧ bytes.getD 3 0 &&& 0xF8 = 0 ∧
     s.berths.blk[0].stored = none ∧ s.berths.blk[0].macLock = false ∧ s.berths.blk[0].sealed = false ∧
     (bytes.getD 3 0).getLsbD 0 = false ∧ s.berths.blk[0].seqKnown = false ∧
     commandCodes.contains (BitVec.ofNat 16 (leAt bytes 0 2)) = true) ∧
    (let s := rung noopFrame { lastFrame := noopFrame, stored := some [1] }
     slice (memReadAll s.berths.mem (windowBase 0) 256) 0 8 = s.berths.blk[0].lastFrame ∧ s.berths.blk[0].stored = some [1]) ∧
    (let bytes := memReadAll (rung (noopFrame.set 6 0x65) {}).berths.mem (windowBase 0) 256
     leAt bytes 6 2 ≠ (crc16 (slice bytes 0 6)).toNat) ∧
    (rung noopFrame { macLock := true }).berths.blk[0].macLock = true ∧
    (let k := (rung noopFrame { sealed := true, macFails := 6 }).berths.blk[0]
     k.sealed = true ∧ k.noEpoch = false ∧ k.macFails < 7) ∧ 7 ≤ (rung noopFrame { sealed := true, macFails := 7 }).berths.blk[0].macFails ∧
    (let k := (rung noopFrame { seqKnown := true, lastSeq := 5 }).berths.blk[0]; k.seqKnown = true ∧ k.lastSeq = 0x05) ∧
    (let bytes := memReadAll (rung strangeFrame {}).berths.mem (windowBase 0) 256
     leAt bytes 6 2 = (crc16 (slice bytes 0 6)).toNat ∧ commandCodes.contains (BitVec.ofNat 16 (leAt bytes 0 2)) = false) := by
  decide +kernel

theorem meets_LockProbationAndQuotaEnd :
    live.fw.probation = false ∧ (live.onFw fun f => { f with probation := true }).fw.probation = true ∧ live.fw.started = true ∧
    live.flash.topSecVer.toNat < (live.onFlash fun f => { f with bankA := { f.bankA with secVer := 9 } }).flash.active.secVer.toNat ∧
    asleep.freeSlot = false := by decide +kernel

/-- An entry that waits to be durable. -/
def waiting (kind berth : Byte) : LogEntry := { eseq := 1, kind, berth, used := 4, stamp := 0, data := [1, 0, 0, 0] }

def bookOf (kind berth : Byte) : State := live.onFw fun f => { f with logQ := [waiting kind berth] }

theorem meets_LogbookEntriesBecomeDurable :
    live.fw.logQ = [] ∧ (∀ k ∈ [(1 : Byte), 3, 4, 5], (bookOf k 3).fw.logQ = waiting k 3 :: []) ∧ (waiting 1 3).isTotals = true ∧
    ((waiting 3 3).kind = 3 ∧ (waiting 3 3).berth.toNat < 4) ∧ (waiting 4 0).kind = 4 ∧ (waiting 5 0).kind = 5 ∧
    (asking live 3 (request 0 [])).fw.charter.entries[3].rights.getLsbD 0 = true ∧
    live.fw.charter.entries[3].rights.getLsbD 0 = false ∧ (asking live 3 (request 0 [])).fw.charter.entries[3].rights.getLsbD 1 = true := by
  decide +kernel

/-- An image that waits to be durable, for a request of B0. -/
def image (answer : Bool) (erases : Option (Fin 4)) : StoreWrite := { image := { seq := 3 }, berth := 0, answer, erases }

theorem meets_StoreImagesBecomeDurable :
    let held := { request 0x0600 [] with waiting := true }
    let s := (asking live 0 held).onFw fun f => { f with storeQ := [image true none] }
    live.fw.storeQ = [] ∧ s.fw.storeQ = image true none :: [] ∧ (image true none).answer = true ∧
    s.berths.blk[0].cur = some held ∧ held.waiting = true ∧ held.accepted = true ∧ held.flags.getLsbD 1 = true ∧
    (image false (some 2)).answer = false ∧ (image false (some 2)).erases = some 2 ∧ (image true none).erases = none ∧
    (let f := live.flash
     ({ f with storeA := some { seq := 1 }, storeB := some { seq := 2 } } : Flash).storeA = some { seq := 1 } ∧ 1 < 2 ∧ 1 ≤ 1 ∧
       f.storeA = none ∧ f.storeB = none) := by decide +kernel

/-! ## The Log engine -/

def logOf (f : Log → Log) : State := live.onLog f

/-- Path A configured, the path's right with B0, and time left. -/
def metering (f : PathSt → PathSt) : State :=
  ((logOf fun l => { l with a := f { l.a with acqOk := true, flowOk := true } }).onBerth 0 fun k => { k with rights := 1 }).onFw fun w =>
    { w with charter := { w.charter with entries := w.charter.entries.set 0 richEntry } }

theorem meets_SoundingsFallDueAndStart :
    let fits (s : State) := s.fitsQuota (s.pathHolder .a) (shotsTime (s.log.path .a).acq (acqShots (s.log.path .a).acq))
    (live.fw.started && ((live.log.path .a).configured || live.leewayOn .a)) = false ∧
    (let s := metering id
     (s.fw.started && ((s.log.path .a).configured || s.leewayOn .a)) = true ∧
     ((s.log.path .a).due || s.leewayFull .a || (s.log.cur.map fun x => x.path == .a).getD false) = false ∧
     s.isOn .log = true ∧ s.freeSlot = true ∧ s.rtdAged = false ∧ s.delayedReady .a = false ∧ s.delayedReady .b = false ∧
     (s.log.path .a).delayed = false ∧ fits s = true ∧ (s.onDom fun d => { d with log := {} }).isOn .log = false) ∧
    ((metering id).onLog fun l => { l with rtd := some { blk := rtdReset, left := [4], running := true, since := 0 } }).log.rtd.map
      (·.running) = some true ∧
    ((metering fun k => { k with due := true }).log.path .a).due = true ∧
    (let s := metering fun k => { k with due := true, delayed := true }
     (s.freeSlot && s.delayedReady .a && !(Path.a == .b && s.delayedReady .a)) = true) ∧
    (live.freeSlot && live.delayedReady .a && !(Path.a == .b && live.delayedReady .a)) = false := by decide +kernel

/-- The sounding with the given shot in progress. -/
def shooting (shot : Shot) : State := (metering id).onLog fun l => { l with cur := some (sounding acqReset shot) }

theorem meets_PortsAndBurstsFollowTheShot :
    (domOf .log .off).isOn .log = false ∧ (live.onDom fun d => { d with padHeld := 4 }).dom.padHeld.getLsbD 2 = true ∧
    live.log.portUsed 0 = false ∧ (metering id).log.portUsed 0 = true ∧ (sounding acqReset {}).plan.up = false ∧
    (let x := sounding acqReset {}
     Sounding.plan { x with shots := [{ idx := 0, up := false, swapped := false, cause := 0 }] }).up = true ∧
    acqFd acqReset ≠ 0 ∧ acqBurst acqReset ≠ 0 ∧ 0 < driveEnd acqReset := by decide +kernel

theorem meets_ShotsAskForQuiet :
    live.log.cur = none ∧ (shooting {}).log.cur = some (sounding acqReset {}) ∧
    ((shooting {}).askAt (sounding acqReset {}) 5 && !(shooting {}).inGuard 0 0) = false ∧
    (let x := sounding acqReset { fire := some 0 }
     let s := shooting x.shot
     let edge := acqDelay acqReset - leadEdges acqReset
     s.log.cur = some x ∧ (s.askAt x edge && !s.inGuard 0 0) = true ∧ s.link.state ≠ .down ∧ s.link.downlinkRuns = true ∧
     quietLength x.acq ≠ 0 ∧
     (let g := s.onLink fun l => { l with quietEnd := some (0, 100) }; g.inGuard 99 0 = true ∧ g.inGuard 100 0 = false) ∧
     (s.onLink fun l => { l with state := .fault }).link.downlinkRuns = false ∧
     (s.onLink fun l => { l with state := .down }).link.window = none ∧
     (let t := s.onLink fun l => { l with state := .down, window := some ⟨0, edge + 1⟩, windowLocal := true }
      t.link.state = .down ∧ t.link.window = some ⟨0, edge + 1⟩ ∧ t.link.windowLocal = true ∧ edge < edge + 1)) := by decide +kernel

theorem meets_ShotsFire :
    live.log.cur = none ∧ ((shooting {}).isOn .log && (shooting {}).fireAt (sounding acqReset {}) 0 0) = true ∧
    ((shooting { fire := some 0 }).isOn .log && (shooting { fire := some 0 }).fireAt (sounding acqReset { fire := some 0 }) 9 0) = false ∧
    driveBad false 4500 = false ∧ driveBad false 4499 = true ∧ (sounding acqReset {}).firing ≠ (sounding acqReset {}).receiving ∧
    (let x := sounding acqReset { fire := some 0 }
     x.shot.fire = some 0 ∧ 2000 ≤ 2000 ∧ 0 ≤ 3 ∧ (3 - 0) * 64 < driveEnd x.acq ∧ x.shot.capture = none) ∧
    (sounding acqReset {}).shot.fire = none := by decide +kernel

theorem meets_CapturesOpenAndClose :
    live.log.cur = none ∧ (sounding acqReset {}).shot.fire = none ∧
    (let x := sounding acqReset { fire := some 100 }
     let s := (shooting x.shot).onLink fun l => { l with window := some ⟨100 + acqDelay acqReset, 10000⟩ }
     s.log.cur = some x ∧ x.shot.fire = some 100 ∧ x.shot.capture = none ∧ x.shot.refused = false ∧
     (s.link.window.map fun w => decide (w.openEdge ≤ 100 + acqDelay acqReset) && decide (100 + acqDelay acqReset < w.closeEdge)).getD
       false = true) ∧
    ((shooting {}).link.window.map fun w => decide (w.openEdge ≤ 9) && decide (9 < w.closeEdge)).getD false = false ∧
    (sounding acqReset { fire := some 0, refused := true }).shot.refused = true ∧
    (let x := sounding acqReset { fire := some 0, capture := some (3300, 64) }
     x.shot.capture = some (3300, 64) ∧ (List.replicate 64 (0 : BitVec 14)).length = 64 ∧ (shooting x.shot).pathHolder x.path = some 0) ∧
    (metering id).pathHolder .a = some 0 := by decide +kernel

/-- What the end of a shot asks of its sounding, its path and the result. -/
theorem meets_ShotEnded :
    let bad : ShotResult := { idx := 1, up := true, swapped := false, cause := 8 }
    let shot : ShotResult := { idx := 0, up := false, swapped := false, cause := 0, tof := 4720552960, a1 := some 4100 }
    let x : Sounding := { sounding acqReset {} with shots := [shot], firstStamp := 100000, firstEdge := 1000 }
    let k (h : HoldState) := ((metering fun k =>
      { k with hold := h, tPrev := some ⟨0, 10⟩, lastValid := some ⟨0, 10⟩ }).log.path .a)
    (sounding acqReset {}).shots.length + 1 ≠ (sounding acqReset {}).shotsPlanned.length ∧
    x.shots.length + 1 = x.shotsPlanned.length ∧ bad.cause ≠ 0 ∧ x.cal ≠ some .learn ∧
    (k .normal).missFrom = none ∧ flowHeat (k .normal).flow = false ∧ 10 < x.firstEdge ∧
    ((metering id).flowOfSounding { x with shots := x.shots ++ [bad] } none).cause ≠ 0 ∧
    (k .invalid).hold = .invalid ∧ (k .normal).hold = .normal ∧ x.firstEdge < (k .normal).holdClose.edge ∧ (k .hold).hold = .hold := by
  decide +kernel

theorem meets_PathWindowsEnd :
    ((live.log.path .a).flowing && (live.log.path .a).quietOpen) = false ∧
    (let k := (metering fun k => { k with flowing := true, quietOpen := true }).log.path .a; (k.flowing && k.quietOpen) = true) ∧
    (live.log.path .a).hold ≠ .hold ∧
    (let k := (metering fun k => { k with hold := .hold, tPrev := some ⟨0, 10⟩, lastValid := some ⟨0, 10⟩ }).log.path .a
     k.hold = .hold ∧ k.tPrev = some ⟨0, 10⟩ ∧ 10 < k.holdClose.edge ∧ flowHeat k.flow = false) ∧
    (let k := (metering fun k => { k with hold := .hold, tPrev := some ⟨0, 999999⟩, lastValid := some ⟨0, 10⟩ }).log.path .a
     k.tPrev = some ⟨0, 999999⟩ ∧ k.holdClose.edge ≤ 999999) := by decide +kernel

theorem meets_TotalsAreSaved :
    (live.fw.started && (live.onCal fun c => { c with lsec := 901 }).cal.lsec.toNat % 900 == 0) = false ∧
    (live.fw.started && live.cal.lsec.toNat % 900 == 0) = true ∧
    (live.fw.started && live.fw.pfArmed && live.fw.pfLoss && (!live.gauge.stateValid || decide (1 ≤ live.gauge.dstate))) = false ∧
    (let s := live.onFw fun f => { f with pfArmed := true, pfLoss := true }
     (s.fw.started && s.fw.pfArmed && s.fw.pfLoss && (!s.gauge.stateValid || decide (1 ≤ s.gauge.dstate))) = true) := by decide +kernel

/-- A calibration of path A for B0. -/
def calibrating (kind : CalKind) (dtofs : List Int) (made : Nat) : State :=
  (metering id).onLog fun l => { l with cal := some { kind, path := .a, berth := 0, dtofs, made } }

/-- A block for a learn of 32 shots on a carrier of 4 MHz, and a capture that holds two cycles of it. -/
def learnAcq : List Byte :=
  (((((acqReset.set 0 0xA0).set 1 0x0F).set 10 8).set 11 0).set 12 48).set 13 0 |>.set 24 1 |>.set 25 1

def learnWave : List (BitVec 14) :=
  let p : List (BitVec 14) := [0, 765, 1414, 1848, 2000, 1848, 1414, 765, 0, -765, -1414, -1848, -2000, -1848, -1414, -765]
  List.replicate 8 0 ++ p ++ p ++ List.replicate 8 0

theorem meets_CalibrationsEnd :
    live.log.cal = none ∧ (calibrating .learn [] 128).log.cal.map (fun c => (c.kind, c.made)) = some (.learn, 2 * acqLearnShots acqReset) ∧
    (calibrating .learn [] 127).log.cal.map (·.made) = some 127 ∧ learnTemplate acqReset [] = none ∧
    learnRejected acqReset 128 0 [] = true ∧ 2 * acqLearnShots learnAcq = 32 ∧
    (let s := calibrating .leeway (List.replicate 256 7) 256
     (s.leewayFull .a && s.log.cur.isNone) = true ∧ leewayRejected (flowLeewayN (s.log.path .a).flow) (List.replicate 256 7) = false ∧
       leewayRejected (flowLeewayN (s.log.path .a).flow) [] = true) ∧
    ((calibrating .leeway [] 255).leewayFull .a && live.log.cur.isNone) = false := by decide +kernel

/-- A learn that stores a template: 29 of its 32 shots good. The length of a template is a free value (log 49); it is taken as
0 here. -/
theorem meets_CalibrationsEnd_learn (h : Config.templateLen learnAcq = 0) :
    (learnTemplate learnAcq (List.replicate 29 learnWave)).map (fun y => learnRejected learnAcq 32 29 y.2) = some false := by
  unfold learnTemplate templateOf
  rw [h]
  decide +kernel

/-- An RTD set of input 0 in progress, in which `left` conversions are still to be made. -/
def converting (left : List (Fin 5)) (running : Bool) : State :=
  logOf fun l => { l with rtdBlk := rtdReset.set 0 1, rtd := some { blk := rtdReset.set 0 1, left, running, since := 0 } }

theorem meets_RtdSetsRun :
    (live.fw.started && !(rtdInputs live.log.rtdBlk).isEmpty && live.log.rtd.isNone) = false ∧
    (let s := logOf fun l => { l with rtdBlk := rtdReset.set 0 1 }
     (s.fw.started && !(rtdInputs s.log.rtdBlk).isEmpty && s.log.rtd.isNone) = true ∧ s.isOn .log = true ∧
       (s.onDom fun d => { d with log := {} }).isOn .log = false) ∧ live.log.rtd = none ∧
    (converting [] false).log.rtd.map (·.left) = some [] ∧
    (let s := converting [4, 0, 4] false
     s.log.rtd.map (·.left) = some (4 :: [0, 4]) ∧ (s.freeSlot && !s.delayedReady .a && !s.delayedReady .b &&
       (s.rtdAged || !(s.startable .a || s.startable .b || s.learnReady.isSome)) &&
       s.fitsQuota (s.rtdHolder (rtdReset.set 0 1) 4) 153600000) = true) ∧
    (converting [4] true).freeSlot = false ∧ (converting [4] true).log.rtd.map (·.running) = some true ∧ 115200000 ≤ 115200000 ∧
    115199999 < 115200000 ∧ (converting [0] true).log.rtd.map (·.left) = some [0] := by decide +kernel

/-! ## The gauge -/

def gaugeOf (f : Gauge → Gauge) : State := live.onGauge f

theorem meets_ConversionsAccumulate :
    asleep.dom.gauge.st = .off ∧ live.dom.gauge.st ≠ .off ∧ live.bin.held = false ∧
    (gaugeOf fun g => { g with stateValid := true }).gauge.stateValid = true ∧ live.gauge.stateValid = false ∧
    (decide ((0 : Int).natAbs * 5 < gIRest live.gauge.cfg * gShunt live.gauge.cfg) &&
      !(live.power.chg == .pre || live.power.chg == .cc || live.power.chg == .cv)) = true ∧
    (decide ((200000000 : Int).natAbs * 5 < gIRest live.gauge.cfg * gShunt live.gauge.cfg)) = false ∧
    live.gauge.lastQuiet ≠ some true ∧ (gaugeOf fun g => { g with lastQuiet := some true }).gauge.lastQuiet = some true ∧
    live.gauge.afterFix = false ∧
    (let s := gaugeOf fun g => { g with learn := .pending, fixTemp := 250 }
     s.gauge.learn = .pending ∧ learnTempBad s.gauge.fixTemp = false ∧ s.cal.onLrc = false) ∧
    ((gaugeOf fun g => { g with learn := .opened }).onCal fun c => { c with onLrc := true }).cal.onLrc = true := by
  decide +kernel

theorem meets_TelemetryReadsThePack :
    (asleep.isOn .gauge && (gTlmInt asleep.gauge.cfg != 0 || asleep.power.chgEn)) = false ∧
    ((charger .cc).isOn .gauge && (gTlmInt (charger .cc).gauge.cfg != 0 || (charger .cc).power.chgEn)) = true ∧ 500000 < 500001 ∧ 99 < 100 ∧
    live.gauge.levels.getLsbD 0 = false ∧ (0 : Nat) ≤ 10 * gLevelV live.gauge.cfg 0 ∧ live.isOn .pwr = true ∧
    asleep.isOn .pwr = false := by decide +kernel

/-- A profile whose points rise by 40 mV from 2,800 mV. -/
def profile40 : List Byte :=
  [0, 0, 0, 0] ++ (List.range 33).flatMap (fun i => leBytes 2 (2800 + 40 * i) ++ [0, 0]) ++ [0, 0, 0, 0]

def resting (f : Gauge → Gauge) : State := gaugeOf fun g => f { g with restMet := true, prof0 := some profile40 }

theorem meets_RestsFixesAndLearnAge :
    (live.gaugeRuns && live.gauge.lastQuiet == some true &&
      (live.gauge.restOpen.map fun o => decide (gTRest live.gauge.cfg ≤ live.gauge.convCnt.toNat - o)).getD false) = false ∧
    (let s := gaugeOf fun g => { g with lastQuiet := some true, restOpen := some 0, convCnt := BitVec.ofNat 32 (gTRest g.cfg) }
     (s.gaugeRuns && s.gauge.lastQuiet == some true &&
       (s.gauge.restOpen.map fun o => decide (gTRest s.gauge.cfg ≤ s.gauge.convCnt.toNat - o)).getD false) = true) ∧
    (let s := resting id
     (s.fw.started && s.isOn .gauge && s.gauge.restMet && (List.replicate 16 (0 : BitVec 14)).length == 16) = true ∧
       s.gauge.profile = some profile40 ∧
       segment profile40 250 0 = none ∧ (0 : Int) < profileAt profile40 250 0 ∧
       (segment profile40 250 2820000).isSome = true) ∧
    (live.fw.started && live.isOn .gauge && live.gauge.restMet && (List.replicate 16 (0 : BitVec 14)).length == 16) = false ∧
    (let r := tsReading (gNtcB live.gauge.cfg) 10000; r.2.1 = false ∧ r.2.2 = false ∧ -200 ≤ r.1 ∧ r.1 ≤ 600) ∧
    (tsReading (gNtcB live.gauge.cfg) 500001).2.1 = true ∧ (tsReading (gNtcB live.gauge.cfg) 99).2.2 = true ∧
    live.gauge.profile = none ∧ live.gauge.learn ≠ .opened ∧
    (let s := gaugeOf fun g => { g with learn := .opened, convCnt := BitVec.ofNat 32 (gLearnMax g.cfg) }
     s.gauge.learn = .opened ∧ gLearnMax s.gauge.cfg ≤ s.gauge.convCnt.toNat - s.gauge.openConv) ∧
    (gaugeOf fun g => { g with learn := .opened }).gauge.convCnt.toNat - 0 < gLearnMax live.gauge.cfg := by decide +kernel

/-! ## The mailbox commands -/

/-- The hypothesis that every statement about a mailbox command makes. -/
theorem in_hand (s : State) (b : Fin 4) (cmd : Half) (p : List Byte) (hc : s.isOn .cpu = true) (hs : s.fw.started = true) :
    (asking s b (request cmd p)).InHand b cmd (request cmd p) :=
  ⟨by simp [asking, State.berth, request], hc, hs, rfl, rfl⟩

theorem in_hand_mac (s : State) (b : Fin 4) (cmd : Half) (p : List Byte) (hc : s.isOn .cpu = true) (hs : s.fw.started = true) :
    (asking s b { request cmd p with mac := true }).InHand b cmd { request cmd p with mac := true } :=
  ⟨by simp [asking, State.berth], hc, hs, rfl, rfl⟩

theorem meets_InHand : (asking live 0 (request 0x0100 [])).InHand 0 0x0100 (request 0x0100 []) :=
  in_hand live 0 _ _ (by decide +kernel) (by decide +kernel)

theorem meets_OpenReadsAnswer :
    (request 0x0100 []).payload.length = 0 ∧ 0 < (request 0x0100 [1]).payload.length ∧ asleep.dom.gauge.st = .off ∧
    live.dom.gauge.st ≠ .off := by decide +kernel

theorem meets_PathReadsAnswer :
    ((request 0x0601 [0]).payload.getD 0 0).toNat = pathNo .a ∧ ((request 0x0601 [1]).payload.getD 0 0).toNat = pathNo .b ∧
    1 < ((request 0x0601 [2]).payload.getD 0 0).toNat := by decide +kernel

/-- A command with a right is DENIED to a berth without it. -/
theorem meets_denied :
    Sys2Proof.Claims.without 13 0 (request 0x0103 [0xA5]) live = true ∧
    Sys2Proof.Claims.without 13 0 (request 0x0103 [0xA5]) (asking live 0 (request 0x0103 [0xA5])) = false ∧
    Sys2Proof.Claims.withoutPath 0 (request 0x0600 [1]) live = true ∧
    Sys2Proof.Claims.withoutPath 0 (request 0x0600 [1]) (asking live 0 (request 0x0600 [1])) = false ∧
    Sys2Proof.Claims.isSealed 0 (request 0x0606 [0]) chapter8 = true ∧
    Sys2Proof.Claims.isSealed 0 (request 0x0606 [0]) live = false := by decide +kernel

theorem meets_RoutingLogbookAndReset :
    3 < ((List.replicate 12 (0 : Byte) ++ [4]).getD 12 0).toNat ∧ ((List.replicate 12 (0 : Byte) ++ [3]).getD 12 0).toNat ≤ 3 ∧
    (48 ≤ 63 ∧ 63 < 64) ∧ live.isOn .hif = true ∧ 3 < (([0, 0, 0, 0, 4] : List Byte).getD 4 0).toNat ∧
    (1 ≤ (([0, 0, 0, 0, 3] : List Byte).getD 4 0).toNat ∧ (([0, 0, 0, 0, 3] : List Byte).getD 4 0).toNat ≤ 3) ∧
    ([0xA4] : List Byte) ≠ [0xA5] ∧
    (after (.reset 0) (asking (metering id) 0 (request 0x0103 [0xA5]))).fw.resetWait = some 0 ∧
    (after (.reset 0) (asking live 0 (request 0x0103 [0xA5]))).fw.resetDue = true := by decide +kernel

theorem meets_PoliciesAreSet :
    ((0xAA : Byte) &&& 0xAA != 0) = true ∧
    (((0x55 : Byte) &&& 0xAA != 0) = false ∧ ((0x05 : Byte) &&& 0xFA != 0) = false ∧ ((0x07 : Byte) &&& 0xF8 != 0) = false) ∧
    ((0x02 : Byte) &&& 0xFA != 0) = true ∧ ((0x08 : Byte) &&& 0xF8 != 0) = true ∧
    (7 : Byte).getLsbD 0 = true ∧ asleep.powered = true ∧ asleep.dom.memM.st = .off ∧ asleep.dom.gauge.st = .off ∧
    asleep.dom.pwr.st = .off ∧ live.isOn .memM = true ∧ (0x1F : Byte) &&& 0xF0 ≠ 0 ∧
    ((0x0F : Byte) &&& 0xF0 = 0 ∧ (0x04 : Byte) &&& 0xFC ≠ 0 ∧ (0x03 : Byte) &&& 0xFC = 0) := by decide +kernel

/-- `s`, in which B1 has a TRIM_POLICY request that waits for its image. -/
def elsewhere (s : State) : State :=
  { s with berths := { s.berths with blk := s.berths.blk.set 1 { s.berths.blk[1] with
    cur := some { request 0x0402 [] with waiting := true } } } }

/-- A CHARTER_STAGE payload for B3 with the given key action. -/
def stage (action : Byte) : List Byte := [3, 0, 2, action, 1, 0, 100, 0, 4] ++ List.replicate 31 0

def charterOf (es : Vector Entry 4) (f : Staged → Staged) : State :=
  live.onFw fun w => { w with staged := some (f { entries := es }) }

def goodEntries : Vector Entry 4 := #v[{ port := 0, rights := 0x3FFF }, {}, {}, {}]

theorem meets_ChartersAreReadStagedAndCommitted :
    2 < (([3, 0] : List Byte).getD 0 0).toNat ∧ 3 < (([2, 4] : List Byte).getD 1 0).toNat ∧ (([0, 3] : List Byte).getD 1 0).toNat = 3 ∧
    live.fw.committed = none ∧ (live.onFw fun w => { w with committed := some defaultCharter }).fw.committed = some defaultCharter ∧
    live.fw.staged = none ∧ 4 ≤ ((stage 0).set 0 4 |>.getD 0 0).toNat ∧ live.fw.charter.entries[3].sealed = false ∧
    chapter8.fw.charter.entries[0].sealed = true ∧ stageBad ((stage 0).set 2 1) = some 2 ∧
    (∀ k ∈ [(0 : Byte), 1, 2], stageBad (stage k) = none ∧ (stage k).length = 40 ∧ ((stage k).getD 3 0) = k) ∧
    (live.fw.staged.getD { entries := live.fw.charter.entries }).parts = [] ∧
    (charterOf goodEntries id).fw.staged = some { entries := goodEntries } ∧
    sealedChange chapter8.fw.charter.entries goodEntries = true ∧ sealedChange live.fw.charter.entries goodEntries = false ∧
    charterBad (Vector.replicate 4 {}) = true ∧ charterBad goodEntries = false ∧
    ((charterOf goodEntries fun x => { x with incomplete := 1 }).fw.staged.map (·.incomplete)) = some 1 := by
  decide +kernel

theorem meets_ChartersAreCommitted :
    let s := asking (charterOf goodEntries id) 0 (request 0x0202 [])
    s.flashHeld 0 = false ∧ (elsewhere s).flashHeld 0 = true ∧ s.fw.spareIsB = false ∧
    (s.onFw fun w => { w with isDefault := false }).fw.spareIsB = true ∧
    (elsewhere s).berths.blk[1].cur.map (·.writes) = some true ∧
    sealedChange (charterOf goodEntries id).fw.charter.entries goodEntries = false := by decide +kernel

theorem meets_SealsAndUnsealsBegin :
    (request 0x0204 []).mac = false ∧ chapter8.fw.charter.entries[0].sealed = true ∧ ({} : Entry).port = 0b11 ∧
    noKey live.fw.charter.entries[0].key = true ∧ (request 0x0204 [1]).payload ≠ [] ∧
    (let s := asking live 0 { request 0x0204 [] with mac := true }
     let e := s.fw.charter.entries[0]
     e.sealed = false ∧ e.port ≠ 0b11 ∧ noKey e.key = false ∧ s.fw.committed = none ∧ s.flashHeld 0 = false ∧
     (elsewhere s).flashHeld 0 = true ∧ (s.onFw fun w => { w with committed := some defaultCharter }).fw.committed.isSome = true) ∧
    ((request 0x0205 [3]).payload = [BitVec.ofNat 8 3]) ∧ (asking live 0 (request 0x0205 [3])).fw.charter.entries[0].rights.getLsbD 12 = true ∧
    live.fw.charter.entries[0].rights.getLsbD 12 = false ∧ live.fw.charter.entries[3].sealed = false ∧
    (let s := live.onFw fun w => { w with charter := { w.charter with entries := w.charter.entries.set 3 { sealed := true } } }
     s.fw.charter.entries[3].sealed = true) := by decide +kernel

theorem meets_TheConverterIsStoppedAndRestarted :
    (asking live 0 (request 0x0302 [0])).fw.charter.entries[0].rights.getLsbD 13 = true ∧
    live.fw.charter.entries[0].rights.getLsbD 13 = false ∧ (live.isOn .pwr && live.link.state == .up) = true ∧
    (asleep.isOn .pwr && asleep.link.state == .up) = false ∧ 2 ≤ (([2] : List Byte).getD 0 0).toNat ∧
    ([] : List Byte).length ≠ 1 := by decide +kernel

theorem meets_TimeAndTrimAreCommanded :
    (([0] : List Byte).getD 0 0).toNat ≠ 1 ∧ (calOf fun c => { c with shift := some 1 }).cal.shift.isSome = true ∧
    live.cal.commit = none ∧ live.cal.shift = none ∧
    ({ live.cal with secS := 0x59, minS := 0x59, hourS := 0x23, dayS := 0x31, monthS := 0x12, yearS := 0x99, centS := 3 } : Cal).stagedOk =
      true ∧
    ({ live.cal with dayS := 0x32 } : Cal).stagedOk = false ∧ 2 < (3 : Byte).toNat ∧ (0x10 : Byte) &&& 0xF0 ≠ 0 ∧
    (0x0F : Byte) &&& 0xF0 = 0 ∧ (asking live 0 (request 0x0402 [0, 0, 0])).flashHeld 0 = false ∧
    (elsewhere (asking live 0 (request 0x0402 [0, 0, 0]))).flashHeld 0 = true ∧
    (trimOf fun t => { t with active := true }).trim.active = true := by
  decide +kernel

/-- A state block of SAVE_SEQ 5 that the gauge of `live` accepts. -/
def savedBlock : List Byte := (gaugeOf fun g => { g with saveSeq := 5, stateValid := true }).gaugeBlock

theorem meets_GaugeBlocksAreWrittenAndSaved :
    gaugeCfgBad gaugeCfgReset = none ∧ gaugeCfgBad (gaugeCfgReset.set 0 0xFF) ≠ none ∧ asleep.isOn .gauge = false ∧
    live.isOn .gauge = true ∧ (gCells gaugeCfgReset == gCells gaugeCfgReset) = true ∧
    gShunt gaugeCfgReset ≠ gShunt (gaugeCfgReset.set 2 0x11) ∧ profileBad (2 :: profile40) = some 0 ∧
    (gaugeOf fun g => { g with stateValid := true }).gauge.stateValid = true ∧ live.gauge.stateValid = false ∧
    (leAt savedBlock 60 4 = (crc32 (slice savedBlock 0 60)).toNat ∧ leAt savedBlock 0 2 = 1 ∧
      (∀ k < 24, savedBlock.getD (36 + k) 0 = 0) ∧ live.gauge.saveSeq.toNat < leAt savedBlock 4 4 ∧
      leAt savedBlock 22 2 = cfgCrc live.gauge.cfg ∧ (savedBlock.getD 2 0).toNat = (if gProf live.gauge.cfg then 1 else 0) ∧
      (savedBlock.getD 3 0).toNat = gCells live.gauge.cfg ∧ savedBlock.length = 64) ∧
    leAt savedBlock 4 4 ≤ (5 : Word).toNat ∧ leAt savedBlock 22 2 ≠ cfgCrc (gaugeCfgReset.set 2 0x11) ∧
    leAt (savedBlock.set 63 0) 60 4 ≠ (crc32 (slice (savedBlock.set 63 0) 0 60)).toNat := by decide +kernel

/-- A profile that passes its check, with its CRC-32. -/
def goodProfile : List Byte := profile40.take 136 ++ leBytes 4 3083967111

theorem good_profile_first_half : (profile40.take 68).foldl crc32Byte 0xFFFFFFFF = 4258847651 := by decide +kernel

theorem good_profile_second_half : (slice profile40 68 68).foldl crc32Byte 4258847651 = 1211000184 := by decide +kernel

theorem good_profile_crc : crc32 (slice goodProfile 0 136) = 3083967111 := by
  rw [show slice goodProfile 0 136 = profile40.take 68 ++ slice profile40 68 68 by decide +kernel]
  unfold crc32
  rw [List.foldl_append, good_profile_first_half, good_profile_second_half]
  decide

theorem meets_GaugeProfile : profileBad goodProfile = none ∧ goodProfile.length = 140 := by
  refine ⟨?_, by decide +kernel⟩
  unfold profileBad
  rw [good_profile_crc]
  decide +kernel

/-- A flow block that passes its check. -/
def goodFlow : List Byte := (flowReset.set 4 100).set 8 100

/-- A coefficient block that passes its check: density 1000, heat capacity 4096, no enthalpy term, −0 to 100 °C. -/
def goodFluid : List Byte := leBytes 4 0x447A0000 ++ List.replicate 12 0 ++ leBytes 4 0x4582D000 ++ List.replicate 28 0 ++ [0, 0, 16, 39]

/-- `asking`, with B0's rights in its control block too. -/
def writing (cmd : Half) (p : List Byte) : State := (asking live 0 (request cmd p)).onBerth 0 fun k => { k with rights := 0x3FFF }

theorem meets_PathBlocksAreWritten :
    1 < (2 : Byte).toNat ∧ (1 : Byte).toNat = pathNo .b ∧ acqBad acqReset = none ∧ acqBad (acqReset.set 31 1) = some 31 ∧
    flowBad goodFlow = none ∧ flowBad flowReset ≠ none ∧ cardBad cardReset = none ∧ cardBad (cardReset.set 0 17) = some 0 ∧
    (let s := writing 0x0600 (0 :: acqReset)
     let k := Sys2Proof.Claims.withAcqBlock acqReset s.log.a
     (s.overQuotaWith 0 .a k || s.overMem 0 .a k) = false ∧ s.calBusy 0 .a = false ∧ s.flashHeld 0 = false ∧
       (elsewhere s).flashHeld 0 = true) ∧
    (let s := (writing 0x0600 (0 :: acqReset)).onFw fun w => { w with charter := defaultCharter }
     s.overQuotaWith 0 .a { s.log.a with acq := acqReset, acqOk := true } || s.overMem 0 .a { s.log.a with acqOk := true, flowOk := true }) =
      true ∧ (calibrating .learn [] 0).calBusy 0 .a = true ∧
    chapter8.fw.charter.entries[0].sealed = true ∧ (acqReset.set 26 7).set 26 0 = acqReset.set 26 0 := by decide +kernel

theorem meets_FluidWrite : fluidBad goodFluid = none ∧ (0 :: goodFluid).length = 53 := by decide +kernel

theorem meets_RtdBlockAndPortsAreWritten :
    rtdBad (rtdReset.set 0 1) = none ∧ rtdBad (rtdReset.set 0 0x10) ≠ none ∧
    (rtdNeeds live.log.rtdBlk (rtdReset.set 0 1)).any (fun n => !live.fw.charter.entries[0].rights.getLsbD (2 + n.val)) = true ∧
    (let s := writing 0x0604 (rtdReset.set 0 1)
     s.overQuota 0 s.log.a s.log.b (rtdReset.set 0 1) = false ∧ s.flashHeld 0 = false ∧ (elsewhere s).flashHeld 0 = true ∧
       s.calBusyInputs 0 (rtdNeeds s.log.rtdBlk (rtdReset.set 0 1)) = false) ∧
    (let s := (calibrating .leeway [] 0).onPath .a fun k => { k with flow := k.flow.set 18 0 }
     s.calInputs ≠ [] ∧ s.calBusyInputs 0 s.calInputs = true) ∧
    (let s := (writing 0x0604 (rtdReset.set 0 1)).onFw fun w =>
       { w with charter := { w.charter with entries := w.charter.entries.set 0 { richEntry with logQuota := 0 } } }
     s.overQuota 0 s.log.a s.log.b (rtdReset.set 0 1) = true) ∧
    ((0 : Nat) = 0 ∧ live.log.b.portA.val = 2 ∧ live.log.b.portB.val = 3) ∧
    ¬ ((1 : Nat) = 0 ∨ (live.log.b.portA.val = 1 ∧ live.log.b.portB.val = 0) ∨ (live.log.b.portA.val = 0 ∧ live.log.b.portB.val = 1)) ∧
    (live.log.a.portA.val ≠ 1 ∨ live.log.a.portB.val ≠ 0) ∧ 3 < (4 : Byte).toNat := by decide +kernel

theorem meets_CalibrationsStartAndTotalsReset :
    (live.log.path .a).acqOk = false ∧ ((metering id).log.path .a).acqOk = true ∧ (metering id).log.cal = none ∧
    (calibrating .learn [] 0).log.cal.map (·.berth) = some 0 ∧ (metering id).isOn .log = true ∧ (metering id).log.cur = none ∧
    (domOf .log .off).isOn .log = false ∧ (shooting {}).log.cur.isSome = true ∧ (live.log.path .a).template = none ∧
    ((metering fun k => { k with template := some ⟨[], 0, [], 0⟩ }).log.path .a).template.isSome = true ∧
    ((metering id).log.path .a).flowOk = true ∧ ((calibrating .learn [] 0).log.cal.map fun c => c.path == .a).getD false = true ∧
    (live.log.path .a).lastCal = none ∧
    ((metering fun k => { k with lastCal := some ⟨.learn, true, 3, 4⟩ }).log.path .a).lastCal = some ⟨.learn, true, 3, 4⟩ ∧
    (asking (metering id) 0 (request 0x060F [0])).flashHeld 0 = false ∧
    (elsewhere (asking (metering id) 0 (request 0x060F [0]))).flashHeld 0 = true ∧ (metering id).pathHolder .a = some 0 := by
  decide +kernel

/-- Path A metering 12,345 µL/s of the coefficient fluid for one second, and the command taken at its end. -/
def flowingOne : State :=
  (metering fun k => { k with
    flow := goodFlow.set 18 2, fluid := goodFluid, tPrev := some ⟨0, 40000⟩, spans := [⟨0, 40000, some 12345⟩] }).onTrim fun t =>
      { t with raw := 40000 }

theorem meets_WireToWaterAndFluidProperties :
    60 < (61 : Byte).toNat ∧ leAt [0, 1, 0, 0, 0, 0, 0, 0, 5, 0, 0, 0] 4 4 = 0 ∧ live.log.a.configured = false ∧
    (metering id).log.a.meanFlow (metering id).trim.raw 32768 = none ∧ flowingOne.log.a.configured = true ∧
    flowingOne.log.a.meanFlow flowingOne.trim.raw 32768 = some 12345 ∧
    (fluidAt flowingOne.log.a.flow flowingOne.log.a.fluid (flowingOne.meterTemp .a flowingOne.log.a.flow).1).isSome = true ∧
    (request 0x0700 []).flags.getLsbD 2 = false ∧ (6 : Byte).getLsbD 2 = true ∧
    fluidAt flowingOne.log.a.flow flowingOne.log.a.fluid (mkRat 10001 100) = none ∧
    (fluidAt flowingOne.log.a.flow flowingOne.log.a.fluid (mkRat 10000 100)).isSome = true ∧
    ((fluidAt flowReset [] 20).map fun f => f.mu.isSome) = some true ∧
    ((fluidAt flowingOne.log.a.flow ((goodFluid.set 34 0x80).set 35 0x7F) 20).map fun f => f.mu) = some none := by decide +kernel

theorem meets_FirmwareIsUpdated :
    leAt [0, 0, 0, 0] 0 4 = 0 ∧ 368640 < leAt [1, 0xA0, 5, 0] 0 4 ∧ (0 < leAt [0, 0xA0, 5, 0] 0 4 ∧ leAt [0, 0xA0, 5, 0] 0 4 ≤ 368640) ∧
    (let s := asking live 0 (request 0x0800 [0, 0xA0, 5, 0]); s.flashHeld 0 = false ∧ (elsewhere s).flashHeld 0 = true) ∧
    live.fw.update = none ∧
    (let u : Update := { len := 6, image := [1] }
     leAt [1, 0, 0, 0, 7, 7, 7, 7, 7] 0 4 = u.image.length ∧ u.image.length + (9 - 4) ≤ u.len ∧ u.len < u.image.length + (10 - 4) ∧
       leAt [2, 0, 0, 0, 7] 0 4 ≠ u.image.length ∧ u.image.length < u.len ∧ ({ u with len := 1 } : Update).len ≤ u.image.length) ∧
    ((some { len := 1, image := [1], verified := true } : Option Update).map (·.verified)).getD false = true := by decide +kernel

/-- The signature and the header of an image are free functions (log 14): wherever they accept some image as one of its own
length, the hypotheses of a successful FW_VERIFY are met. -/
theorem meets_FwVerify (im : List Byte) (hl : Config.imageLength im = im.length) (hs : Config.imageSigned im = true)
    (hv : live.flash.topSecVer.toNat ≤ (Config.imageSecVer im).toNat) :
    let u : Update := { len := im.length, image := im }
    let s := live.onFw fun f => { f with update := some u }
    s.fw.update = some u ∧ u.len ≤ u.image.length ∧
    (Config.imageLength u.image == u.len && Config.imageSigned u.image &&
      decide (s.flash.topSecVer.toNat ≤ (Config.imageSecVer u.image).toNat)) = true := by
  refine ⟨rfl, Nat.le_refl _, ?_⟩
  show (Config.imageLength im == im.length && Config.imageSigned im &&
    decide (live.flash.topSecVer.toNat ≤ (Config.imageSecVer im).toNat)) = true
  rw [hl, hs, decide_eq_true hv]; simp

theorem meets_ProbeTransfersAreCommanded :
    (5 < min 5 (0x10 / 4 % 8) + 0x12 % 4) ∧ ¬ (5 < min 5 (0x0D / 4 % 8) + 0x0D % 4 ∨ 32 ≤ 0x0D) ∧ 16 ≤ (16 : Byte).toNat ∧
    (15 : Byte).toNat < 16 ∧ (1 : Byte) ≠ 0 ∧ live.isOn .hif = true ∧ 3 < (4 : Byte).toNat ∧ 238 < (239 : Byte).toNat ∧
    (!live.tw.pbWidth.getLsbD 3 && decide (0x100 ≤ leAt [3, 1, 0, 1] 2 2)) = true ∧
    (!live.tw.pbWidth.getLsbD 3 && decide (0x100 ≤ leAt [3, 238, 0xFF, 0] 2 2)) = false ∧ (probing true true).tw.probe.isSome = true ∧
    live.tw.probe = none ∧ 8 * 2 ^ (live.tw.pbPage.toNat / 4 ^ 0 % 4) < 4 % 8 + 5 ∧ 4 % 8 + 4 ≤ 8 * 2 ^ (live.tw.pbPage.toNat / 4 ^ 0 % 4) := by
  decide +kernel

end Sys2Proof.Tests
end

section
/-! PROOFS. The core-side quiet window (R78, R81 to R83, R108, R240): how an uplink frame in flight is taken, and what the
closing of the window and a droop inside it do. -/

namespace Sys2Proof.Machine

variable (s : State)

@[simp] theorem State.isOn_onLine (f : LineDie → LineDie) (d : Domain) : (s.onLine f).isOn d = s.isOn d := rfl

/-- An endpoint that trains or is UP has no training to begin (R72). -/
theorem State.uplinkSeen_same (hst : s.link.state = .training ∨ s.link.state = .up) : s.uplinkSeen = s := by
  rcases hst with h | h <;> simp [State.uplinkSeen, h]

/-- While the endpoint trains or is UP, an uplink frame in flight is taken as it arrives (R69, R72). -/
theorem State.upFrame_taken (fr : UpFrame) (f : State → State) (hon : s.isOn .pwr = true) (hx : s.dom.xo16Fail = false)
    (hst : s.link.state = .training ∨ s.link.state = .up) (hfl : s.line.upFlight = some fr) :
    s.upFrame fr f = f (s.onLine fun l => LineDie.send { l with upFlight := none }) := by
  unfold State.upFrame State.framesRun
  simp [hfl, hon, hx, State.uplinkSeen_same (s.onLine _) hst]

/-- The closing of an open window, judged by the PLLA edge (R9, R78). -/
theorem execCoreQuietClose_open {w : CoreWindow} (edge : Nat) (hw : s.link.window = some w) :
    execCoreQuietClose edge s = .next (if w.closeEdge ≤ edge then s.closeWindow else s) := by
  simp only [execCoreQuietClose, hw]

/-- A sample of VAUX while a window is known: its condition, and its one effect (R81). -/
theorem execQwDroopOverride_open {w : CoreWindow} (edge vaux : Nat) (hw : s.link.window = some w) :
    execQwDroopOverride edge vaux s =
      if s.isOn .pwr && vaux < s.link.droop && w.openEdge ≤ edge && edge < w.closeEdge && s.link.overrideAt.isNone then
        .next ((s.onLink fun l => { l with overrideAt := some edge, overrideDue := l.downlinkRuns }).raise 2)
      else .next s := by
  simp only [execQwDroopOverride, hw]

/-- The edges that a window held are made: no probe transfer is held any more (R240). -/
theorem Tw.release_probe (t : Tw) {o : ProbeOp} (h : t.release.probe = some o) : o.held = false := by
  have key : t.release.probe = t.probe.map fun o => { o with held := false } := by
    simp only [Tw.release]
    split <;> rfl
  rw [key] at h
  obtain ⟨o', _, rfl⟩ := Option.map_eq_some_iff.1 h
  rfl

/-- A held START of the pending smart-battery read is made (R240). -/
theorem Tw.release_started (t : Tw) (hs : t.startHeld = true) (hp : t.sbsPending = true) :
    t.release.sbsActive = true ∧ t.release.sbsPending = false := by
  simp [Tw.release, Tw.sbsStart, hs, hp]

/-- Nothing was held, and nothing changes. -/
theorem Tw.release_same (t : Tw) (hs : t.startHeld = false) (hp : t.probe = none) : t.release = t := by
  cases t
  simp_all [Tw.release]

end Sys2Proof.Machine

namespace Sys2Proof.Proofs

open Sys2Proof Sys2Proof.Machine

theorem quietAnswersAreTaken : Claims.QuietAnswersAreTaken := by
  intro s tag cause stamp edge hon hx hst taken stopped
  refine ⟨fun hfl => ⟨fun q hq => ?_, fun hq => ?_⟩, fun hfl => ?_, fun hfl => ?_⟩
  · simp only [exec, execQaOpenReceived, s.upFrame_taken _ _ hon hx hst hfl, State.onLine_link, State.onLink, hq]
    rfl
  · have hnone : s.link.quietQ.find? (fun q => q.tag == tag) = none := by simpa using hq
    simp only [exec, execQaOpenReceived, s.upFrame_taken _ _ hon hx hst hfl, State.onLine_link, State.onLink, hnone]
    rfl
  · simp only [exec, execQaEndReceived, s.upFrame_taken _ _ hon hx hst hfl]
    rfl
  · simp only [exec, execQaRefusedReceived, s.upFrame_taken _ _ hon hx hst hfl]
    rfl

theorem coreWindowClosesAndIsOverridden : Claims.CoreWindowClosesAndIsOverridden := by
  intro s edge vaux
  refine ⟨fun w hw => ?_, fun hw => by simp [exec, execCoreQuietClose, execQwDroopOverride, hw]⟩
  simp only [exec, execCoreQuietClose_open s edge hw, execQwDroopOverride_open s edge vaux hw]
  refine ⟨fun he => by rw [if_neg (Nat.not_le.2 he)], fun he => ?_, fun hon hov ho hc hv => ?_, fun hno => ?_⟩
  · refine ⟨s.closeWindow, by rw [if_pos he], rfl, rfl, rfl, fun o => s.tw.release_probe, s.tw.release_started, s.tw.release_same⟩
  · have hv : vaux < s.link.droop := hv
    rw [if_pos (by simp [hon, hv, ho, hc, hov])]
    rfl
  · refine if_neg fun h => ?_
    simp only [Bool.and_eq_true, decide_eq_true_eq, Option.isNone_iff_eq_none] at h
    obtain ⟨⟨⟨⟨hon, hv⟩, ho⟩, hc⟩, hov⟩ := h
    rcases hno with h | h | h | h | h
    · simp [h] at hon
    · simp [hov] at h
    · omega
    · omega
    · exact absurd hv (Nat.not_lt.2 h)

/-- Settles O19: the answers of the line die and the window's own end, row by row. -/
theorem coreQuietWindow : Obligations.CoreQuietWindow :=
  ⟨quietAnswersAreTaken, coreWindowClosesAndIsOverridden⟩

end Sys2Proof.Proofs
end

section
/-! PROOFS. The checks of R198 on a host's write, and what a write of one byte then does (R7, R191, R198): each said once, for
the rows that name a register and for REGISTER_WRITE. -/

namespace Sys2Proof.Machine

variable (s : State)

/-! ## The checks of a written byte -/

/-- Below the windows no berth owns an address (R245). -/
theorem owner_below (a : Nat) (ha : a < 0x1000) : owner a = none := by
  simp only [owner]
  rw [if_neg (by omega), if_neg (by omega)]

/-- An address below the event page, of a page that is ON, is served or refused by the grants alone (R97, R98, R155, R198). -/
theorem State.judge_write_below (p : Port) (a : Nat) (ha : a < 0x0480) (hon : s.pageOn a = true) :
    s.judge p a true = if s.writeRefused p a then .refused else .served := by
  have hev : s.eventRefused p a = false := by simp [State.eventRefused, Nat.not_le.2 ha]
  have hh : ¬((0x0600 ≤ a ∧ a < 0x1000) ∨ 0x6000 ≤ a) := by omega
  simp [State.judge, owner_below a (by omega), hon, hev, hh]

/-- The pages of the Binnacle and of the power domains are always served (R197). -/
theorem State.pageOn_low (a : Nat) (ha : a < 0x0300) : s.pageOn a = true := if_pos ha

/-! ## Transfers of a byte, and refused transfers -/

/-- A refused byte changes nothing (R198). -/
theorem State.xferWrite_refused (x : Xfer) (a : Nat) (v : Byte) (h : s.judge x.port a true = .refused) :
    s.xferWrite x a v = (x, s) := by simp only [State.xferWrite, h, State.refuse]

/-- A write through a port that does not work does nothing (R22, R27). -/
theorem State.portWrite_down (p : Port) (a : Nat) (bs : List Byte) (h : s.portUp p = false) : s.portWrite p a bs = s := by
  simp only [State.portWrite, h, State.when_false]

/-- A write of one byte through a port that works is that byte's own write. -/
theorem State.portWrite_one (p : Port) (a : Nat) (v : Byte) (h : s.portUp p = true) :
    s.portWrite p a [v] = (s.xferWrite { port := p } a v).2 := by
  simp only [State.portWrite, h, State.when_true, State.hostWrite, State.xferWrites]

/-- A refused byte, through any port. -/
theorem State.portWrite_refused (p : Port) (a : Nat) (v : Byte) (h : s.judge p a true = .refused) : s.portWrite p a [v] = s := by
  cases hp : s.portUp p with
  | false => exact s.portWrite_down p a _ hp
  | true => rw [s.portWrite_one p a v hp, s.xferWrite_refused _ _ _ h]

/-- Two refused bytes, through any port. -/
theorem State.portWrite_refused_two (p : Port) (a : Nat) (v w : Byte) (ha : a + 1 < 0x10000) (h : s.judge p a true = .refused)
    (h' : s.judge p (a + 1) true = .refused) : s.portWrite p a [v, w] = s := by
  cases hp : s.portUp p with
  | false => exact s.portWrite_down p a _ hp
  | true =>
    simp only [State.portWrite, hp, State.when_true, State.hostWrite, State.xferWrites,
      s.xferWrite_refused { port := p } a v h, Nat.mod_eq_of_lt ha, s.xferWrite_refused { port := p } (a + 1) w h']

/-- A served byte is written (R191). -/
theorem State.portWrite_served (p : Port) (a : Nat) (v : Byte) (hp : s.portUp p = true) (h : s.judge p a true = .served) :
    s.portWrite p a [v] = s.writeByte p [] a v := by
  simp only [s.portWrite_one p a v hp, State.xferWrite, h]

/-- A served byte of the Binnacle page that belongs to no wide field and not to the scratch. -/
theorem State.writeByte_bin (p : Port) (w : List (Nat × Byte)) (a : Nat) (v : Byte) (hw : blockOf wideFields a = none)
    (hlo : 0x0100 ≤ a) (hhi : a < 0x01C0) : s.writeByte p w a v = s.writeBin a v := by
  have hs : isScratch a = false := by simp [isScratch]; omega
  simp only [State.writeByte, hw, hs]
  rw [if_neg (by simp), if_neg (by omega), if_pos (by omega)]

/-! ## Writes that need the RTC grant (R155) -/

/-- A calendar, trim or stamp register is refused without the RTC grant. -/
theorem State.judge_no_rtc (p : Port) (a : Nat) (h : s.bin.rtcGrant.getLsbD (portCode p) = false)
    (ha : (0x0110 ≤ a ∧ a ≤ 0x013F) ∨ a = 0x0148) : s.judge p a true = .refused := by
  rw [s.judge_write_below p a (by omega) (s.pageOn_low a (by omega))]
  simp [State.writeRefused, ha, granted, h]

/-- It is served with the grant. -/
theorem State.judge_rtc (p : Port) (a : Nat) (h : s.bin.rtcGrant.getLsbD (portCode p) = true)
    (ha : (0x0110 ≤ a ∧ a ≤ 0x013F) ∨ a = 0x0148) : s.judge p a true = .served := by
  rw [s.judge_write_below p a (by omega) (s.pageOn_low a (by omega))]
  simp [State.writeRefused, ha, granted, h]

/-- A write of CAL_CMD through a port of the grant is the command (R126). -/
theorem State.portWrite_calCmd (p : Port) (v : Byte) (hp : s.portUp p = true)
    (h : s.bin.rtcGrant.getLsbD (portCode p) = true) : s.portWrite p 0x011A [v] = s.calCmd v := by
  rw [s.portWrite_served p _ v hp (s.judge_rtc p _ h (by decide)), s.writeByte_bin p [] _ v (by decide) (by decide) (by decide)]
  simp only [State.writeBin]
  rfl

/-- Two bytes, least significant first, are the value (R4, R5). -/
theorem leBytes_two (v : Half) : leBytes 2 v.toNat = [BitVec.ofNat 8 v.toNat, BitVec.ofNat 8 (v.toNat / 256)] := by
  simp [leBytes, List.range_succ]

/-- A write of SHIFT through a port of the grant takes effect with its second byte (R130, R191). -/
theorem State.portWrite_shift (p : Port) (v : Half) (hp : s.portUp p = true)
    (h : s.bin.rtcGrant.getLsbD (portCode p) = true) : s.portWrite p 0x011C (leBytes 2 v.toNat) = s.shiftCmd v := by
  have hv : (BitVec.ofNat 16 ((BitVec.ofNat 8 v.toNat).toNat + 256 * (BitVec.ofNat 8 (v.toNat / 256)).toNat)) = v := by
    apply BitVec.eq_of_toNat_eq
    have := v.isLt
    simp only [BitVec.toNat_ofNat]
    omega
  have h1 : s.xferWrite { port := p } 0x011C (BitVec.ofNat 8 v.toNat) =
      ({ port := p, wrote := [(0x011C, BitVec.ofNat 8 v.toNat)] }, s) := by
    simp only [State.xferWrite, s.judge_rtc p 0x011C h (by decide)]
    rfl
  simp only [leBytes_two, State.portWrite, hp, State.when_true, State.hostWrite, State.xferWrites, h1]
  simp only [State.xferWrite, s.judge_rtc p ((0x011C + 1) % 0x10000) h (by decide)]
  show s.shiftCmd (BitVec.ofNat 16 _) = _
  exact congrArg s.shiftCmd hv

/-! ## What an event and an answer change -/

/-- Two states with the same parts are the same. -/
theorem State.ext_parts {s t : State} (line : s.line = t.line) (link : s.link = t.link) (power : s.power = t.power)
    (cal : s.cal = t.cal) (trim : s.trim = t.trim) (bin : s.bin = t.bin) (dom : s.dom = t.dom) (spi : s.spi = t.spi)
    (tw : s.tw = t.tw) (ev : s.ev = t.ev) (berths : s.berths = t.berths) (flash : s.flash = t.flash) (log : s.log = t.log)
    (gauge : s.gauge = t.gauge) (fw : s.fw = t.fw) (free : s.free = t.free) (pending : s.pending = t.pending) : s = t := by
  cases s; cases t; simp_all

/-- `t` differs from `s` by what events and answers change: the berths, the events, of which none is taken back, and the
domains that wake. -/
structure Answered (s t : State) : Prop where
  frame : t = { s with berths := t.berths, ev := t.ev, dom := t.dom }
  raised : ∀ n, s.ev.raised.getLsbD n = true → t.ev.raised.getLsbD n = true

namespace Answered

variable {s t u : State}

theorem refl (s : State) : Answered s s := ⟨rfl, fun _ => id⟩

theorem trans (h : Answered s t) (k : Answered t u) : Answered s u := by
  refine ⟨?_, fun n hn => k.raised n (h.raised n hn)⟩
  obtain ⟨k, -⟩ := k
  obtain ⟨h, -⟩ := h
  rw [k, h]

theorem cal (h : Answered s t) : t.cal = s.cal := (congrArg State.cal h.frame :)
theorem trim (h : Answered s t) : t.trim = s.trim := (congrArg State.trim h.frame :)
theorem bin (h : Answered s t) : t.bin = s.bin := (congrArg State.bin h.frame :)

/-- An event is raised, and may wake (R302, R307). -/
theorem raise (s : State) (e : Nat) : Answered s (s.raise e) := by
  refine ⟨State.ext_parts ?_ ?_ ?_ ?_ ?_ ?_ rfl ?_ ?_ rfl rfl ?_ ?_ ?_ ?_ ?_ ?_, fun n hn => ?_⟩
  all_goals simp
  exact Or.inl hn

theorem onBerth (s : State) (b : Fin 4) (f : Berth → Berth) : Answered s (s.onBerth b f) := ⟨rfl, fun _ => id⟩

/-- A frame is posted (R279). -/
theorem postFrame (s : State) (b : Fin 4) (fr : List Byte) : Answered s (s.postFrame b fr) :=
  trans (t := (s.onBerths fun x => { x with mem := memWriteAll x.mem (windowBase b.val + 0x100) fr }).onBerth b
    fun k => { k with respRdy := true }) ⟨rfl, fun _ => id⟩ (raise _ _)

/-- A request is answered (R273, R279). -/
theorem answer (s : State) (b : Fin 4) (st : Status) (r : List Byte) : Answered s (s.answer b st r) := by
  unfold State.answer
  split
  · exact refl s
  · dsimp only
    split
    · exact onBerth s b _
    · exact (onBerth s b _).trans (postFrame _ _ _)

/-- The answers that waited for the calendar are posted (R445). -/
theorem answerTime (s : State) : Answered s s.answerTime := by
  unfold State.answerTime
  generalize List.finRange 4 = bs
  induction bs generalizing s with
  | nil => exact refl s
  | cons b bs ih =>
    refine trans ?_ (ih _)
    dsimp only
    split
    · exact answer s b _ _
    · exact refl s

end Answered

/-- A shift is taken while neither a shift nor a commit is pending (R130). -/
theorem State.shiftCmd_taken (v : Half) (hs : s.cal.shift = none) (hc : s.cal.commit = none) :
    s.shiftCmd v = s.onCal fun c => { c with shift := some v } := if_neg (by simp [hs, hc])

/-- Otherwise it is dropped with SHIFT_CXL (R131). -/
theorem State.shiftCmd_dropped (v : Half) (h : s.cal.shift.isSome = true ∨ s.cal.commit.isSome = true) :
    s.shiftCmd v = (s.onCal fun c => { c with shiftCxl := true }).binSet 0x011B 0x10 := if_pos (by simpa using h)

/-- CANCEL discards a pending commit, and the answers that it ends are posted (R126, R445). -/
theorem State.calCmd_cancel : s.calCmd 0x03 = (s.onCal fun c => { c with commit := none }).answerTime := rfl

/-- With no answer due, nothing changes (R445). -/
theorem State.answerTime_same
    (h : ∀ b, ((s.berth b).waitsFor 0x0400 && s.cal.commit.isNone) = false ∧ ((s.berth b).waitsFor 0x0401 && s.cal.shift.isNone) = false) :
    s.answerTime = s :=
  List.foldl_fixed' (fun b => by simp only [(h b).1, (h b).2, Bool.or_self]; rfl) _

end Sys2Proof.Machine

namespace Sys2Proof.Proofs

open Sys2Proof Sys2Proof.Machine

theorem ungrantedWritesChangeNothing : Claims.UngrantedWritesChangeNothing := by
  intro s p v b
  refine ⟨fun h c hc => ?_, fun h on => ?_, fun hon h => ?_⟩
  · have one (a : Nat) (v : Byte) (ha : (0x0110 ≤ a ∧ a ≤ 0x013F) ∨ a = 0x0148) : s.portWrite p a [v] = s :=
      s.portWrite_refused p a v (s.judge_no_rtc p a h ha)
    simp only [Claims.rtcRows, List.mem_cons, List.not_mem_nil, or_false] at hc
    rcases hc with rfl | rfl | rfl | rfl | rfl | rfl | rfl | rfl | rfl
    case inr.inr.inr.inl =>
      simp only [exec, execShiftWrite, leBytes_two]
      rw [s.portWrite_refused_two p _ _ _ (by decide) (s.judge_no_rtc p _ h (by decide)) (s.judge_no_rtc p _ h (by decide))]
    all_goals exact congrArg Host.Outcome.next (one _ _ (by decide))
  · refine congrArg Host.Outcome.next (s.portWrite_refused p _ _ ?_)
    rw [s.judge_write_below p _ (by decide) (s.pageOn_low _ (by decide))]
    simp [State.writeRefused, granted, h]
  · refine congrArg Host.Outcome.next (s.portWrite_refused p _ _ ?_)
    rw [s.judge_write_below p _ (by decide) (by simpa [State.pageOn] using hon)]
    simp [State.writeRefused, granted, h]

theorem calendarCommandsFromTheHost : Claims.CalendarCommandsFromTheHost := by
  intro s p v hp h noted
  simp only [exec, execCalCmdSetr, execCalCmdSett, execCalCmdCancel, execShiftWrite, s.portWrite_calCmd p _ hp h,
    s.portWrite_shift p v hp h]
  refine ⟨fun ok => ?_, fun bad c hc => ?_, ?_, fun hs hc => ?_, fun hsc => ?_⟩
  · simp only [State.calCmd, State.commitCmd, ok]
    exact ⟨rfl, rfl⟩
  · have key (m : CommitMode) : s.commitCmd m =
        (({ s with cal := { s.cal with calRej := true }, bin := noted 0x04 } : State).raise 16) := by
      simp only [State.commitCmd, bad]
      rfl
    simp only [List.mem_cons, List.not_mem_nil, or_false] at hc
    rcases hc with rfl | rfl
    · exact congrArg Host.Outcome.next ((s.portWrite_calCmd p _ hp h).trans (key .setr))
    · exact congrArg Host.Outcome.next ((s.portWrite_calCmd p _ hp h).trans (key .sett))
  · rw [s.calCmd_cancel]
    have a := Answered.answerTime (s.onCal fun c => { c with commit := none })
    refine ⟨_, rfl, a.frame.trans ?_, a.cal, fun hw hsh => ?_⟩
    · rw [a.cal]
      rfl
    · rw [State.answerTime_same]
      · exact ⟨rfl, rfl⟩
      · intro b
        have hb : (s.berth b).waitsFor 0x0400 = false := Bool.eq_false_iff.2 (hw b)
        have hn : s.cal.shift.isNone = false := by simpa [Option.isSome_iff_ne_none] using hsh
        exact ⟨by rw [show ((s.onCal _).berth b) = s.berth b from rfl, hb, Bool.false_and], by rw [State.onCal_cal, hn, Bool.and_false]⟩
  · rw [s.shiftCmd_taken v hs hc]
    rfl
  · rw [s.shiftCmd_dropped v hsc]
    rfl

/-- Settles O23: each address of a row is refused without its grant, and with it the row is its command. -/
theorem grantsAndTheCalendarFromTheHost : Obligations.GrantsAndTheCalendarFromTheHost :=
  ⟨ungrantedWritesChangeNothing, calendarCommandsFromTheHost⟩

end Sys2Proof.Proofs
end

section
/-! PROOFS. The update of a CK32 edge (R116 to R120, R126 to R133, R147, R150): which update it is, what it makes of the
calendar, and what an edge changes beside it. -/

namespace Sys2Proof.Machine

variable (s : State)

/-! ## Which update the next edge makes (R120, R132) -/

theorem State.edgeKind_load_iff : (s.edgeKind == .load) = true ↔ s.cal.commit = some .setr := by
  refine ⟨fun h => s.edgeKind_load (by simpa using h), fun h => by simp [State.edgeKind, h]⟩

theorem State.edgeKind_start (hc : s.cal.commit ≠ some .setr) (hs : s.cal.started = false) : s.edgeKind = .start := by
  simp [State.edgeKind, hc, hs]

theorem State.edgeKind_tick (hc : s.cal.commit ≠ some .setr) (hs : s.cal.started = true) (hd : s.corrDue = false)
    (hu : s.cal.subsec = 32767) : s.edgeKind = .tick := by simp [State.edgeKind, hc, hs, hd, hu]

theorem State.edgeKind_count (hc : s.cal.commit ≠ some .setr) (hs : s.cal.started = true) (hd : s.corrDue = false)
    (hu : s.cal.subsec ≠ 32767) : s.edgeKind = .count := by
  have hu : (s.cal.subsec == 32767) = false := by simpa using hu
  simp only [State.edgeKind, hs, hd, hu]
  simp [hc]

/-- Edge 0 counts nothing; without a correction, every other edge counts one (R120, R132). -/
theorem State.edgeCounts_start (hs : s.cal.started = false) : s.edgeCounts = 0 := by simp [State.edgeCounts, hs]
theorem State.edgeCounts_one (hs : s.cal.started = true) (hd : s.corrDue = false) : s.edgeCounts = 1 := by
  simp [State.edgeCounts, hs, hd]

/-! ## Counts and ticks (R118, R126, R129, R130) -/

/-- Counts that end no second advance SUBSEC. -/
theorem Cal.counts_below (c : Cal) (n : Nat) (h : c.subsec.toNat + n < 32768) :
    c.counts n = ({ c with subsec := BitVec.ofNat 15 (c.subsec.toNat + n) }, false) := by
  simp only [Cal.counts]
  rw [if_neg (by omega)]

/-- The count at SUBSEC 32,767 ends the second. -/
theorem Cal.counts_tick (c : Cal) (h : c.subsec = 32767) : c.counts 1 = c.tick 0 := by
  simp [Cal.counts, h]

/-- The cycle fits LSEC (R116). -/
theorem cycleSeconds_lt : cycleSeconds < 2 ^ 34 := by decide

/-- The time after a tick, with no shift and with one (R118, R130). -/
theorem shiftedTime_none (l r : Nat) : shiftedTime l r none =
    if cycleSeconds * 32768 ≤ (l + 1) * 32768 + r then ((l + 1) * 32768 + r - cycleSeconds * 32768, true)
    else ((l + 1) * 32768 + r, false) := by unfold shiftedTime; exact rfl

theorem shiftedTime_some (l r : Nat) (v : Half) : shiftedTime l r (some v) =
    if cycleSeconds * 32768 ≤ (l + 1) * 32768 + r + (if v.getLsbD 15 then 32768 else 0) - v.toNat % 32768 then
      ((l + 1) * 32768 + r + (if v.getLsbD 15 then 32768 else 0) - v.toNat % 32768 - cycleSeconds * 32768, true)
    else ((l + 1) * 32768 + r + (if v.getLsbD 15 then 32768 else 0) - v.toNat % 32768, false) := by
  unfold shiftedTime; exact rfl

/-- The ticked time inside the cycle, and at its end (R118). -/
theorem shiftedTime_inside (l : Nat) (h : l + 1 < cycleSeconds) : shiftedTime l 0 none = ((l + 1) * 32768, false) := by
  have : ¬cycleSeconds * 32768 ≤ (l + 1) * 32768 := by generalize cycleSeconds = n at *; omega
  rw [shiftedTime_none, Nat.add_zero, if_neg this]

theorem shiftedTime_end (l : Nat) (h : l + 1 = cycleSeconds) : shiftedTime l 0 none = (0, true) := by
  rw [shiftedTime_none, Nat.add_zero, h, if_pos (Nat.le_refl _), Nat.sub_self]

/-- A shifted time that stays inside the cycle (R130). -/
theorem shiftedTime_shift (l : Nat) (v : Half) (h : l + 3 < cycleSeconds) :
    shiftedTime l 0 (some v) = ((l + 1) * 32768 + (if v.getLsbD 15 then 32768 else 0) - v.toNat % 32768, false) := by
  have hv : (if v.getLsbD 15 then 32768 else 0) ≤ 32768 := by split <;> omega
  have : ¬cycleSeconds * 32768 ≤ (l + 1) * 32768 + (if v.getLsbD 15 then 32768 else 0) - v.toNat % 32768 := by
    generalize cycleSeconds = n at *
    omega
  rw [shiftedTime_some, Nat.add_zero, if_neg this]

/-- LSEC one on, out of the ticked time. -/
theorem lsec_succ (l : BitVec 34) : BitVec.ofNat 34 ((l.toNat + 1) * 32768 / 32768) = l + 1 := by
  rw [Nat.mul_div_cancel _ (by decide)]
  apply BitVec.eq_of_toNat_eq
  rw [BitVec.toNat_ofNat, BitVec.toNat_add]
  rfl

/-- SUBSEC one on, before its last value. -/
theorem subsec_succ (u : BitVec 15) (h : u ≠ 32767) : u.toNat + 1 < 32768 ∧ BitVec.ofNat 15 (u.toNat + 1) = u + 1 := by
  have hlt := u.isLt
  have hne : u.toNat ≠ 32767 := fun e => h (BitVec.eq_of_toNat_eq e)
  refine ⟨by omega, BitVec.eq_of_toNat_eq ?_⟩
  rw [BitVec.toNat_ofNat, BitVec.toNat_add]
  rfl

/-- SUBSEC at a tick is 0. -/
theorem subsec_tick (n : Nat) : BitVec.ofNat 15 (n * 32768 % 32768) = 0 := by
  rw [Nat.mul_mod_left]
  rfl

/-- The time that a tick with a shift would give, as LSEC and SUBSEC (R118, R130). -/
def Cal.ticked (c : Cal) (r : Nat) (v : Option Half) : BitVec 34 × BitVec 15 :=
  (BitVec.ofNat 34 ((shiftedTime c.lsec.toNat r v).1 / 32768), BitVec.ofNat 15 ((shiftedTime c.lsec.toNat r v).1 % 32768))

/-- Without a shift it is the next second. -/
theorem Cal.ticked_inside (c : Cal) (h : c.lsec.toNat + 1 < cycleSeconds) : c.ticked 0 none = (c.lsec + 1, 0) := by
  rw [Cal.ticked, shiftedTime_inside _ h, lsec_succ, subsec_tick]

/-- A shift inside the cycle moves the next second by its own amount (R130). -/
theorem Cal.ticked_shift (c : Cal) (v : Half) (h : c.lsec.toNat + 3 < cycleSeconds) :
    (c.ticked 0 (some v)).1.toNat * 32768 + (c.ticked 0 (some v)).2.toNat =
      (c.lsec.toNat + 1) * 32768 + (if v.getLsbD 15 then 32768 else 0) - v.toNat % 32768 := by
  have : (if v.getLsbD 15 then 32768 else 0) ≤ 32768 := by split <;> omega
  have hc := cycleSeconds_lt
  rw [Cal.ticked, shiftedTime_shift _ v h, BitVec.toNat_ofNat, BitVec.toNat_ofNat]
  generalize cycleSeconds = n at *
  omega

/-- A pending SETT loads in the tick's place (R126, R129). -/
theorem Cal.tick_sett (c : Cal) (r : Nat) (hc : c.commit = some .sett) :
    c.tick r = (c.load 0b10 (BitVec.ofNat 15 r) (c.ticked r c.shift).1 (c.ticked r c.shift).2, false) := by
  unfold Cal.tick
  exact if_pos hc

/-- A second ends with no shift pending. -/
theorem Cal.tick_none (c : Cal) (r : Nat) (hc : c.commit ≠ some .sett) (hs : c.shift = none) :
    c.tick r = ({ c with lsec := (c.ticked r none).1, subsec := (c.ticked r none).2
                         centWrap := c.centWrap || (shiftedTime c.lsec.toNat r none).2 }, (shiftedTime c.lsec.toNat r none).2) := by
  unfold Cal.tick
  refine (if_neg hc).trans ?_
  rw [hs]
  rfl

/-- A pending shift moves the ticked time (R130). -/
theorem Cal.tick_some (c : Cal) (r : Nat) (v : Half) (hc : c.commit ≠ some .sett) (hs : c.shift = some v) :
    c.tick r = ({ c with
      lsec := (c.ticked r (some v)).1, subsec := (c.ticked r (some v)).2, shift := none
      centWrap := c.centWrap || (shiftedTime c.lsec.toNat r (some v)).2
      setLast := stampOf (c.ticked r (some v)).1 (c.ticked r (some v)).2 0b11
      setPrev := stampOf (c.ticked r none).1 (c.ticked r none).2 0b11 }, (shiftedTime c.lsec.toNat r (some v)).2) := by
  unfold Cal.tick
  refine (if_neg hc).trans ?_
  rw [hs]
  rfl

/-! ## The calendar after an edge -/

/-- The record of the time before the edge (R139). -/
def Cal.passed (c : Cal) (jumped : Bool) (d : Cal) : Cal :=
  { d with started := true, before := c.lsec.toNat * 32768 + c.subsec.toNat, jumped, tickDone := false }

/-- Counts that end no second. -/
theorem Cal.atEdge_below (c : Cal) (n : Nat) (h : c.subsec.toNat + n < 32768) :
    c.atEdge false n = (c.passed false { c with subsec := BitVec.ofNat 15 (c.subsec.toNat + n) }, false) := by
  have : ({ c with commit := if false then none else c.commit } : Cal) = c := rfl
  simp only [Cal.atEdge, this, Cal.counts_below c n h, Nat.not_le.2 h, decide_false, Bool.false_and]
  rfl

/-- A count that ends a second. -/
theorem Cal.atEdge_tick (c : Cal) (h : c.subsec = 32767) :
    c.atEdge false 1 = (c.passed (c.commit == some .sett || c.shift.isSome) (c.tick 0).1, (c.tick 0).2) := by
  have hc : ({ c with commit := if false then none else c.commit } : Cal) = c := rfl
  have hd : decide (32768 ≤ c.subsec.toNat + 1) = true := by rw [h]; rfl
  simp only [Cal.atEdge, hc, Cal.counts_tick c h, hd, Bool.true_and]
  rfl

/-- A SETR load; `n` is what the edge would have counted (R129). -/
theorem Cal.atEdge_load (c : Cal) (n : Nat) : c.atEdge true n = (c.passed true
    (c.load 0b01 0 (({ c with commit := none } : Cal).counts n).1.lsec (({ c with commit := none } : Cal).counts n).1.subsec), false) :=
  rfl

/-! ## What an edge changes -/

/-- The edge ends a second, or loads the time. -/
def State.edgeEnds (s : State) : Bool := s.edgeKind == .load || decide (32768 ≤ s.cal.subsec.toNat + s.edgeCounts)

/-- The W1C bits of the calendar that the edge sets in its new cycle (R8, R118, R131). -/
def State.edgeSets (s : State) : List (Nat × Byte) :=
  (if s.edgeEnds && s.cal.commit.isSome && s.cal.shift.isSome then [(0x011B, 0x10)] else []) ++
    (if s.calNext.2 then [(0x011B, 0x08)] else [])

/-- The calendar, the trim engine and the Binnacle's flags after the edge, whose new cycle has the edge's sets alone. -/
def State.atCk32 (s : State) : State :=
  { s with
    cal := s.calNext.1
    trim := Trim.edge (!s.cal.started) (s.edgeKind == .load) s.corrDue s.cal.onLrc s.trim
    bin := BinIo.sample s.calNext.1.stamp { s.bin with setNow := s.edgeSets, evtNow := 0 } }

/-- An edge but for EV17 and the answers that it ends: the flags, and what the wrap raises. -/
theorem State.ck32_answers : ∃ m : State, s.ck32 = m.when s.edgeEnds State.answerTime ∧
    m = { s.atCk32 with ev := m.ev, dom := m.dom } ∧
    (s.calNext.2 = true → m.ev.raised.getLsbD 17 = true) ∧ (s.calNext.2 = false → m.ev = s.ev ∧ m.dom = s.dom) := by
  rcases hn : s.calNext with ⟨c, w⟩
  have he : s.edgeEnds = (s.edgeKind == .load || decide (32768 ≤ s.cal.subsec.toNat + s.edgeCounts)) := rfl
  refine ⟨_, by simp only [State.ck32, hn, he]; rfl, ?_⟩
  simp only [State.atCk32, State.edgeSets, hn, he]
  generalize (s.edgeKind == .load || decide (32768 ≤ s.cal.subsec.toNat + s.edgeCounts)) = e
  generalize (e && s.cal.commit.isSome && s.cal.shift.isSome) = x
  cases w with
  | false => cases x <;> exact ⟨rfl, fun h => by simp at h, fun _ => ⟨rfl, rfl⟩⟩
  | true =>
    refine ⟨?_, fun _ => ?_, fun h => by simp at h⟩
    · cases x <;> apply State.ext_parts <;> simp [State.binSet, BinIo.mark]
    · cases x <;> simp [State.binSet]

/-- What any edge makes: the parts of `atCk32`, EV17 at a wrap, and the answers that waited for it. -/
theorem State.ck32_parts :
    s.ck32 = { s.atCk32 with berths := s.ck32.berths, ev := s.ck32.ev, dom := s.ck32.dom } ∧
    (s.calNext.2 = true → s.ck32.ev.raised.getLsbD 17 = true) := by
  obtain ⟨m, hm, hp, hr, -⟩ := s.ck32_answers
  have a : Answered m s.ck32 := by
    rw [hm]
    cases s.edgeEnds
    · exact Answered.refl m
    · exact Answered.answerTime m
  refine ⟨a.frame.trans ?_, fun h => a.raised _ (hr h)⟩
  rw [hp]

/-- An edge that neither wraps nor ends a second changes the calendar, the trim engine and the flags alone. -/
theorem State.ck32_counts (hw : s.calNext.2 = false) (he : s.edgeEnds = false) : s.ck32 = s.atCk32 := by
  obtain ⟨m, hm, hp, -, hk⟩ := s.ck32_answers
  obtain ⟨hev, hdom⟩ := hk hw
  rw [hm, he, State.when_false, hp, hev, hdom]
  rfl

/-- The edge of a second's end (R116). -/
theorem State.ck32_tick (hc : s.cal.commit ≠ some .setr) (hs : s.cal.started = true) (hd : s.corrDue = false)
    (hu : s.cal.subsec = 32767) : s.edgeEnds = true ∧ s.calNext =
      (s.cal.passed (s.cal.commit == some .sett || s.cal.shift.isSome) (s.cal.tick 0).1, (s.cal.tick 0).2) := by
  have h1 := s.edgeCounts_one hs hd
  have hk : (s.edgeKind == .load) = false := by simp [s.edgeKind_tick hc hs hd hu]
  refine ⟨?_, ?_⟩
  · simp only [State.edgeEnds, h1, hu]
    simp
  · rw [State.calNext, hk, h1, s.cal.atEdge_tick hu]

/-- An edge that ends no second. -/
theorem State.ck32_below (hc : s.cal.commit ≠ some .setr) (h : s.cal.subsec.toNat + s.edgeCounts < 32768) :
    s.ck32 = { s with
      cal := s.cal.passed false { s.cal with subsec := BitVec.ofNat 15 (s.cal.subsec.toNat + s.edgeCounts) }
      trim := Trim.edge (!s.cal.started) false s.corrDue s.cal.onLrc s.trim
      bin := BinIo.sample (Cal.stamp { s.cal with subsec := BitVec.ofNat 15 (s.cal.subsec.toNat + s.edgeCounts) })
        { s.bin with setNow := [], evtNow := 0 } } := by
  have hk : (s.edgeKind == .load) = false := Bool.eq_false_iff.2 fun e => hc (s.edgeKind_load_iff.1 e)
  have he : s.edgeEnds = false := by simp only [State.edgeEnds, hk, Nat.not_le.2 h, decide_false, Bool.or_self]
  have hn : s.calNext = (s.cal.passed false { s.cal with subsec := BitVec.ofNat 15 (s.cal.subsec.toNat + s.edgeCounts) }, false) := by
    rw [State.calNext, hk, s.cal.atEdge_below _ h]
  have hsets : s.edgeSets = [] := by simp only [State.edgeSets, he, hn, Bool.false_and]; rfl
  rw [s.ck32_counts (by rw [hn]) he]
  simp only [State.atCk32, hsets, hn, hk]
  rfl

/-- The switch-over stamps that an edge writes (R150). -/
theorem BinIo.sampleFso_eq (b : BinIo) (st : BitVec 64) : b.sampleFso st = { b with
    fsoBakDue := false, fsoBatDue := false
    fsoBakValid := b.fsoBakValid || b.fsoBakDue, fsoBatValid := b.fsoBatValid || b.fsoBatDue
    fsoBak := if b.fsoBakDue && !b.fsoBakValid then st else b.fsoBak
    fsoBat := if b.fsoBatDue && !b.fsoBatValid then st else b.fsoBat
    setNow := (if b.fsoBatDue then [(0x0148, 0x02)] else []) ++ (if b.fsoBakDue then [(0x0148, 0x01)] else []) ++ b.setNow } := by
  cases hk : b.fsoBakDue <;> cases ht : b.fsoBatDue <;> cases hv : b.fsoBakValid <;> cases hw : b.fsoBatValid <;>
    (cases b; simp_all [BinIo.sampleFso, BinIo.mark])

/-- A loss that waits is stamped with the edge's stamp (R147). -/
theorem BinIo.sample_loss (b : BinIo) (st : BitVec 64) (k : Word) (h : b.llDue = some k) :
    b.sample st = BinIo.mark 0x0148 0x04 { b.sampleFso st with llDue := none, llValid := true, llStamp := st, llLclk := k } := by
  have : (b.sampleFso st).llDue = some k := by rw [b.sampleFso_eq, h]
  simp only [BinIo.sample, this]

/-- Without one, the switch-over stamps are all. -/
theorem BinIo.sample_none (b : BinIo) (st : BitVec 64) (h : b.llDue = none) : b.sample st = b.sampleFso st := by
  have : (b.sampleFso st).llDue = none := by rw [b.sampleFso_eq, h]
  simp only [BinIo.sample, this]

/-- Where the next edge's update is not of one of these kinds, nothing happens (R132). -/
theorem State.edgeOf_other (ks : List EdgeKind) (h : ks.contains s.edgeKind = false) : s.edgeOf ks = s := by
  simp only [State.edgeOf, h, Bool.and_false]
  rfl

theorem State.edgeOf_kind (k : EdgeKind) (hh : s.bin.held = false) (h : s.edgeKind = k) : s.edgeOf [k] = s.ck32 := by
  subst h
  simp [State.edgeOf, hh]

end Sys2Proof.Machine

namespace Sys2Proof.Proofs

open Sys2Proof Sys2Proof.Machine

theorem secondsTickAdvancesTheTime : Claims.SecondsTickAdvancesTheTime := by
  intro s key hh hc hd before cal cycle
  refine ⟨fun hs => ?_, fun hs => ?_⟩
  · have hk := s.edgeKind_start hc hs
    have h0 := s.edgeCounts_start hs
    simp only [exec, execPrescalerCount, hh, hk]
    rw [s.ck32_below hc (by rw [h0]; exact s.cal.subsec.isLt), h0]
    simp only [Nat.add_zero, BitVec.ofNat_toNat, BitVec.setWidth_eq, Trim.edge, hs]
    rfl
  intro edge
  refine ⟨fun hu => ⟨?_, ?_⟩, fun hu => ⟨?_, s.ck32, ?_, ?_⟩⟩
  · have hk := s.edgeKind_count hc hs hd hu
    have h1 := s.edgeCounts_one hs hd
    obtain ⟨hlt, hn⟩ := subsec_succ _ hu
    simp only [exec, execPrescalerCount, hh, hk]
    rw [s.ck32_below hc (by rw [h1]; exact hlt), h1, hn]
    simp only [Trim.edge, hs, hd]
    rfl
  · simp only [exec, execSecondsTick, s.edgeOf_other [.tick] (by simp [s.edgeKind_count hc hs hd hu])]
  · simp [exec, execPrescalerCount, s.edgeKind_tick hc hs hd hu]
  · simp only [exec, execSecondsTick, s.edgeOf_kind .tick hh (s.edgeKind_tick hc hs hd hu)]
  · obtain ⟨hends, hnext⟩ := s.ck32_tick hc hs hd hu
    obtain ⟨hp, h17⟩ := s.ck32_parts
    have hk : (s.edgeKind == .load) = false := by simp [s.edgeKind_tick hc hs hd hu]
    have hcal : s.ck32.cal = s.calNext.1 := congrArg State.cal hp
    have hbin : s.ck32.bin = s.atCk32.bin := (congrArg State.bin hp :)
    have htrim : s.atCk32.trim = edge := by
      simp only [State.atCk32, Trim.edge, hs, hd, hk]
      rfl
    refine ⟨?_, fun hcn hsn hin => ?_, fun hcn hsn hend => ?_, fun hsett => ?_, fun v hcn hsv hin => ?_⟩
    · rw [hcal, hbin, ← htrim]
      exact hp
    · have hin : s.cal.lsec.toNat + 1 < cycleSeconds := hin
      have hn : s.calNext = ({ cal with lsec := s.cal.lsec + 1, subsec := 0 }, false) := by
        rw [hnext, s.cal.tick_none 0 (by simp [hcn]) hsn, s.cal.ticked_inside hin, shiftedTime_inside _ hin, hcn, hsn, Bool.or_false]
        rfl
      have hsets : s.edgeSets = [] := by simp [State.edgeSets, hcn, hn]
      refine ⟨by rw [hcal, hn], ?_⟩
      rw [hbin, hcal]
      simp only [State.atCk32, hsets]
      rfl
    · have hend : s.cal.lsec.toNat + 1 = cycleSeconds := hend
      have hn : s.calNext = ({ cal with lsec := 0, subsec := 0, centWrap := true }, true) := by
        rw [hnext, s.cal.tick_none 0 (by simp [hcn]) hsn, Cal.ticked, shiftedTime_end _ hend, hcn, hsn, Bool.or_true]
        rfl
      have hsets : s.edgeSets = [(0x011B, 0x08)] := by simp [State.edgeSets, hcn, hn]
      refine ⟨by rw [hcal, hn], h17 (by rw [hn]), ?_⟩
      rw [hbin, hcal]
      simp only [State.atCk32, hsets]
      rfl
    · have hn := congrArg Prod.fst hnext
      rw [s.cal.tick_sett 0 hsett] at hn
      rw [hcal, hn]
      refine ⟨rfl, rfl, rfl, rfl, rfl, rfl, fun hsn hin => ?_⟩
      rw [hsn, s.cal.ticked_inside hin]
      rfl
    · have hn := congrArg Prod.fst hnext
      have hin : s.cal.lsec.toNat + 3 < cycleSeconds := hin
      rw [s.cal.tick_some 0 v (by simp [hcn]) hsv, s.cal.ticked_inside (by omega)] at hn
      rw [hcal, hn]
      exact ⟨s.cal.ticked_shift v hin, rfl, rfl, rfl⟩

theorem stampsAreWrittenAtTheEdge : Claims.StampsAreWrittenAtTheEdge := by
  intro b st t
  cases h : b.llDue with
  | none =>
    have ht : t = b.sampleFso st := b.sample_none st h
    refine ⟨?_, fun _ => ?_, fun k hk => by simp at hk, ?_⟩ <;> rw [ht, b.sampleFso_eq]
    · rw [← h]
    · exact ⟨rfl, rfl, rfl⟩
    · simp
  | some k =>
    have ht := b.sample_loss st k h
    rw [b.sampleFso_eq] at ht
    refine ⟨?_, fun hk => by simp at hk, fun k' hk => ?_, ?_⟩ <;> rw [show t = _ from ht]
    · rfl
    · exact ⟨rfl, rfl, by simpa [BinIo.mark] using hk⟩
    · simp [BinIo.mark]

theorem setrLoadsTheStagedTime : Claims.SetrLoadsTheStagedTime := by
  intro s hh
  refine ⟨fun hc => ⟨s.ck32, ?_, ?_⟩, fun hc => ?_⟩
  · have hk : s.edgeKind = .load := by simpa using s.edgeKind_load_iff.2 hc
    simp only [exec, execSetrLoad, s.edgeOf_kind .load hh hk]
  · have hk := s.edgeKind_load_iff.2 hc
    obtain ⟨hp, -⟩ := s.ck32_parts
    have hcal : s.ck32.cal = (s.cal.atEdge true s.edgeCounts).1 := by
      rw [(congrArg State.cal hp :), ← hk]
      rfl
    have htrim : s.ck32.trim = Trim.edge (!s.cal.started) true s.corrDue s.cal.onLrc s.trim := by
      rw [(congrArg State.trim hp :), ← hk]
      rfl
    have hall : s.ck32 = { s with cal := s.ck32.cal, trim := s.ck32.trim, bin := s.ck32.bin, berths := s.ck32.berths
                                  ev := s.ck32.ev, dom := s.ck32.dom } := by
      rw [(congrArg State.cal hp :), (congrArg State.trim hp :), (congrArg State.bin hp :)]
      exact hp
    refine ⟨hall, ?_⟩
    rw [hcal, htrim, Cal.atEdge_load]
    refine ⟨rfl, rfl, rfl, rfl, rfl, fun hs hd hu _ => ?_, rfl, rfl, rfl, ?_, fun hs => ?_⟩
    · obtain ⟨hlt, hn⟩ := subsec_succ _ hu
      rw [s.edgeCounts_one hs hd, Cal.counts_below { s.cal with commit := none } 1 hlt, hn]
      rfl
    · cases hs : s.cal.started <;> simp [Trim.edge]
    · simp [Trim.edge, hs]
  · have hk : s.edgeKind ≠ .load := fun e => hc (s.edgeKind_load e)
    simp only [exec, execSetrLoad, s.edgeOf_other [.load] (by simpa using hk)]

theorem commandedTimeIsLoaded : Claims.CommandedTimeIsLoaded := by
  intro s p hp h l
  have hh : s.bin.held = false := by
    simp only [State.portUp, Bool.and_eq_true, Bool.not_eq_true'] at hp
    exact hp.1.1
  obtain ⟨hset, -, ⟨a, hcancel, -, hacal, -⟩, -, -⟩ := calendarCommandsFromTheHost s p 0 hp h
  refine ⟨fun ok => ?_, fun ok hs hd hu => ?_, a, hcancel, hacal, ?_⟩
  · obtain ⟨u, hu, -, hl, h0, hc, hset', -⟩ := (setrLoadsTheStagedTime { s with cal := { s.cal with commit := some .setr } } hh).1 rfl
    exact ⟨_, u, (hset ok).1, rfl, hu, hl, h0, hc, hset'.trans (by rw [hl]; rfl)⟩
  · obtain ⟨-, u, hu', -, -, -, hsett, -⟩ :=
      (((secondsTickAdvancesTheTime { s with cal := { s.cal with commit := some .sett } } false hh (by simp) hd).2 hs).2 hu)
    obtain ⟨hl, h0, hc, -⟩ := hsett rfl
    exact ⟨_, u, (hset ok).2, rfl, hu', hl, h0, hc⟩
  · have hk : a.edgeKind ≠ .load := fun e => by
      have := a.edgeKind_load e
      rw [hacal] at this
      simp at this
    simp only [exec, execSetrLoad, a.edgeOf_other [.load] (by simpa using hk)]

/-- Settles O26: each claim from the one account of what an edge changes. -/
theorem theCalendarAdvances : Obligations.TheCalendarAdvances :=
  ⟨secondsTickAdvancesTheTime, stampsAreWrittenAtTheEdge, setrLoadsTheStagedTime, commandedTimeIsLoaded⟩

end Sys2Proof.Proofs
end

section
/-! PROOFS. What a host's write reaches (R7, R198, R285): everything that belongs to a berth of another port stays. Said of each
operation that a write of a byte performs, in the order of the model's own text. -/

namespace Sys2Proof.Machine

/-! ## Memory -/

/-- A write leaves every other byte, whatever the list. -/
theorem memRead_memWrite_ne (m : List Host.Cell) (a b : Nat) (v : Byte) (h : a ≠ b) :
    memRead (memWrite m a v) b = memRead m b := by
  induction m with
  | nil =>
    simp only [memWrite]
    split <;> simp [memRead, h]
  | cons c m ih =>
    obtain ⟨k, w⟩ := c
    simp only [memWrite]
    split
    · split <;> simp [memRead, h]
    · split
      · rename_i ha; subst ha
        split <;> simp [memRead, h]
      · simp only [memRead, ih]

/-- Bytes written at ascending addresses leave every byte outside them, whatever the list. -/
theorem memRead_memWriteAll_outside (m : List Host.Cell) (a b : Nat) (bs : List Byte) (h : b < a ∨ a + bs.length ≤ b) :
    memRead (memWriteAll m a bs) b = memRead m b := by
  induction bs generalizing m a with
  | nil => rfl
  | cons x bs ih =>
    simp only [List.length_cons] at h
    rw [memWriteAll, ih _ _ (by omega), memRead_memWrite_ne m a b x (by omega)]

/-- A berth owns its window (R245). -/
theorem owner_window (b : Fin 4) (k : Nat) (hk : k < 0x400) : owner (windowBase b.val + k) = some b := by
  have hb := b.isLt
  have hd : (windowBase b.val + k - 0x1000) / 0x400 = b.val := by simp only [windowBase]; omega
  rw [owner, if_pos (by simp only [windowBase]; omega), hd]
  exact congrArg some (Fin.ext (Nat.mod_eq_of_lt hb))

/-- A frame is its header, its body and a MAC of at most 8 bytes (R264, R268). -/
theorem responseFrame_length (key : List Byte) (b : Fin 4) (rq : Request) (body : List Byte) :
    (responseFrame key b rq body).length ≤ 16 + body.length := by
  have head (f : Byte) (n : Nat) : (header rq.cmd rq.seq f n).length = 8 := by simp [header, leBytes]
  have mac (h : List Byte) : (macOf key b (rq.ctr + 1) h body).length ≤ 8 := List.length_take_le _ _
  simp only [responseFrame, List.length_append, head]
  split
  · have := mac (header rq.cmd rq.seq 0x81 body.length)
    omega
  · simp only [List.length_nil]; omega

/-- A served byte is of no berth of another port (R198, R313). -/
theorem State.judge_served (s : State) (p : Port) (a : Nat) (h : s.judge p a true = .served) :
    (∀ n, owner a = some n → s.bound p n.val = true) ∧ s.eventRefused p a = false := by
  unfold State.judge at h
  split at h
  · cases h
  · rename_i hf
    refine ⟨fun n hn => ?_, ?_⟩
    · cases hb : s.bound p n.val with
      | true => rfl
      | false => simp [hn, hb] at hf
    · repeat' split at h
      case isFalse => simp_all
      all_goals cases h

/-! ## What a write through a port spares -/

/-- No berth of another port waits for the calendar (R445). -/
def State.othersRest (s : State) (p : Port) : Prop :=
  ∀ b : Fin 4, s.bound p b.val = false → (s.berth b).waitsFor 0x0400 = false ∧ (s.berth b).waitsFor 0x0401 = false

/-- `t` keeps what `s` holds for the berths that are not bound to port `p`, and what no host writes. -/
structure Spares (p : Port) (s t : State) : Prop where
  mem : ∀ x, (∀ n, owner x = some n → s.bound p n.val = false) → memRead t.berths.mem x = memRead s.berths.mem x
  pend : ∀ b : Fin 4, s.bound p b.val = false → t.ev.pend[b] = s.ev.pend[b]
  ien : ∀ b : Fin 4, s.bound p b.val = false → t.ev.ien[b] = s.ev.ien[b]
  blk : ∀ b : Fin 4, s.bound p b.val = false → t.berths.blk[b] = s.berths.blk[b]
  bells : ∀ b : Fin 4, s.bound p b.val = false → t.dom.bells[b] = s.dom.bells[b]
  line : t.line = s.line
  flash : t.flash = s.flash
  log : t.log = s.log
  fw : t.fw = s.fw
  src : t.power.src = s.power.src
  acc : t.gauge.acc = s.gauge.acc
  bind : t.dom.bind = s.dom.bind
  lsec : t.cal.lsec = s.cal.lsec

namespace Spares

variable {p : Port} {s t u : State}

theorem refl (s : State) : Spares p s s :=
  ⟨fun _ _ => rfl, fun _ _ => rfl, fun _ _ => rfl, fun _ _ => rfl, fun _ _ => rfl, rfl, rfl, rfl, rfl, rfl, rfl, rfl, rfl⟩

/-- The same berths are bound (R247). -/
theorem bound (h : Spares p s t) (b : Nat) : t.bound p b = s.bound p b := by
  simp only [State.bound, State.bindOf, h.bind]

theorem trans (h : Spares p s t) (k : Spares p t u) : Spares p s u where
  mem x hx := (k.mem x fun n hn => (h.bound _).trans (hx n hn)).trans (h.mem x hx)
  pend b hb := (k.pend b ((h.bound _).trans hb)).trans (h.pend b hb)
  ien b hb := (k.ien b ((h.bound _).trans hb)).trans (h.ien b hb)
  blk b hb := (k.blk b ((h.bound _).trans hb)).trans (h.blk b hb)
  bells b hb := (k.bells b ((h.bound _).trans hb)).trans (h.bells b hb)
  line := k.line.trans h.line
  flash := k.flash.trans h.flash
  log := k.log.trans h.log
  fw := k.fw.trans h.fw
  src := k.src.trans h.src
  acc := k.acc.trans h.acc
  bind := k.bind.trans h.bind
  lsec := k.lsec.trans h.lsec

theorem ite {c : Prop} [Decidable c] {a b : State} (ha : Spares p s a) (hb : Spares p s b) :
    Spares p s (if c then a else b) := by
  split
  · exact ha
  · exact hb

/-- A fold spares what each of its steps spares. -/
theorem foldl {α : Type} (f : State → α → State) (hf : ∀ t x, Spares p t (f t x)) (xs : List α) (h : Spares p s t) :
    Spares p s (xs.foldl f t) := by
  induction xs generalizing t with
  | nil => exact h
  | cons x xs ih => exact ih (h.trans (hf t x))

/-! ### Updates of one part -/

theorem onLink (h : Spares p s t) (f : Link → Link) : Spares p s (t.onLink f) := { h with }
theorem onTrim (h : Spares p s t) (f : Trim → Trim) : Spares p s (t.onTrim f) := { h with }
theorem onBin (h : Spares p s t) (f : BinIo → BinIo) : Spares p s (t.onBin f) := { h with }
theorem binSet (h : Spares p s t) (a : Nat) (m : Byte) : Spares p s (t.binSet a m) := h.onBin _
theorem onSpi (h : Spares p s t) (f : Spi → Spi) : Spares p s (t.onSpi f) := { h with }
theorem onTw (h : Spares p s t) (f : Tw → Tw) : Spares p s (t.onTw f) := { h with }

theorem onPower (h : Spares p s t) (f : Power → Power) (hf : ∀ x, (f x).src = x.src := by exact fun _ => rfl) :
    Spares p s (t.onPower f) :=
  { h with src := (hf _).trans h.src }

theorem onGauge (h : Spares p s t) (f : Gauge → Gauge) (hf : ∀ g, (f g).acc = g.acc := by exact fun _ => rfl) :
    Spares p s (t.onGauge f) :=
  { h with acc := (hf _).trans h.acc }

theorem onCal (h : Spares p s t) (f : Cal → Cal) (hf : ∀ c, (f c).lsec = c.lsec := by exact fun _ => rfl) :
    Spares p s (t.onCal f) :=
  { h with lsec := (hf _).trans h.lsec }

theorem onDom (h : Spares p s t) (f : Domains → Domains)
    (hd : ∀ d, (f d).bells = d.bells ∧ (f d).bind = d.bind := by exact fun _ => ⟨rfl, rfl⟩) : Spares p s (t.onDom f) :=
  { h with
    bells := fun b hb => by rw [State.onDom_dom, (hd _).1]; exact h.bells b hb
    bind := (hd _).2.trans h.bind }

/-- A doorbell of a berth of this port. -/
theorem onBell (h : Spares p s t) (n : Fin 4) (hn : s.bound p n.val = true) (v : Bell) (f : Domains → Domains)
    (hd : (f t.dom).bells = t.dom.bells.set n v ∧ (f t.dom).bind = t.dom.bind) : Spares p s (t.onDom f) :=
  { h with
    bells := fun b hb => by
      have : n.val ≠ b.val := fun e => by rw [e, hb] at hn; cases hn
      simpa [hd.1, this] using h.bells b hb
    bind := hd.2.trans h.bind }

theorem onEv (h : Spares p s t) (f : Events → Events) (hf : ∀ e, (f e).pend = e.pend ∧ (f e).ien = e.ien :=
      by exact fun _ => ⟨rfl, rfl⟩) :
    Spares p s (t.onEv f) :=
  { h with
    pend := fun b hb => by rw [State.onEv_ev, (hf _).1]; exact h.pend b hb
    ien := fun b hb => by rw [State.onEv_ev, (hf _).2]; exact h.ien b hb }

theorem onAv (h : Spares p s t) (f : Berths → Berths) (hf : ∀ x, (f x).mem = x.mem ∧ (f x).blk = x.blk :=
      by exact fun _ => ⟨rfl, rfl⟩) :
    Spares p s (t.onBerths f) :=
  { h with
    mem := fun x hx => by rw [State.onBerths_berths, (hf _).1]; exact h.mem x hx
    blk := fun b hb => by rw [State.onBerths_berths, (hf _).2]; exact h.blk b hb }

/-- The block of a berth of this port. -/
theorem onBerth (h : Spares p s t) (n : Fin 4) (hn : s.bound p n.val = true) (f : Berth → Berth) :
    Spares p s (t.onBerth n f) :=
  { h with
    blk := fun b hb => by
      have : n ≠ b := fun e => by rw [e, hb] at hn; cases hn
      exact (t.onBerth_other n b this f).trans (h.blk b hb) }

/-- Bytes that belong to berths of this port. -/
theorem onMem (h : Spares p s t) (m : List Host.Cell)
    (hm : ∀ x, (∀ n, owner x = some n → s.bound p n.val = false) → memRead m x = memRead t.berths.mem x) :
    Spares p s (t.onBerths fun x => { x with mem := m }) :=
  { h with mem := fun x hx => (hm x hx).trans (h.mem x hx) }

/-! ### Wakes and events -/

theorem startOn (h : Spares p s t) (d : Domain) : Spares p s (t.startOn d) := by
  refine h.onDom _ fun x => ?_
  have hs (v : DomSt) : (x.set d v).bells = x.bells ∧ (x.set d v).bind = x.bind := by cases d <;> exact ⟨rfl, rfl⟩
  dsimp only
  split
  case h_2 => exact ⟨rfl, rfl⟩
  all_goals exact hs _

theorem bringOn (h : Spares p s t) (d : Domain) : Spares p s (t.bringOn d) := by
  cases d <;> simp only [State.bringOn] <;> (repeat' apply startOn) <;> exact h

theorem wake (h : Spares p s t) (bit : Nat) (doms : List Domain) : Spares p s (t.wake bit doms) := by
  unfold State.wake
  exact ite (foldl _ (fun t d => (refl t).bringOn d) _ (h.onDom _)) h

theorem raise (h : Spares p s t) (e : Nat) : Spares p s (t.raise e) := by
  have k := h.onEv fun x => { x with raised := x.raised ||| (1#96 <<< e) }
  exact ite (k.wake 18 [.cpu]) k

theorem raiseWhenHif (h : Spares p s t) (e : Nat) : Spares p s (t.raiseWhenHif e) := by
  unfold State.raiseWhenHif
  exact ite (h.raise e) (h.onEv _)

theorem violation (h : Spares p s t) (q : Port) (n : Fin 4) (a kind : Nat) : Spares p s (t.violation q n a kind) := by
  unfold State.violation
  exact (h.onAv _).raise _

theorem accOff (h : Spares p s t) (q : Port) (a : Nat) : Spares p s (t.accOff q a) := (h.onSpi _).raiseWhenHif 32

/-! ### Answers, the calendar and trim -/

/-- A response in the mailbox of a berth of this port (R264, R279). -/
theorem answer (h : Spares p s t) (n : Fin 4) (hn : s.bound p n.val = true) (st : Status) (rest : List Byte)
    (hl : rest.length ≤ 0x80) : Spares p s (t.answer n st rest) := by
  unfold State.answer
  split
  · exact h
  · rename_i rq _
    have k := h.onBerth n hn (Berth.accept rq st (responseFrame (t.entry n).key n rq (st.code :: rest)))
    refine ite k (((k.onMem _ fun x hx => ?_).onBerth n hn _).raise _)
    have hlen := responseFrame_length (t.entry n).key n rq (st.code :: rest)
    refine memRead_memWriteAll_outside _ _ _ _ (Decidable.not_not.1 fun hin => ?_)
    simp only [List.length_cons] at hlen
    have ho : owner x = some n := by
      rw [← owner_window n (x - windowBase n.val) (by omega)]
      congr 1; omega
    exact absurd hn (by simp [hx n ho])

/-- The answers that waited for the calendar, when no berth of another port waits (R445). -/
theorem answerTime (h : Spares p s t) (hw : s.othersRest p) : Spares p s t.answerTime := by
  unfold State.answerTime
  generalize List.finRange 4 = bs
  induction bs generalizing t with
  | nil => exact h
  | cons b bs ih =>
    refine ih ?_
    dsimp only
    split
    · rename_i hc
      cases hb : s.bound p b.val with
      | true => exact h.answer b hb _ _ (by simp [Cal.setBytes, leBytes])
      | false =>
        obtain ⟨h0, h1⟩ := hw b hb
        have e : t.berth b = s.berth b := h.blk b hb
        simp only [e, h0, h1, Bool.false_and, Bool.or_self, Bool.false_eq_true] at hc
    · exact h

theorem commitCmd (h : Spares p s t) (m : CommitMode) : Spares p s (t.commitCmd m) := by
  unfold State.commitCmd
  exact ite (h.onCal _) (((h.onCal _).binSet _ _).raise _)

theorem calCmd (h : Spares p s t) (hw : s.othersRest p) (v : Byte) : Spares p s (t.calCmd v) := by
  unfold State.calCmd
  exact ite (h.commitCmd _) (ite (h.commitCmd _) (ite ((h.onCal _).answerTime hw) h))

theorem shiftCmd (h : Spares p s t) (v : Half) : Spares p s (t.shiftCmd v) := by
  unfold State.shiftCmd
  exact ite ((h.onCal _).binSet _ _) (h.onCal _)

/-- TR_RUN of a host starts a measurement, or aborts one with cause 6, which firmware does not start again (R134, R137). -/
theorem trRun (h : Spares p s t) (v : Bool) : Spares p s (t.trRun v) := by
  unfold State.trRun
  refine ite (ite (h.onTrim _) (h.onTrim _)) ?_
  unfold State.trimAbort
  exact ite ((h.onTrim _).raise _) h

/-! ### The writes of each page -/

theorem writeBin (h : Spares p s t) (hw : s.othersRest p) (a : Nat) (v : Byte) : Spares p s (t.writeBin a v) := by
  have stage (c : Cal) : (c.stage a v).lsec = c.lsec := by
    unfold Cal.stage
    repeat' split
    all_goals rfl
  unfold State.writeBin
  repeat' with_reducible apply ite
  all_goals first
    | exact h.onBin _
    | exact h.onTrim _
    | exact h.onCal _ stage
    | exact h.onCal _
    | exact (h.onTrim _).trRun _
    | exact h.calCmd hw _

/-- An accepted ring of a berth of this port (R181). -/
theorem ringAccept (h : Spares p s t) (n : Fin 4) (hn : s.bound p n.val = true) : Spares p s (t.ringAccept n) := by
  unfold State.ringAccept
  exact ((h.onBell n hn _ _ ⟨rfl, rfl⟩).onBerth n hn _).wake _ _

theorem ring (h : Spares p s t) (n : Fin 4) : Spares p s (t.ring p n) := by
  unfold State.ring
  split
  · rename_i hb
    rw [h.bound] at hb
    exact ite (h.onBell n hb _ _ ⟨rfl, rfl⟩) (h.ringAccept n hb)
  · exact h.violation _ _ _ _

theorem setKeep (h : Spares p s t) (v : BitVec 3) : Spares p s (t.setKeep p v) := by
  cases p <;> exact ite (h.onDom _) ((h.onDom _).wake _ _)

theorem writeDom (h : Spares p s t) (a : Nat) (v : Byte) : Spares p s (t.writeDom p a v) := by
  unfold State.writeDom
  repeat' with_reducible apply ite
  · exact h.onDom _
  · exact h.setKeep _
  · exact h.onDom _
  · exact h.ring _
  · exact h

theorem chargerGate (h : Spares p s t) : Spares p s t.chargerGate := by
  unfold State.chargerGate
  exact ite (ite (h.onPower _) h) (ite h (h.onPower _))

theorem writePower (h : Spares p s t) (a : Nat) (v : Byte) : Spares p s (t.writePower a v) := by
  unfold State.writePower
  repeat' with_reducible apply ite
  · exact (h.onPower _).chargerGate
  · exact h
  · exact h.onPower _
  · exact h.onPower _ fun _ => by split <;> rfl

theorem writeLink (h : Spares p s t) (a : Nat) (v : Byte) : Spares p s (t.writeLink a v) := by
  unfold State.writeLink
  exact ite (h.onLink _) (ite (h.onLink _) (h.onLink _))

/-- The event block of a berth of this port, the two-wire registers and the violation log (R313). -/
theorem writeHif (h : Spares p s t) (a : Nat) (v : Byte) (ha : t.eventRefused p a = false) : Spares p s (t.writeHif a v) := by
  unfold State.writeHif
  split
  · rename_i hr
    have hn : s.bound p (Fin.ofNat 4 ((a - 0x0480) / 0x20)).val = true := by
      have : (Fin.ofNat 4 ((a - 0x0480) / 0x20)).val = (a - 0x0480) / 0x20 := Nat.mod_eq_of_lt (by omega)
      rw [this, ← h.bound]
      simpa [State.eventRefused, hr] using ha
    have other {b : Fin 4} (hb : s.bound p b.val = false) : (Fin.ofNat 4 ((a - 0x0480) / 0x20)).val ≠ b.val := fun e => by
      rw [e, hb] at hn; cases hn
    refine ite ?_ (ite ?_ h)
    · exact { h with pend := fun b hb => (Vector.getElem_set_ne (Fin.isLt _) b.isLt (other hb)).trans (h.pend b hb) }
    · exact { h with ien := fun b hb => (Vector.getElem_set_ne (Fin.isLt _) b.isLt (other hb)).trans (h.ien b hb) }
  · exact ite (h.onAv _) (h.onTw _)

theorem writeMem (h : Spares p s t) (n : Fin 4) (hn : s.bound p n.val = true) (a : Nat) (v : Byte) (ha : owner a = some n) :
    Spares p s (t.writeMem n a v) := by
  unfold State.writeMem
  refine ite ((h.onBerth n hn _).raise _) (h.onMem _ fun x hx => memRead_memWrite_ne _ _ _ _ fun e => ?_)
  rw [hx n (e ▸ ha)] at hn
  cases hn

theorem writeWide (h : Spares p s t) (base v : Nat) : Spares p s (t.writeWide base v) := by
  unfold State.writeWide
  split
  · exact h.shiftCmd _
  · exact ite (h.onTrim _) h
  · exact h.onDom _

theorem writeByte (h : Spares p s t) (hw : s.othersRest p) (w : List (Nat × Byte)) (a : Nat) (v : Byte)
    (hj : t.judge p a true = .served) : Spares p s (t.writeByte p w a v) := by
  obtain ⟨ho, he⟩ := t.judge_served p a hj
  unfold State.writeByte
  split
  · exact ite (ite (h.writeWide _ _) h) h
  · refine ite (h.onBin _) (ite (ite (h.onSpi _) h) (ite (h.writeBin hw a v) (ite (h.writeDom a v)
      (ite (ite (h.onGauge _) h) (ite (h.writePower a v) (ite (h.writeLink a v) ?_))))))
    split
    · rename_i n hn
      have hb := (h.bound n.val).symm.trans (ho n hn)
      exact ite (h.writeMem n hb a v hn) (h.onBerth n hb _)
    · exact h.writeHif a v he

/-- One byte of a transfer, taken or refused; the transfer stays of its port. -/
theorem xferWrite (h : Spares p s t) (hw : s.othersRest p) (x : Xfer) (hx : x.port = p) (a : Nat) (v : Byte) :
    Spares p s (t.xferWrite x a v).2 ∧ (t.xferWrite x a v).1.port = p := by
  subst hx
  unfold State.xferWrite
  split
  · exact ⟨h.writeByte hw _ a v ‹_›, rfl⟩
  · unfold State.refuse
    split
    · split
      · exact ⟨h, rfl⟩
      · exact ⟨h.violation _ _ _ _, rfl⟩
    · split
      · exact ⟨h, rfl⟩
      · exact ⟨h.accOff _ _, rfl⟩
    · exact ⟨h, rfl⟩

theorem xferWrites (h : Spares p s t) (hw : s.othersRest p) (x : Xfer) (hx : x.port = p) (a : Nat) (vs : List Byte) :
    Spares p s (t.xferWrites x a vs).2 := by
  induction vs generalizing t x a with
  | nil => exact h
  | cons v vs ih =>
    obtain ⟨k, hk⟩ := h.xferWrite hw x hx a v
    exact ih k _ hk _

/-- A whole write through a port (R191). -/
theorem portWrite (h : Spares p s t) (hw : s.othersRest p) (a : Nat) (bs : List Byte) : Spares p s (t.portWrite p a bs) :=
  ite (h.xferWrites hw _ rfl a bs) h

end Spares

end Sys2Proof.Machine

namespace Sys2Proof.Proofs

open Sys2Proof Sys2Proof.Machine

/-- Settles O36: every byte of the write spares the berths of other ports. -/
theorem portsReachOnlyTheirBerths : Obligations.PortsReachOnlyTheirBerths := by
  intro s p a bs hw
  have k := (Spares.refl s).portWrite (p := p) hw a.toNat bs
  refine ⟨s.portWrite p a.toNat bs, rfl, k.mem, fun b hb => ?_, k.line, k.flash, k.log, k.fw, k.src, k.acc, k.bind, k.lsec⟩
  rw [k.pend b hb, k.ien b hb, k.blk b hb, k.bells b hb]
  exact ⟨rfl, rfl, rfl, rfl, rfl, rfl⟩

/-- A scratch whose list is not in rising order, so that a byte written to 0 is found again further on. -/
def disordered : State := { State.reset with bin := { State.reset.bin with scratch := [(0x01C5, 1), (0x01C3, 2)] } }

/-- Refutes O35: a scratch that is not in canonical form reads 2 after 0 was written; the claim holds it of every state. -/
theorem not_hostWritesAreChecked : ¬ Obligations.HostWritesAreChecked := by
  rintro ⟨h, -, -⟩
  obtain ⟨-, -, hb⟩ := (h disordered .csA 0x01C3 0).imp_right fun h => h (by decide)
  obtain ⟨-, hs, -⟩ := (hb (by decide)).2 (by decide)
  obtain ⟨t, ht, -, hm⟩ := hs (by decide) (by decide)
  have e : exec (.registerWrite .csA 0x01C3 [0]) disordered = .next disordered := by rfl
  rw [e, Host.Outcome.next.injEq] at ht
  subst ht
  exact absurd (hm 0x01C3) (by decide)

end Sys2Proof.Proofs
end

section
/-! PROOFS. Domains that leave ON: what an entry changes, what defers it and how it ends (R158 to R165). -/

namespace Sys2Proof.Machine

variable (s : State)

/-! ## The states of the domains -/

@[simp] theorem Domains.get_set_same (x : Domains) (d : Domain) (v : DomSt) : (x.set d v).get d = v := by cases d <;> rfl

theorem Domains.get_set_other (x : Domains) {d e : Domain} (v : DomSt) (h : e ≠ d) : (x.set d v).get e = x.get e := by
  cases d <;> cases e <;> simp_all [Domains.set, Domains.get]

@[simp] theorem Domains.set_get (x : Domains) (d : Domain) : x.set d (x.get d) = x := by cases d <;> rfl

/-- An entry that is deferred already is not deferred anew (R162). -/
theorem State.defer_same (d : Domain) (low : Low) (h : (s.dom.get d).deferred = some low) : s.defer d low = s := by
  have e : ({ s.dom.get d with deferred := some low } : DomSt) = s.dom.get d := by rw [← h]
  simp only [State.defer, State.onDom, e, Domains.set_get]

/-- OFF and RET are the low states. -/
theorem PdState.low_iff (p : PdState) : p.low = true ↔ p = .off ∨ p = .ret := by cases p <;> simp [PdState.low]

/-! ## Exits that wait (R159, R165) -/

/-- An exit concerns its own domain alone. -/
theorem State.startOn_other {d e : Domain} (h : e ≠ d) : (s.startOn d).dom.get e = s.dom.get e := by
  simp only [State.startOn, State.onDom_dom]
  split
  case h_2 => rfl
  all_goals exact Domains.get_set_other _ _ h

/-- With no exit that waits, none starts. -/
theorem State.startWanted_none (h : ∀ x, (s.dom.get x).wanted = false) : s.startWanted = s :=
  List.foldl_fixed' (fun d => by simp only [h d, Bool.false_and]; rfl) _

/-- A domain whose exit does not wait stays as it is. -/
theorem State.startWanted_get (d : Domain) (h : (s.dom.get d).wanted = false) : s.startWanted.dom.get d = s.dom.get d := by
  unfold State.startWanted
  generalize [Domain.cpu, .memM, .hif, .memB, .pwr, .gauge, .log] = xs
  have step (t : State) (x : Domain) (ht : t.dom.get d = s.dom.get d) :
      (if (t.dom.get x).wanted && (t.dom.get x).st.low then t.startOn x else t).dom.get d = s.dom.get d := by
    by_cases hx : d = x
    · subst hx
      rw [ht, h, if_neg (by simp), ht]
    · split
      · rw [t.startOn_other hx, ht]
      · exact ht
  suffices ∀ t : State, t.dom.get d = s.dom.get d →
      (xs.foldl (fun s d => if (s.dom.get d).wanted && (s.dom.get d).st.low then s.startOn d else s) t).dom.get d =
        s.dom.get d from this s rfl
  induction xs with
  | nil => exact fun t ht => ht
  | cons x xs ih => exact fun t ht => ih _ (step t x ht)

/-- Exits change the domains alone. -/
theorem State.startWanted_gauge : s.startWanted.gauge = s.gauge := by
  unfold State.startWanted
  generalize [Domain.cpu, .memM, .hif, .memB, .pwr, .gauge, .log] = xs
  induction xs generalizing s with
  | nil => rfl
  | cons x xs ih =>
    refine (ih _).trans ?_
    dsimp only
    split <;> rfl

/-! ## What defers an entry (R49, R99, R162, R442) -/

theorem State.heldOn_iff (k : Nat) : s.heldOn k = true ↔ ∃ b : Fin 4, s.berths.blk[b].holdOn.getLsbD k = true := by
  simp [State.heldOn, State.berth]

theorem State.hostTransfer_iff : s.hostTransfer = true ↔
    s.spi.csA = true ∨ s.spi.csB = true ∨ s.tw.phase = .active ∨ s.tw.phase = .stretched := by
  simp [State.hostTransfer, or_assoc]

/-- For every domain but PWR, what blocks an entry defers it. -/
theorem State.deferring_eq_blocked {d : Domain} (h : d ≠ .pwr) : s.deferring d = s.blocked d := by
  cases d <;> simp_all [State.deferring]

/-- An entry that nothing defers is not blocked; for PWR the link is not UP then. -/
theorem State.link_not_up {d : Domain} (h : s.blocked d = false) : d = .pwr → s.link.state ≠ .up := by
  rintro rfl e
  simp [State.blocked, e] at h

/-! ## An entry (R29, R163, R166) -/

/-- A link that is not UP does not leave UP. -/
theorem State.linkLeavesUp_same (h : s.link.state ≠ .up) : s.linkLeavesUp = s := if_neg h

/-- What an entry does to the domains: its own state, its pads' latch, and for the CPU its LIVE bit. -/
theorem State.beginEntry_dom (d : Domain) (want : Low) (h : d = .pwr → s.link.state ≠ .up) :
    (s.beginEntry d want).dom = { s.dom.set d { st := .entering (s.lowFor d want) } with
      padHeld := match padBit d with | some k => s.dom.padHeld ||| (1#4 <<< k) | none => s.dom.padHeld
      cpuUp := s.dom.cpuUp && d != .cpu } := by
  cases d
  case pwr =>
    simp only [State.beginEntry, padBit, State.onLink_dom, State.onPower_dom]
    rw [State.linkLeavesUp_same]
    · simp [Domains.set]
    · exact h rfl
  all_goals simp [State.beginEntry, padBit, Domains.set]

/-- The state that an entry gives its domain. -/
theorem State.beginEntry_same (d : Domain) (want : Low) (h : d = .pwr → s.link.state ≠ .up) :
    ((s.beginEntry d want).dom.get d).st = .entering (s.lowFor d want) := by
  rw [s.beginEntry_dom d want h]
  cases d <;> rfl

/-- No other domain changes. -/
theorem State.beginEntry_other {d e : Domain} (want : Low) (h : d = .pwr → s.link.state ≠ .up) (he : e ≠ d) :
    (s.beginEntry d want).dom.get e = s.dom.get e := by
  rw [s.beginEntry_dom d want h]
  exact Eq.trans (by cases e <;> rfl) (Domains.get_set_other s.dom _ he)

/-- The pads that an entry latches. -/
theorem State.beginEntry_pads (d : Domain) (want : Low) (h : d = .pwr → s.link.state ≠ .up) :
    (∀ k, padBit d = some k → (s.beginEntry d want).dom.padHeld = s.dom.padHeld ||| (1#4 <<< k)) ∧
    (padBit d = none → (s.beginEntry d want).dom.padHeld = s.dom.padHeld) := by
  rw [s.beginEntry_dom d want h]
  exact ⟨fun k hk => by simp only [hk], fun hn => by simp only [hn]⟩

/-- HIF keeps its pins, and a transfer as controller breaks off. -/
theorem State.beginEntry_hif (want : Low) : (s.beginEntry .hif want).irqPins = s.irqPins ∧
    (s.beginEntry .hif want).irqPush = s.irqPush ∧ (s.beginEntry .hif want).tw.sbsActive = false := by
  have hb : (s.beginEntry .hif want).dom.padHeld.getLsbD 3 = true := by
    rw [s.beginEntry_dom .hif want nofun]
    simp [padBit]
  exact ⟨if_pos hb, if_pos hb, rfl⟩

/-- LOG runs nothing. -/
theorem State.beginEntry_log (want : Low) : (s.beginEntry .log want).log = s.log.loseLog := rfl

/-- PWR takes the link to DOWN and the charger to OFF. -/
theorem State.beginEntry_pwr (want : Low) (h : s.link.state ≠ .up) :
    (s.beginEntry .pwr want).link = { ({ s.link with window := none, windowLocal := false } : Link).silence with state := .down } ∧
    (s.beginEntry .pwr want).power = { s.power.chargerOff with srg := false, paused := false } := by
  simp only [State.beginEntry, padBit, State.onLink_link, State.onLink_power, State.onPower_link, State.onPower_power]
  rw [State.linkLeavesUp_same]
  · exact ⟨rfl, rfl⟩
  · exact h

/-- What no entry changes. -/
theorem State.beginEntry_frame (d : Domain) (want : Low) : (s.beginEntry d want).berths = s.berths ∧
    (s.beginEntry d want).line = s.line ∧ (s.beginEntry d want).gauge = s.gauge ∧ (s.beginEntry d want).flash = s.flash := by
  cases d <;> simp [State.beginEntry, padBit]

/-- An entry that nothing defers takes place at once; LOG and the CPU enter together. -/
theorem State.tryEntry_enters {d : Domain} (want : Low) (hd : d ≠ .cpu) (h : s.deferring d = false) :
    s.tryEntry d want = s.beginEntry d want := by
  simp [State.tryEntry, h, hd]

/-- An entry that is asked for and not blocked takes place at once; PWR no longer waits for its link. -/
theorem State.requestEntry_enters {d : Domain} (want : Low) (hd : d ≠ .cpu) (hon : s.isOn d = true) (hb : s.blocked d = false) :
    ∃ v, s.requestEntry d want = (s.onDom fun x => { x with pwrUntilDown := v }).beginEntry d want := by
  refine ⟨if d = .pwr then s.link.state == .up else s.dom.pwrUntilDown, ?_⟩
  have hon' : ((s.dom.get d).st == .on) = true := hon
  rw [State.requestEntry, if_pos hon']
  refine State.tryEntry_enters _ want hd ?_
  by_cases hp : d = .pwr
  · subst hp
    have hl : (s.link.state == .up) = false := by simpa using s.link_not_up hb rfl
    have hb' : (s.onDom fun x => { x with pwrUntilDown := s.link.state == .up }).blocked .pwr = false := hb
    simp [State.deferring, hl] at hb' ⊢
    exact hb'
  · rw [State.deferring_eq_blocked _ hp]
    exact Eq.trans (by cases d <;> rfl) hb

/-- It gives the domain its state, and no other domain changes. -/
theorem State.requestEntry_states {d : Domain} (want : Low) (hd : d ≠ .cpu) (hon : s.isOn d = true) (hb : s.blocked d = false) :
    ((s.requestEntry d want).dom.get d).st = .entering (s.lowFor d want) ∧
    ∀ x, x ≠ d → (s.requestEntry d want).dom.get x = s.dom.get x := by
  obtain ⟨v, hv⟩ := s.requestEntry_enters want hd hon hb
  have hl : d = .pwr → (s.onDom fun x => { x with pwrUntilDown := v }).link.state ≠ .up := s.link_not_up hb
  rw [hv]
  refine ⟨(State.beginEntry_same _ d want hl).trans ?_, fun x hx => (State.beginEntry_other _ want hl hx).trans ?_⟩
  · cases d <;> rfl
  · cases x <;> rfl

/-! ## The CPU's entry, and the wait instruction (R159, R160, R164) -/

/-- The CPU's entry takes a LOG that is ON with it (R159). -/
theorem State.tryEntry_cpu_on (want : Low) (h : s.keepAny.getLsbD 0 = false) (hl : s.dom.log.st = .on) :
    s.tryEntry .cpu want = (s.beginEntry .log (s.pdLowOf .log)).beginEntry .cpu want := by
  have hd : s.deferring .cpu = false := (s.deferring_eq_blocked (d := .cpu) nofun).trans h
  simp only [State.tryEntry, hd, hl]
  rfl

/-- A LOG that rests or is on its way there is left as it is. -/
theorem State.tryEntry_cpu_off (want : Low) (h : s.keepAny.getLsbD 0 = false) (hl : s.dom.log.st ≠ .on)
    (hx : ∀ x, s.dom.log.st ≠ .leaving x) : s.tryEntry .cpu want = s.beginEntry .cpu want := by
  have hd : s.deferring .cpu = false := (s.deferring_eq_blocked (d := .cpu) nofun).trans h
  simp only [State.tryEntry, hd]
  cases e : s.dom.log.st with
  | leaving x => exact absurd e (hx x)
  | on => exact absurd e hl
  | _ => rfl

/-- KEEP, or a LOG on its way to ON, defers the CPU's entry. -/
theorem State.tryEntry_cpu_deferred (want : Low) (h : s.keepAny.getLsbD 0 = true ∨ ∃ x, s.dom.log.st = .leaving x) :
    s.tryEntry .cpu want = s.defer .cpu want := by
  have hd : s.deferring .cpu = s.keepAny.getLsbD 0 := s.deferring_eq_blocked nofun
  cases hk : s.keepAny.getLsbD 0 with
  | true => rw [State.tryEntry, if_pos (hd.trans hk)]
  | false =>
    obtain ⟨x, hx⟩ := h.resolve_left (by rw [hk]; exact Bool.false_ne_true)
    simp only [State.tryEntry, hd, hk, hx]
    rfl

/-- An entry of the CPU that is asked for is tried at once. -/
theorem State.requestEntry_cpu (want : Low) (hon : s.isOn .cpu = true) : s.requestEntry .cpu want = s.tryEntry .cpu want :=
  if_pos hon

/-- What firmware enables before it waits lies between the sources it leaves enabled and those with bits 18 and 19 (R442). -/
theorem State.beforeWait_wakeEn : (s.dom.wakePend &&& (s.dom.wakeEn ||| 0xC0000) = 0 →
      s.dom.wakePend &&& s.beforeWait.dom.wakeEn = 0) ∧
    (s.dom.wakePend &&& (s.dom.wakeEn &&& 0x3FFFF) ≠ 0 → s.dom.wakePend &&& s.beforeWait.dom.wakeEn ≠ 0) := by
  have hc : (0xC0000 : Word) = 0x40000 ||| 0x80000 := by decide
  have bits (v : Word) : v = 0 ↔ ∀ i, v.getLsbD i = false :=
    ⟨fun h i => by simp [h], fun h => BitVec.eq_of_getLsbD_eq fun i _ => by simp [h i]⟩
  have e : s.beforeWait.dom.wakeEn = (s.dom.wakeEn &&& 0x3FFFF) ||| (if s.ev.wakeEn != 0 then 0x40000 else 0) |||
    (if s.beforeWait.dom.fwTimer then 0x80000 else 0) := rfl
  rw [e, hc]
  generalize s.beforeWait.dom.fwTimer = timer
  generalize (0x40000 : Word) = x
  generalize (0x80000 : Word) = y
  generalize (0x3FFFF : Word) = z
  simp only [Ne, bits, BitVec.getLsbD_and, BitVec.getLsbD_or]
  refine ⟨fun h i => ?_, fun h h' => h fun i => ?_⟩
  · have := h i
    cases s.ev.wakeEn != 0 <;> cases timer <;> revert this <;>
      cases s.dom.wakePend.getLsbD i <;> simp +contextual
  · have := h' i
    revert this
    cases s.dom.wakePend.getLsbD i <;> simp +contextual

/-- A wait of the CPU with nothing latched asks for its entry. -/
theorem execWaitInstruction_cpu (hc : s.isOn .cpu = true) (hf : s.fw.started = true)
    (h : s.dom.wakePend &&& s.beforeWait.dom.wakeEn = 0) :
    exec (.waitInstruction [(.cpu, .off)]) s = .next (s.beforeWait.tryEntry .cpu .off) := by
  have hr : s.beforeWait.requestEntry .cpu .off = s.beforeWait.tryEntry .cpu .off := State.requestEntry_cpu _ _ hc
  simp only [exec, execWaitInstruction, hc, hf, Bool.and_self, if_true]
  exact (if_neg (show ¬(s.dom.wakePend &&& s.beforeWait.dom.wakeEn != 0) = true by simp [h])).trans
    (congrArg Host.Outcome.next hr)

/-- One with an enabled source latched changes no domain (R164). -/
theorem execWaitInstruction_pending (hc : s.isOn .cpu = true) (hf : s.fw.started = true)
    (h : s.dom.wakePend &&& s.beforeWait.dom.wakeEn ≠ 0) :
    exec (.waitInstruction [(.cpu, .off)]) s = .next s.beforeWait.handled := by
  simp only [exec, execWaitInstruction, hc, hf, Bool.and_self, if_true]
  exact if_pos (show (s.dom.wakePend &&& s.beforeWait.dom.wakeEn != 0) = true by simpa using h)

/-- Another domain's entry is asked for by itself. -/
theorem execWaitInstruction_other {d : Domain} (low : Low) (hd : d ≠ .cpu) (hc : s.isOn .cpu = true) (hf : s.fw.started = true)
    (h : s.dom.wakePend &&& s.dom.wakeEn = 0) :
    exec (.waitInstruction [(d, low)]) s = .next (s.requestEntry d low) := by
  have ht : ([(d, low)].any fun t => t.1 == .cpu) = false := by simp [hd]
  simp only [exec, execWaitInstruction, hc, hf, ht, State.when_false, h]
  rfl

/-- Without running firmware there is no wait. -/
theorem execWaitInstruction_none (h : s.isOn .cpu = false ∨ s.fw.started = false) (l : List (Domain × Low)) :
    exec (.waitInstruction l) s = .next s := by
  have : (s.isOn .cpu && s.fw.started) = false := by rcases h with h | h <;> simp [h]
  simp only [exec, execWaitInstruction, this, Bool.false_eq_true, if_false]

/-! ## Deferred entries (R162) -/

/-- A deferred entry of a domain that is ON is tried again. -/
theorem execDeferredEntry_some {d : Domain} {low : Low} (h : (s.dom.get d).deferred = some low) (hon : s.isOn d = true) :
    exec (.deferredEntry d) s = .next (s.tryEntry d low) := by
  simp only [exec, execDeferredEntry, h, hon, if_true]

/-- Otherwise nothing happens. -/
theorem execDeferredEntry_none {d : Domain} (h : (s.dom.get d).deferred = none ∨ s.isOn d = false) :
    exec (.deferredEntry d) s = .next s := by
  simp only [exec, execDeferredEntry]
  split
  · rename_i e
    rcases h with h | h
    · rw [e] at h; cases h
    · rw [h]; rfl
  · rfl

end Sys2Proof.Machine

namespace Sys2Proof.Proofs

open Sys2Proof Sys2Proof.Machine

theorem entriesAreBlockedByTheirRules : Claims.EntriesAreBlockedByTheirRules := by
  intro s held transfer low keep
  refine ⟨Iff.rfl, ?_, ?_, rfl, s.heldOn_iff 1, ?_, ?_, fun d hd => s.deferring_eq_blocked hd, ?_⟩
  · simp only [State.blocked, Bool.or_eq_true, s.heldOn_iff, Bool.not_eq_true', Bool.eq_false_iff, ne_eq, PdState.low_iff]
    rfl
  · simp only [State.blocked, Bool.or_eq_true, s.hostTransfer_iff]
    rfl
  · simp only [State.blocked, Bool.or_eq_true, s.hostTransfer_iff, Bool.not_eq_true', Bool.eq_false_iff, ne_eq,
      PdState.low_iff, or_assoc, transfer, low]
    rfl
  · simp only [State.blocked, Bool.or_eq_true, s.heldOn_iff, beq_iff_eq, List.mem_cons, List.not_mem_nil, or_false, or_assoc]
    rfl
  · simp [State.deferring]

theorem idleAndDeferredEntriesTakePlace : Claims.DomainsLeaveOn := by
  intro s d edges hd spent
  have expires (h : spent) : exec (.idleTimerExpire d edges) s = .next (s.requestEntry d (s.pdLowOf d)) := by
    obtain ⟨h0, h1, h2⟩ := h
    have : (!s.dom.idleOver d edges || (d == .log && s.log.active)) = false := by
      simp only [Domains.idleOver, bne_iff_ne.2 h0, decide_eq_true h1]
      by_cases e : d = .log <;> simp [e, h2]
    simp only [exec, execIdleTimerExpire, this]
    rfl
  refine ⟨fun h => ?_, fun h hon hb => ?_, fun h hon hb => ?_, fun low hl hon hdef => ?_, fun h => ?_⟩
  · by_cases hs : spent
    · rw [expires hs]
      exact congrArg Host.Outcome.next (if_neg (Bool.eq_false_iff.1 (h.resolve_left (not_not_intro hs))))
    · have : (!s.dom.idleOver d edges || (d == .log && s.log.active)) = true := by
        simp only [Domains.idleOver]
        by_contra hc
        simp at hc
        exact hs ⟨hc.1.1, hc.1.2, hc.2⟩
      simp only [exec, execIdleTimerExpire, this]
      rfl
  · have hon' : ((s.dom.get d).st == .on) = true := hon
    have hg : (s.onDom fun x => { x with pwrUntilDown := if d = .pwr then s.link.state == .up else x.pwrUntilDown }).deferring d =
        true := by
      refine Bool.or_eq_true_iff.2 (Or.inl (Eq.trans ?_ hb))
      cases d <;> rfl
    rw [expires h, State.requestEntry, if_pos hon', State.tryEntry, if_pos hg]
    cases d <;> rfl
  · obtain ⟨v, hv⟩ := s.requestEntry_enters (s.pdLowOf d) hd hon hb
    have hl := s.link_not_up hb
    obtain ⟨pads, noPads⟩ := State.beginEntry_pads (s.onDom fun x => { x with pwrUntilDown := v }) d (s.pdLowOf d) hl
    obtain ⟨same, other⟩ := s.requestEntry_states (s.pdLowOf d) hd hon hb
    refine ⟨_, expires h, same, other, ?_⟩
    rw [hv]
    refine ⟨pads, noPads, ?_, ?_, ?_, State.beginEntry_frame _ _ _⟩
    · rintro rfl
      exact State.beginEntry_hif _ _
    · rintro rfl
      rw [State.beginEntry_log]
      exact ⟨rfl, rfl, rfl, fun n => by simp [Log.loseLog]⟩
    · rintro rfl
      obtain ⟨el, ep⟩ := State.beginEntry_pwr (s.onDom fun x => { x with pwrUntilDown := v }) (s.pdLowOf .pwr) (hl rfl)
      rw [el, ep]
      exact ⟨rfl, rfl, rfl, rfl, rfl, rfl⟩
  · have hl := s.link_not_up (Bool.or_eq_false_iff.1 hdef).1
    rw [execDeferredEntry_some s ‹_› hon, s.tryEntry_enters low hd hdef]
    exact ⟨_, rfl, s.beginEntry_same d low hl, fun x => s.beginEntry_other low hl⟩
  · cases hl : (s.dom.get d).deferred with
    | none => exact execDeferredEntry_none s (Or.inl hl)
    | some low =>
      cases hon : s.isOn d with
      | false => exact execDeferredEntry_none s (Or.inr hon)
      | true =>
        have hdef : s.deferring d = true := by simpa [hl, hon] using h
        rw [execDeferredEntry_some s hl hon, State.tryEntry, if_pos hdef, s.defer_same d low hl]

theorem waitInstructionTakesTheCpuOff : Claims.WaitInstructionTakesTheCpuOff := by
  intro s
  refine ⟨execWaitInstruction_none s, fun hc hf => ⟨fun h => ?_, fun h => ?_, fun d low hd h hon hb => ?_⟩,
    fun low hc hl => ⟨fun hk hon => ?_, fun h => ?_⟩⟩
  · refine ⟨_, execWaitInstruction_cpu s hc hf (s.beforeWait_wakeEn.1 h), ?_⟩
    by_cases hd : s.keepAny.getLsbD 0 = true ∨ ∃ x, s.dom.log.st = .leaving x
    · rw [State.tryEntry_cpu_deferred s.beforeWait _ hd]
      refine ⟨fun hk hx => ?_, fun _ => ⟨rfl, rfl, rfl⟩, rfl, rfl, rfl, rfl, rfl, rfl⟩
      obtain h | ⟨x, h⟩ := hd
      · rw [hk] at h; cases h
      · exact absurd h (hx x)
    · obtain ⟨hk, hx⟩ := not_or.1 hd
      rw [Bool.not_eq_true] at hk
      rw [not_exists] at hx
      by_cases hl : s.dom.log.st = .on
      · rw [State.tryEntry_cpu_on s.beforeWait _ hk hl]
        refine ⟨fun _ _ => ⟨rfl, rfl, fun _ => ⟨rfl, rfl, rfl, rfl⟩, fun hn => ?_⟩, fun h => absurd h hd,
          rfl, rfl, rfl, rfl, rfl, rfl⟩
        simp [State.isOn, Domains.get, hl] at hn
      · rw [State.tryEntry_cpu_off s.beforeWait _ hk hl hx]
        refine ⟨fun _ _ => ⟨rfl, rfl, fun hn => ?_, fun _ => ⟨rfl, rfl⟩⟩, fun h => absurd h hd,
          rfl, rfl, rfl, rfl, rfl, rfl⟩
        exact absurd ((s.isOn_iff .log).1 hn) hl
  · exact ⟨_, execWaitInstruction_pending s hc hf (s.beforeWait_wakeEn.2 h), rfl, fun d => by cases d <;> rfl⟩
  · exact ⟨_, execWaitInstruction_other s low hd hc hf h, s.requestEntry_states low hd hon hb⟩
  · rw [execDeferredEntry_some (d := .cpu) s hl hc, s.tryEntry_cpu_on low hk ((s.isOn_iff .log).1 hon)]
    exact ⟨_, rfl, rfl, rfl⟩
  · rw [execDeferredEntry_some (d := .cpu) s hl hc, s.tryEntry_cpu_deferred low h, s.defer_same .cpu low hl]

/-- But for GAUGE, whose learning ends with an event, what a domain loses is no domain's state (R158, R411). -/
theorem lose_get (s : State) (d x : Domain) (hd : d ≠ .gauge) : (s.lose d).dom.get x = s.dom.get x := by
  cases d
  case gauge => exact absurd rfl hd
  case cpu => cases x <;> rfl
  all_goals simp [State.lose]

theorem entriesEndInRetOrOff : Claims.EntriesEndInRetOrOff := by
  intro s d hw
  refine ⟨fun h => ?_, fun h h0 h1 => ?_, fun h hcpu => ?_, fun h => ?_⟩
  · simp only [exec, execDomainEntryDone, h, hw]
    refine congrArg Host.Outcome.next (State.startWanted_none _ fun x => ?_)
    by_cases e : x = d
    · subst e; simp
    · simpa [Domains.get_set_other _ _ e] using hw x
  · have hl : s.dom.log.st.low = false := by
      rw [← Bool.not_eq_true, PdState.low_iff]
      exact not_or.2 ⟨h0, h1⟩
    have h' : (s.dom.get .cpu).st = .entering .off := h
    simp only [exec, execDomainEntryDone, h']
    exact if_pos ⟨trivial, hl⟩
  · have hl : ¬(d = .cpu ∧ s.dom.log.st.low = false) := fun ⟨e, f⟩ => by
      rw [(PdState.low_iff _).2 (hcpu e)] at f
      cases f
    have run : exec (.domainEntryDone d) s =
        .next ((s.lose d).onDom fun x => x.set d { st := .off }).startWanted := by
      simp only [exec, execDomainEntryDone, h, hw]
      exact if_neg hl
    refine ⟨_, run, ?_⟩
    by_cases hg : d = .gauge
    · subst hg
      rw [State.startWanted_get _ .gauge rfl, State.startWanted_gauge]
      exact ⟨by simp, fun e => absurd rfl e, nofun, nofun, nofun, fun _ => rfl, nofun, nofun, nofun⟩
    · rw [State.startWanted_none _ fun x => ?_]
      · refine ⟨by simp, fun _ x hx => (Domains.get_set_other _ _ hx).trans (lose_get s d x hg), ?_, ?_, ?_, fun e => absurd e hg,
          ?_, ?_, ?_⟩
        case refine_1 => rintro rfl; exact ⟨rfl, fun n => by simp [State.lose, Berths.loseMemB, Berth.loseMemB]⟩
        all_goals rintro rfl
        · simp [State.lose, Link.lose, Power.lose, Power.chargerOff]
        · simp [State.lose, Events.lose]
        · rfl
        · exact ⟨rfl, rfl, rfl⟩
        · exact ⟨rfl, rfl⟩
      · by_cases e : x = d
        · subst e; simp
        · simp [Domains.get_set_other _ _ e, lose_get s d x hg, hw]
  · simp only [exec, execDomainEntryDone]
    split
    · exact absurd ‹_› (h _)
    · exact absurd ‹_› (h _)
    · rfl

/-- Settles O30: what an entry changes is said once, by the domain that it concerns, and so is what defers it. -/
theorem domainsLeaveOn : Obligations.DomainsLeaveOn :=
  ⟨idleAndDeferredEntriesTakePlace, entriesAreBlockedByTheirRules, waitInstructionTakesTheCpuOff, entriesEndInRetOrOff⟩

end Sys2Proof.Proofs
end

section
/-! PROOFS. The Log engine's shared operations (R251, R281, R302, R356, R375): what events and records leave unchanged, what a
charge of Log time changes, and what a free slot starts. -/

namespace Sys2Proof.Machine

/-! ## Events and records -/

/-- `t` differs from `s` by events and records alone: every other part stays, no event is taken back, and of firmware only the
records that wait change. -/
structure Reported (s t : State) : Prop where
  frame : t = { s with dom := t.dom, ev := t.ev, berths := t.berths, fw := t.fw, free := t.free }
  fw : t.fw = { s.fw with recQ := t.fw.recQ }
  logTime : ∀ b : Fin 4, t.berths.blk[b].logTime = s.berths.blk[b].logTime
  raised : ∀ n, s.ev.raised.getLsbD n = true → t.ev.raised.getLsbD n = true

namespace Reported

variable {s t u : State}

theorem refl (s : State) : Reported s s := ⟨rfl, rfl, fun _ => rfl, fun _ => id⟩

theorem trans (h : Reported s t) (k : Reported t u) : Reported s u where
  frame := by
    obtain ⟨k, -, -, -⟩ := k
    obtain ⟨h, -, -, -⟩ := h
    rw [k, h]
  fw := by rw [k.fw, h.fw]
  logTime b := (k.logTime b).trans (h.logTime b)
  raised n hn := k.raised n (h.raised n hn)

theorem log (h : Reported s t) : t.log = s.log := (congrArg State.log h.frame :)
theorem line (h : Reported s t) : t.line = s.line := (congrArg State.line h.frame :)
theorem flash (h : Reported s t) : t.flash = s.flash := (congrArg State.flash h.frame :)
theorem gauge (h : Reported s t) : t.gauge = s.gauge := (congrArg State.gauge h.frame :)
theorem power (h : Reported s t) : t.power = s.power := (congrArg State.power h.frame :)
theorem cal (h : Reported s t) : t.cal = s.cal := (congrArg State.cal h.frame :)

theorem ite {c : Prop} [Decidable c] {a b : State} (ha : Reported s a) (hb : Reported s b) : Reported s (if c then a else b) := by
  split
  · exact ha
  · exact hb

theorem when (s : State) (c : Bool) (f : State → State) (hf : Reported s (f s)) : Reported s (s.when c f) := ite hf (refl s)

/-- A fold reports what each of its steps does. -/
theorem foldl {α : Type} (f : State → α → State) (hf : ∀ t x, Reported t (f t x)) (xs : List α) (s : State) :
    Reported s (xs.foldl f s) := by
  induction xs generalizing s with
  | nil => exact refl s
  | cons x xs ih => exact (hf s x).trans (ih _)

theorem raise (s : State) (e : Nat) : Reported s (s.raise e) := by
  have h := Answered.raise s e
  refine ⟨State.ext_parts ?_ ?_ ?_ ?_ ?_ ?_ rfl ?_ ?_ rfl rfl ?_ ?_ ?_ rfl rfl ?_, by simp, fun b => by simp, h.raised⟩
  all_goals simp

theorem need (s : State) (d : Domain) : Reported s (s.need d) := by
  refine ⟨State.ext_parts ?_ ?_ ?_ ?_ ?_ ?_ rfl ?_ ?_ rfl rfl ?_ ?_ ?_ rfl rfl ?_, by simp, fun b => by simp, fun n hn => by simpa using hn⟩
  all_goals simp

theorem fill (s : State) (fs : List (Nat × Option (List Byte))) : Reported s (s.fill fs).2 := by
  unfold State.fill
  exact ite (refl s) ⟨rfl, rfl, fun _ => rfl, fun _ => id⟩

/-- A change of a berth's block that leaves its Log time. -/
theorem onBerth (s : State) (b : Fin 4) (f : Berth → Berth) (hf : ∀ k, (f k).logTime = k.logTime := by exact fun _ => rfl) :
    Reported s (s.onBerth b f) := by
  refine ⟨rfl, rfl, fun n => ?_, fun _ => id⟩
  by_cases h : b = n
  · subst h
    exact (congrArg Berth.logTime (s.onBerth_same b f)).trans (hf _)
  · exact congrArg Berth.logTime (s.onBerth_other b n h f)

/-- Bytes of MEM_B. -/
theorem onMem (s : State) (f : Berths → List Host.Cell) : Reported s (s.onBerths fun x => { x with mem := f x }) :=
  ⟨rfl, rfl, fun _ => rfl, fun _ => id⟩

theorem putRecord (s : State) (r : Rec) : Reported s (s.putRecord r) := by
  obtain ⟨b, stamp, type, path, rflags, payload⟩ := r
  simp only [State.putRecord]
  split
  · exact (onBerth s b _).trans (when _ _ _ (raise _ _))
  · exact ((onMem s _).trans (onBerth _ b _)).trans (when _ _ _ (raise _ _))

theorem record (s : State) (b : Fin 4) (stamp : BitVec 64) (type path rflags : Byte) (payload : List Byte) :
    Reported s (s.record b stamp type path rflags payload) := by
  unfold State.record
  refine ite (putRecord s _) (trans (t := s.onFw _) ⟨rfl, rfl, fun _ => rfl, fun _ => id⟩ (when _ _ _ (need _ _)))

theorem pathRecord (s : State) (p : Path) (stamp : BitVec 64) (type rflags : Byte) (fs : List (Nat × Option (List Byte))) :
    Reported s (s.pathRecord p stamp type rflags fs) := by
  unfold State.pathRecord
  split
  · exact (fill s fs).trans (record _ _ _ _ _ _ _)
  · exact refl s

end Reported

variable (s : State)

/-- A raised event is latched (R302). -/
theorem State.raise_latched (e : Nat) (he : e < 96) : (s.raise e).ev.raised.getLsbD e = true := by
  simp [latch_bit _ e e he]

/-! ## Paths and Log time -/

@[simp] theorem State.onPath_same (p : Path) (f : PathSt → PathSt) : (s.onPath p f).log.path p = f (s.log.path p) := by
  cases p <;> rfl

/-- A path is changed and nothing else. -/
theorem State.onPath_log (p : Path) (f : PathSt → PathSt) :
    (s.onPath p f).log = { s.log with a := (s.onPath p f).log.a, b := (s.onPath p f).log.b } := by cases p <;> rfl

/-- Charging Log time adds to its berth and changes nothing else (R251). -/
theorem State.charge_blk (h : Option (Fin 4)) (n : Nat) (b : Fin 4) : (s.charge h n).berths.blk[b] =
    { s.berths.blk[b] with logTime := s.berths.blk[b].logTime + (if h = some b then n else 0) } := by
  cases h with
  | none => rfl
  | some c =>
    by_cases e : c = b
    · subst e
      exact (s.onBerth_same c _).trans (by simp [State.berth])
    · rw [if_neg (by simpa using e)]
      exact s.onBerth_other c b e _

theorem State.charge_frame (h : Option (Fin 4)) (n : Nat) :
    s.charge h n = { s with berths := { s.berths with blk := (s.charge h n).berths.blk } } := by cases h <;> rfl

theorem State.charge_log (h : Option (Fin 4)) (n : Nat) : (s.charge h n).log = s.log := by cases h <;> rfl

/-! ## A free slot (R375) -/

/-- `t` is `s`, but that in a free slot shots may have begun. -/
structure Slotted (s t : State) : Prop where
  frame : t = { s with dom := t.dom, ev := t.ev, log := t.log }
  log : t.log = { s.log with cur := t.log.cur, a := t.log.a, b := t.log.b }
  path : ∀ p, t.log.path p = { s.log.path p with
    due := (t.log.path p).due, delayed := (t.log.path p).delayed, snum := (t.log.path p).snum }
  cur : t.log.cur = s.log.cur ∨ ∃ y, t.log.cur = some y ∧ y.shots = []
  raised : ∀ n, s.ev.raised.getLsbD n = true → t.ev.raised.getLsbD n = true

namespace Slotted

variable {s t : State}

theorem refl (s : State) : Slotted s s := ⟨rfl, rfl, fun _ => rfl, .inl rfl, fun _ => id⟩

theorem line (h : Slotted s t) : t.line = s.line := (congrArg State.line h.frame :)
theorem flash (h : Slotted s t) : t.flash = s.flash := (congrArg State.flash h.frame :)
theorem gauge (h : Slotted s t) : t.gauge = s.gauge := (congrArg State.gauge h.frame :)
theorem power (h : Slotted s t) : t.power = s.power := (congrArg State.power h.frame :)
theorem cal (h : Slotted s t) : t.cal = s.cal := (congrArg State.cal h.frame :)
theorem fw (h : Slotted s t) : t.fw = s.fw := (congrArg State.fw h.frame :)
theorem berths (h : Slotted s t) : t.berths = s.berths := (congrArg State.berths h.frame :)

theorem raise (h : Slotted s t) (e : Nat) : Slotted s (t.raise e) := by
  refine ⟨?_, by simpa using h.log, by simpa using h.path, by simpa using h.cur,
    fun n hn => (Answered.raise t e).raised n (h.raised n hn)⟩
  have k := (Answered.raise t e).frame
  rw [State.raise_berths] at k
  rw [k, h.frame]

/-- A sounding starts (R356, R376). -/
theorem startSounding (s : State) (p : Path) : Slotted s (s.startSounding p) := by
  have h (x : Sounding) (hx : x.shots = []) : Slotted s ((s.onPath p fun t =>
      { t with due := false, delayed := false, snum := t.snum + 1 }).onLog fun l => { l with cur := some x }) := by
    refine ⟨by cases p <;> rfl, by cases p <;> rfl, fun q => ?_, .inr ⟨x, rfl, hx⟩, fun _ hn => by cases p <;> exact hn⟩
    cases p <;> cases q <;> rfl
  unfold State.startSounding State.when
  dsimp only
  split
  · exact (h _ rfl).raise 70
  · exact h _ rfl

/-- The next pair of a learn starts (R343). -/
theorem startLearn (s : State) (p : Path) : Slotted s (s.startLearn p) :=
  ⟨rfl, rfl, fun q => by cases q <;> rfl, .inr ⟨_, rfl, rfl⟩, fun _ => id⟩

theorem startNext (s : State) : Slotted s s.startNext := by
  unfold State.startNext
  split
  · split
    · exact startSounding s _
    · split
      · exact startSounding s _
      · split
        · exact startLearn s _
        · exact refl s
  · exact refl s

end Slotted

end Sys2Proof.Machine
end

section
/-! PROOFS. RTD sets (R372 to R375): when a set falls due, when a conversion of it starts, and how one ends. -/

namespace Sys2Proof.Machine

variable (s : State)

/-! ## The results of a complete set (R373, R374) -/

/-- The two TREF times of a set, where both were taken. -/
def RtdSet.refs (r : RtdSet) : Option (Nat × Nat) :=
  match (r.done.filter fun d => d.1 == 4).map (·.2) with
  | [some a, some b] => some (a, b)
  | _ => none

/-- The result of each enabled input. -/
def RtdSet.results (r : RtdSet) : List (Fin 4 × RtdResult) :=
  (rtdInputs r.blk).map fun n =>
    (n, rtdInput r.blk (match r.refs with | some (a, b) => refOk a b | none => false) (r.refs.map fun v => v.1 + v.2) n
      ((r.done.find? fun d => d.1 == n.castSucc).bind (·.2)))

/-- A result for each enabled input, in their order. -/
theorem RtdSet.results_inputs (r : RtdSet) : r.results.map (·.1) = rtdInputs r.blk := by
  simp [RtdSet.results, Function.comp_def]

/-- An input without a time has no temperature, and its cause is an open input or a bad reference (R374). -/
theorem rtdInput_none (blk : List Byte) (ok : Bool) (tref2 : Option Nat) (n : Fin 4) :
    (rtdInput blk ok tref2 n none).temp = none ∧
    ((rtdInput blk ok tref2 n none).cause = 1 ∨ (rtdInput blk ok tref2 n none).cause = 4) := by
  cases ok with
  | false => exact ⟨rfl, .inr rfl⟩
  | true => exact ⟨rfl, .inl rfl⟩

theorem RtdSet.results_untimed (r : RtdSet) (x : Fin 4 × RtdResult) (hx : x ∈ r.results)
    (h : (r.done.find? fun d => d.1 == x.1.castSucc).bind (·.2) = none) :
    x.2.temp = none ∧ (x.2.cause = 1 ∨ x.2.cause = 4) := by
  simp only [RtdSet.results, List.mem_map] at hx
  obtain ⟨n, -, rfl⟩ := hx
  dsimp only at h ⊢
  rw [h]
  exact rtdInput_none _ _ _ _

/-- The log of a set that is complete. -/
def Log.rtdTaken (r : RtdSet) (l : Log) : Log :=
  { l with rtd := none, rtdLast := r.results, rtdSetNo := l.rtdSetNo + 1
           a := { l.a with rtdFresh := true }, b := { l.b with rtdFresh := true } }

/-- A complete set takes its results into the log; the rest is records and events, EV75 and for a fault EV76 (R373, R374). -/
theorem State.rtdComplete_reports (r : RtdSet) : Reported (s.onLog (Log.rtdTaken r)) (s.rtdComplete r) ∧
    (s.rtdComplete r).ev.raised.getLsbD 75 = true ∧
    ((∃ x ∈ r.results, x.2.cause ≠ 0) → (s.rtdComplete r).ev.raised.getLsbD 76 = true) := by
  have run : ∃ u, Reported (s.onLog (Log.rtdTaken r)) u ∧
      s.rtdComplete r = (u.raise 75).when (r.results.any fun x => x.2.cause != 0) (State.raise 76) := by
    refine ⟨_, ?_, rfl⟩
    refine Reported.foldl _ (fun t x => ?_) r.results _
    dsimp only
    split
    · exact (Reported.fill t _).trans (Reported.record _ _ _ _ _ _ _)
    · exact Reported.refl t
  obtain ⟨u, hu, e⟩ := run
  rw [e]
  have last := Reported.when (u.raise 75) (r.results.any fun x => x.2.cause != 0) _ (Reported.raise _ 76)
  refine ⟨(hu.trans (Reported.raise u 75)).trans last, last.raised 75 (u.raise_latched 75 (by decide)), fun ⟨x, hx, hc⟩ => ?_⟩
  have : (r.results.any fun x => x.2.cause != 0) = true := List.any_eq_true.2 ⟨x, hx, by simpa using hc⟩
  rw [this]
  exact State.raise_latched _ 76 (by decide)

/-! ## The end of a conversion (R251, R372) -/

/-- A set with one conversion more. -/
def RtdSet.take (r : RtdSet) (c : Fin 5) (rest : List (Fin 5)) (t : Option Nat) (now : Nat) : RtdSet :=
  { r with left := rest, done := r.done ++ [(c, t)], running := false, since := now }

/-- What the end of a conversion changes: its charge, the set, and what the free slot then starts. -/
theorem State.rtdEnds_parts (r : RtdSet) (c : Fin 5) (rest : List (Fin 5)) (t : Option Nat) :
    let u := s.rtdEnds r c rest t
    let taken := r.take c rest t s.trim.raw
    (∀ b : Fin 4, u.berths.blk[b].logTime = s.berths.blk[b].logTime + (if s.rtdHolder r.blk c = some b then rtdTime t else 0)) ∧
    (rest ≠ [] → u.log.rtd = some taken ∧ u.log.rtdLast = s.log.rtdLast) ∧
    (rest = [] → u.log.rtd = none ∧ u.log.rtdSetNo = s.log.rtdSetNo + 1 ∧ u.ev.raised.getLsbD 75 = true ∧
      u.log.a.rtdFresh = true ∧ u.log.b.rtdFresh = true ∧ u.log.rtdLast = taken.results ∧
      ((∃ x ∈ u.log.rtdLast, x.2.cause ≠ 0) → u.ev.raised.getLsbD 76 = true)) ∧
    u.flash = s.flash ∧ u.gauge = s.gauge ∧ u.fw = { s.fw with recQ := u.fw.recQ } ∧ u.line = s.line := by
  intro u taken
  let w := (s.charge (s.rtdHolder r.blk c) (rtdTime t)).onLog fun l => { l with rtd := some taken }
  have hw : ∀ b : Fin 4, w.berths.blk[b].logTime = s.berths.blk[b].logTime +
      (if s.rtdHolder r.blk c = some b then rtdTime t else 0) := fun b => congrArg Berth.logTime (s.charge_blk _ _ b)
  have ew : w = { s with berths := w.berths, log := { s.log with rtd := some taken } } := by
    simp only [w, State.onLog]
    rw [s.charge_frame]
  cases rest with
  | cons x xs =>
    have k : Slotted w u := Slotted.startNext w
    refine ⟨fun b => by rw [k.berths, hw], fun _ => ?_, nofun, ?_⟩
    · rw [k.log, ew]
      exact ⟨rfl, rfl⟩
    · rw [k.flash, k.gauge, k.fw, k.line, ew]
      exact ⟨rfl, rfl, rfl, rfl⟩
  | nil =>
    have k : Slotted (w.rtdComplete taken) u := Slotted.startNext _
    obtain ⟨rep, h75, h76⟩ := w.rtdComplete_reports taken
    have el : u.log = { w.log.rtdTaken taken with
        cur := u.log.cur, a := u.log.a, b := u.log.b } := k.log.trans (by rw [rep.log]; rfl)
    have ea : ∀ p, (u.log.path p).rtdFresh = true := fun p => by
      rw [k.path p, rep.log]
      cases p <;> rfl
    refine ⟨fun b => by rw [k.berths, rep.logTime]; exact hw b, nofun, fun _ => ?_, ?_⟩
    · refine ⟨by rw [el]; rfl, ?_, k.raised _ h75, ea .a, ea .b, by rw [el]; rfl, fun h => k.raised _ (h76 ?_)⟩
      · rw [el, ew]
        rfl
      · rwa [el] at h
    · rw [k.flash, k.gauge, k.fw, k.line, rep.flash, rep.gauge, rep.line, rep.fw, ew]
      exact ⟨rfl, rfl, rfl, rfl⟩

end Sys2Proof.Machine

namespace Sys2Proof.Proofs

open Sys2Proof Sys2Proof.Machine

/-- Settles O50: the end of a conversion is its charge, the set with its time, and then the records of a complete set and the free
slot. -/
theorem rtdSetsRun : Obligations.RtdSetsRun := by
  intro s time ins
  refine ⟨fun h => ?_, fun h => ?_, fun h c hc => ?_, fun r hr => ⟨fun hl c hc => ?_, fun c rest hl => ?_⟩⟩
  · simp only [exec, execRtdSetDue]
    rw [if_neg (by rw [h]; exact Bool.false_ne_true)]
  · have run : exec .rtdSetDue s = .next (if s.isOn .log
        then s.onLog fun l => { l with rtd := some { blk := l.rtdBlk, left := 4 :: ins.map Fin.castSucc ++ [4], since := s.trim.raw } }
        else (s.onLog fun l => { l with
          rtd := some { blk := l.rtdBlk, left := 4 :: ins.map Fin.castSucc ++ [4], since := s.trim.raw } }).bringOn .log) := by
      simp only [exec, execRtdSetDue]
      rw [if_pos h]
      exact (apply_ite Host.Outcome.next _ _ _).symm
    refine ⟨_, run, ?_⟩
    cases hon : s.isOn .log with
    | true => exact ⟨rfl, fun _ => rfl, nofun, rfl, rfl, rfl⟩
    | false => exact ⟨rfl, nofun, fun _ => rfl, rfl, rfl, rfl⟩
  · simp only [List.mem_cons, List.not_mem_nil, or_false] at hc
    rcases hc with rfl | rfl | rfl <;>
      simp only [exec, execRtdConversionStart, execRtdConversionDone, execRtdDischargeTimeout, h]
  · simp only [List.mem_cons, List.not_mem_nil, or_false] at hc
    rcases hc with rfl | rfl | rfl <;>
      simp only [exec, execRtdConversionStart, execRtdConversionDone, execRtdDischargeTimeout, hr, hl]
  · intro may charged
    have start : exec .rtdConversionStart s = if may then .next (((s.onPath .a fun t =>
          { t with delayed := t.delayed || s.startable .a }).onPath .b fun t => { t with delayed := t.delayed || s.startable .b }).onLog
            fun l => { l with rtd := some { r with running := true } }) else .next s := by
      simp only [exec, execRtdConversionStart, hr, hl]
      rfl
    have done (h : r.running = true) (ht : time < 115200000) :
        exec (.rtdConversionDone time) s = .next (s.rtdEnds r c rest (some time)) := by
      simp only [exec, execRtdConversionDone, hr, hl, h, decide_eq_true ht]
      rfl
    have timeout (h : r.running = true) : exec .rtdDischargeTimeout s = .next (s.rtdEnds r c rest none) := by
      simp only [exec, execRtdDischargeTimeout, hr, hl, h]
      rfl
    refine ⟨fun h => ?_, fun h => ?_, fun h => ?_, fun h => ?_, fun h ht => ?_, fun h => ?_⟩
    · rw [start, if_neg (by rw [h]; exact Bool.false_ne_true)]
    · rw [start, if_pos h]
      have hc : s.log.cur = none := by
        simp only [may, State.freeSlot, Bool.and_eq_true, Option.isNone_iff_eq_none] at h
        exact h.1.1.1.1.1.2
      exact ⟨_, rfl, rfl, rfl, hc, fun p => by cases p <;> rfl⟩
    · simp only [exec, execRtdConversionDone, hr, hl]
      refine if_neg fun e => ?_
      obtain ⟨hr', ht⟩ := Bool.and_eq_true_iff.1 e
      have ht := of_decide_eq_true ht
      rcases h with h | h
      · rw [h] at hr'; cases hr'
      · omega
    · simp only [exec, execRtdDischargeTimeout, hr, hl, h]
      rfl
    · obtain ⟨hb, hmore, hlast, hf, hg, hfw, hln⟩ := s.rtdEnds_parts r c rest (some time)
      refine ⟨_, done h ht, hb, hmore, fun e => ?_, hf, hg, hfw, hln⟩
      obtain ⟨h0, h1, h2, h3, h4, h5, h6⟩ := hlast e
      exact ⟨h0, h1, h2, h3, h4, by rw [h5]; exact RtdSet.results_inputs _, h6⟩
    · obtain ⟨hb, hmore, hlast, -⟩ := s.rtdEnds_parts r c rest none
      refine ⟨_, timeout h, hb, fun e => (hmore e).1, fun e => ?_⟩
      obtain ⟨h0, h1, -, -, -, h5, -⟩ := hlast e
      refine ⟨h0, h1, ?_⟩
      rw [h5]
      exact fun x => RtdSet.results_untimed _ x

end Sys2Proof.Proofs
end

section
/-! PROOFS. The burst of a shot and its ports (R315 to R323), and the quiet window that a shot asks for (R331, R333, R334). -/

namespace Sys2Proof.Machine

/-! ## The grid of a burst (R318) -/

/-- The grid point of a half-cycle, as a quotient of natural numbers. -/
theorem halfCycleAt_eq (fd m : Nat) : halfCycleAt fd m = (4096000 * m + fd) / (2 * fd) := by
  have h : (0 : Int) ≤ ((2048000 * m : Nat) : Int) := Int.natCast_nonneg _
  have e : 2 * ((2048000 * m : Nat) : Int) + (fd : Int) = ((4096000 * m + fd : Nat) : Int) := by push_cast; ring
  have d : 2 * (fd : Int) = ((2 * fd : Nat) : Int) := by push_cast; ring
  rw [halfCycleAt, divRound, if_pos h, e, d, ← Int.natCast_ediv, Int.toNat_natCast]

/-- Bytes in order are below their count of 256s. -/
theorem leNat_lt (bs : List Byte) : leNat bs < 256 ^ bs.length := by
  induction bs with
  | nil => simp [leNat]
  | cons b bs ih =>
    have := b.isLt
    simp only [leNat, List.length_cons, Nat.pow_succ]
    omega

/-- FD is a field of two bytes. -/
theorem acqFd_lt (a : List Byte) : acqFd a < 65536 := by
  have := leNat_lt (slice a 0 2)
  simpa [acqFd, leAt, slice] using this

/-- A burst has no grid at a drive frequency of 0. -/
theorem halfCycleAt_zero (m : Nat) : halfCycleAt 0 m = 0 := by rw [halfCycleAt_eq]; simp

/-- At any other, no half-cycle ends at the fire edge. -/
theorem halfCycleAt_pos (a : List Byte) (m : Nat) (h : acqFd a ≠ 0) : 0 < halfCycleAt (acqFd a) (m + 1) := by
  have := acqFd_lt a
  rw [halfCycleAt_eq]
  exact Nat.div_pos (by omega) (by omega)

/-- The grid point is within half a unit of the half-cycle's own instant. -/
theorem halfCycleAt_nearest (fd m : Nat) (h : fd ≠ 0) :
    2 * ((fd : Int) * halfCycleAt fd m - 2048000 * m) ≤ fd ∧ -(fd : Int) ≤ 2 * ((fd : Int) * halfCycleAt fd m - 2048000 * m) := by
  have hm := Nat.div_add_mod (4096000 * m + fd) (2 * fd)
  have hr := Nat.mod_lt (4096000 * m + fd) (show 2 * fd > 0 by omega)
  rw [← halfCycleAt_eq, Nat.mul_assoc] at hm
  generalize (4096000 * m + fd) % (2 * fd) = r at hm hr
  rw [← Int.natCast_mul]
  generalize fd * halfCycleAt fd m = y at hm
  omega

/-! ## The drive (R318, R319) -/

theorem driveAt_over (a : List Byte) (inv : Bool) (g : Nat) (h : driveEnd a ≤ g) : driveAt a inv g = none := if_pos h

/-- Within the burst and its braking, the level of UTnP. -/
def driveHigh (a : List Byte) (inv : Bool) (g : Nat) : Bool :=
  (halfCycleOf a g % 2 == 0) != (decide (2 * acqBurst a ≤ halfCycleOf a g) != inv)

theorem driveAt_within (a : List Byte) (inv : Bool) (g : Nat) (h : g < driveEnd a) :
    driveAt a inv g = some (driveHigh a inv g, !driveHigh a inv g && !acqHalf a) := if_neg (Nat.not_le.2 h)

/-- An inverted burst has the other level throughout. -/
theorem driveHigh_not (a : List Byte) (inv : Bool) (g : Nat) : driveHigh a (!inv) g = !driveHigh a inv g := by
  cases inv <;> simp [driveHigh]

/-- The fire edge lies in the first half-cycle. -/
theorem halfCycleOf_zero (a : List Byte) (h : acqFd a ≠ 0) : halfCycleOf a 0 = 0 := by
  rw [halfCycleOf, List.length_eq_zero_iff, List.filter_eq_nil_iff]
  exact fun m _ e => absurd (of_decide_eq_true e) (Nat.not_le.2 (halfCycleAt_pos a m h))

/-! ## Parts of a state with a shot in progress -/

variable (s : State)

/-- The shot in progress is changed and nothing else. -/
theorem State.onShot_some {x : Sounding} (h : s.log.cur = some x) (f : Shot → Shot) :
    s.onShot f = s.onLog fun l => { l with cur := some { x with shot := f x.shot } } := by
  simp only [State.onShot, State.onLog, h, Option.map_some]

/-- L of a shot's request is within the limit of 6,400 (R331). -/
theorem quietLength_le (acq : List Byte) : (quietLength acq).toNat ≤ 6400 := by
  rw [quietLength, BitVec.toNat_ofNat]
  exact Nat.le_trans (Nat.mod_le _ _) (Nat.min_le_right _ _)

/-- A frame that starts takes no answer from the queue. -/
theorem Link.send_quietQ (l : Link) : l.send.quietQ = l.quietQ := by
  unfold Link.send
  repeat' split
  all_goals rfl

/-- A request that finds no window of the module's own open opens one (R84, R333). -/
theorem State.grantLocally_opens (edge : Nat) (tag : BitVec 3) (len : BitVec 13) (h0 : len ≠ 0) (hl : len.toNat ≤ 6400)
    (hw : ∀ w, s.link.window = some w → ¬(s.link.windowLocal = true ∧ edge < w.closeEdge)) :
    s.grantLocally edge tag len = { s with
      link := { s.link with window := some ⟨edge, edge + windowEdges len⟩, windowLocal := true, overrideAt := none }
      power := { s.power with paused := true } } := by
  have hn : ¬(s.link.windowLocal && (s.link.window.map fun w => decide (edge < w.closeEdge)).getD false) = true := by
    cases e : s.link.window with
    | none => simp
    | some w => simpa using hw w e
  simp only [State.grantLocally]
  rw [if_neg (by rw [not_or]; exact ⟨h0, by omega⟩), if_neg hn]
  rfl

/-- One that is refused leaves the window, and marks the shot (R84, R333). -/
theorem State.grantLocally_refuses (edge : Nat) (tag : BitVec 3) (len : BitVec 13) {x : Sounding} (hx : s.log.cur = some x)
    (h : len = 0 ∨ ∃ w, s.link.window = some w ∧ s.link.windowLocal = true ∧ edge < w.closeEdge) :
    (s.grantLocally edge tag len).link.window = s.link.window ∧
    (s.grantLocally edge tag len).log.cur = some { x with shot := { x.shot with refused := true } } ∧
    (s.grantLocally edge tag len).power = s.power := by
  have refuse (c : BitVec 3) : let t := (s.when (s.isOn .pwr) (State.onLink (Link.quietAnswer tag 2 c))).onShot fun k =>
      { k with refused := true }
      t.link.window = s.link.window ∧ t.log.cur = some { x with shot := { x.shot with refused := true } } ∧ t.power = s.power := by
    cases s.isOn .pwr <;> simp [State.onShot, Link.quietAnswer, hx]
  simp only [State.grantLocally]
  split
  · exact refuse 2
  · rename_i hn
    obtain ⟨w, hw, hloc, he⟩ := h.resolve_left fun e => hn (.inl e)
    rw [if_pos (by simp [hw, hloc, he])]
    exact refuse 0

end Sys2Proof.Machine

namespace Sys2Proof.Proofs

open Sys2Proof Sys2Proof.Machine

theorem portsAndBurstsFollowTheShot : Claims.PortsAndBurstsFollowTheShot := by
  intro s x n a g m inv
  refine ⟨fun h => if_neg ?_, rfl, rfl, rfl, fun h => ?_, fun h => ?_, ?_, halfCycleAt_nearest _ m, rfl,
    driveAt_over a inv g, fun h => ⟨_, driveAt_within a inv g h, ?_⟩, fun hb hd => ?_⟩
  · rcases h with h | h | h <;> rw [h] <;> simp
  · simp only [Sounding.firing, Sounding.receiving, Sounding.leg, legOf, h]
    cases x.plan.swapped <;> exact ⟨rfl, rfl, rfl⟩
  · simp only [Sounding.firing, Sounding.receiving, Sounding.leg, legOf, h]
    cases x.plan.swapped <;> exact ⟨rfl, rfl, rfl⟩
  · cases e : x.plan.swapped <;> simp [Sounding.inverted, e]
  · rw [driveAt_within a (!inv) g h, driveHigh_not, Bool.not_not]
  · have hf : acqFd a ≠ 0 := fun e => by
      rw [driveEnd, e, halfCycleAt_zero] at hd
      exact absurd hd (Nat.lt_irrefl _)
    have hh : driveHigh a false 0 = true := by
      simp only [driveHigh, halfCycleOf_zero a hf]
      simpa using hb
    rw [driveAt_within a false 0 hd, hh]
    rfl

theorem shotsAskForQuiet : Claims.ShotsAskForQuiet := by
  intro s edge lclk
  refine ⟨fun h => by simp only [exec, execShotQuietRequest, h], fun x hx => ?_⟩
  intro len req mine asked open_
  have run (h : (s.askAt x edge && !s.inGuard lclk 0) = true) : exec (.shotQuietRequest edge lclk) s =
      if s.link.state = .down then .next (asked.grantLocally edge s.log.quietTag len)
      else if s.link.downlinkRuns then .next ((asked.onLink fun l => Link.send { l with
        quietQ := l.quietQ ++ [req], quietDue := l.quietDue ++ [req] }).chargerFollows)
      else .next asked := by
    simp only [exec, execShotQuietRequest, hx, s.onShot_some hx, h]
    rfl
  refine ⟨fun h => ?_, fun h => ⟨fun hd hr => ?_, fun hd hr => ?_, fun hd hw h0 => ?_, fun hd hw => ?_⟩⟩
  · simp only [exec, execShotQuietRequest, hx]
    exact if_neg (by rw [h]; exact Bool.false_ne_true)
  · rw [run h, if_neg hd, if_neg (by rw [hr]; exact Bool.false_ne_true)]
  · rw [run h, if_neg hd, if_pos hr]
    simp only [State.chargerFollows, State.onPower, State.onLink, Link.send_quietQ]
    simp [asked]
  · rw [run h, if_pos hd, asked.grantLocally_opens edge _ len h0 (quietLength_le _) hw]
  · exact ⟨_, (run h).trans (if_pos hd), asked.grantLocally_refuses edge _ len rfl hw⟩

end Sys2Proof.Proofs
end

section
/-! PROOFS. The end of a shot (R342, R343, R348 to R350, R353, R357, R366 to R371): its events and its record, what it makes of
the log, and how the interval of a sounding that it completes is credited. -/

namespace Sys2Proof.Machine

/-! ## What crediting leaves of a path (R357, R364, R368 to R371) -/

/-- `p'` differs from `p` by what the credit of an interval and the rate states change. -/
def Credits (p p' : PathSt) : Prop :=
  p' = { p with
    totals := p'.totals, spans := p'.spans, tPrev := p'.tPrev, hold := p'.hold, history := p'.history, missFrom := p'.missFrom
    lastQ := p'.lastQ, lastVel := p'.lastVel, lastValid := p'.lastValid, flowing := p'.flowing, detCount := p'.detCount
    quietOpen := p'.quietOpen, lastDue := p'.lastDue, nextDue := p'.nextDue }

/-- An invalid sounding begins a hold after a valid one, and without one there is nothing to hold (R369). -/
def PathSt.entersHold (p : PathSt) : PathSt :=
  if p.hold == .normal && p.lastValid.isSome then { p with hold := .hold }
  else if p.hold == .normal then { p with hold := .invalid }
  else p

/-- Within the window of a hold the held flow is credited; at its end, and in INVALID, time is missing (R369, R370). -/
theorem PathSt.invalid_eq (p : PathSt) (leeway : Bool) (t : Inst) : p.invalid leeway t =
    if p.entersHold.hold == .hold then
      if t.edge < p.entersHold.holdClose.edge then
        { path := p.entersHold.until_ t (if leeway then none else some p.entersHold.lastQ) none, held := !leeway
          starts := p.hold == .normal && p.lastValid.isSome }
      else { path := (p.entersHold.holdEnd leeway).until_ t none none, starts := p.hold == .normal && p.lastValid.isSome
             expires := true }
    else { path := p.entersHold.until_ t none none, starts := p.hold == .normal && p.lastValid.isSome } := rfl

namespace Credits

variable {p q r : PathSt}

theorem refl (p : PathSt) : Credits p p := rfl

theorem history (p : PathSt) (l : List Rat) : Credits p { p with history := l } := rfl

theorem trans (h : Credits p q) (k : Credits q r) : Credits p r := by
  unfold Credits at h k ⊢
  rw [k, h]

theorem credit (p : PathSt) (a b : Inst) (v : Option Int) : Credits p (p.credit a b v) := by
  unfold PathSt.credit PathSt.span
  cases v <;> dsimp only <;> split <;> rfl

theorem creditHeat (p : PathSt) (en : Bool) (n : Nat) (phi : Option Int) : Credits p (p.creditHeat en n phi) := by
  cases en
  · rfl
  · cases phi <;> rfl

theorem missSince (p : PathSt) (en : Bool) (now : BitVec 64) : Credits p (p.missSince en now) := by
  unfold PathSt.missSince
  split
  · exact (creditHeat p en _ none).trans rfl
  · rfl

theorem until_ (p : PathSt) (t : Inst) (v phi : Option Int) : Credits p (p.until_ t v phi) := by
  unfold PathSt.until_
  split
  · split
    · exact ((credit p _ t v).trans (creditHeat _ _ _ _)).trans rfl
    · rfl
  · rfl

theorem holdEnd (p : PathSt) (leeway : Bool) : Credits p (p.holdEnd leeway) := by
  unfold PathSt.holdEnd
  split
  · split
    · exact ((credit p _ _ _).trans (creditHeat _ _ _ _)).trans rfl
    · rfl
  · rfl

theorem valid (p : PathSt) (leeway : Bool) (t : Inst) (v vel : Int) (phi : Option Int) :
    Credits p (p.valid leeway t v vel phi).path := (until_ p _ _ _).trans rfl

theorem invalid (p : PathSt) (leeway : Bool) (t : Inst) : Credits p (p.invalid leeway t).path := by
  have h : Credits p p.entersHold := by
    unfold PathSt.entersHold
    repeat' split
    all_goals rfl
  rw [PathSt.invalid_eq]
  split
  · split
    · exact h.trans (until_ _ _ _ _)
    · exact (h.trans (holdEnd _ _)).trans (until_ _ _ _ _)
  · exact h.trans (until_ _ _ _ _)

end Credits

section
variable (p : PathSt)

/-- With no entry restored, nothing is missing since one (R387). -/
theorem PathSt.missSince_none (en : Bool) (now : BitVec 64) (h : p.missFrom = none) : p.missSince en now = p := by
  simp only [PathSt.missSince, h]

/-- EV71 is for the first invalid sounding after a valid one. -/
theorem PathSt.invalid_starts (leeway : Bool) (t : Inst) :
    (p.invalid leeway t).starts = (p.hold == .normal && p.lastValid.isSome) := by
  rw [PathSt.invalid_eq]
  repeat' split
  all_goals rfl

/-- An interval without heat, from the instant credited last: its flow, or that it is missing. -/
theorem PathSt.until_credits (t f : Inst) (v phi : Option Int) (hp : p.tPrev = some f) (hf : f.edge < t.edge)
    (hh : flowHeat p.flow = false) :
    (p.until_ t v phi).tPrev = some t ∧ (p.until_ t v phi).totals =
      match v with
      | some v => p.totals.volume v (t.units - f.units)
      | none => p.totals.noFlow (t.units - f.units) := by
  have e : p.until_ t v phi = { p.credit f t v with tPrev := some t } := by
    simp only [PathSt.until_, hp, hf, if_true, hh]
    rfl
  rw [e]
  refine ⟨rfl, ?_⟩
  simp only [PathSt.credit, PathSt.span, apply_ite PathSt.totals, ite_self]
  cases v <;> rfl

/-- The hold and what is held stay. -/
theorem PathSt.until_holds (t : Inst) (v phi : Option Int) : (p.until_ t v phi).hold = p.hold ∧
    (p.until_ t v phi).lastQ = p.lastQ := by
  have c (a : Inst) : (p.credit a t v).hold = p.hold ∧ (p.credit a t v).lastQ = p.lastQ := by
    unfold PathSt.credit PathSt.span
    cases v <;> dsimp only <;> split <;> exact ⟨rfl, rfl⟩
  have h (q : PathSt) (en : Bool) (n : Nat) (f : Option Int) : (q.creditHeat en n f).hold = q.hold ∧
      (q.creditHeat en n f).lastQ = q.lastQ := by
    cases en
    · exact ⟨rfl, rfl⟩
    · cases f <;> exact ⟨rfl, rfl⟩
  unfold PathSt.until_
  split
  · split
    · exact ⟨(h _ _ _ _).1.trans (c _).1, (h _ _ _ _).2.trans (c _).2⟩
    · exact ⟨rfl, rfl⟩
  · exact ⟨rfl, rfl⟩

/-- In INVALID the interval of an invalid sounding is missing. -/
theorem PathSt.invalid_lost (leeway : Bool) (t f : Inst) (hi : p.hold = .invalid) (hp : p.tPrev = some f)
    (hf : f.edge < t.edge) (hh : flowHeat p.flow = false) :
    (p.invalid leeway t).path.hold = .invalid ∧
    (p.invalid leeway t).path.totals = p.totals.noFlow (t.units - f.units) ∧ (p.invalid leeway t).path.tPrev = some t := by
  have e : p.entersHold = p := by simp [PathSt.entersHold, hi]
  rw [PathSt.invalid_eq, e, if_neg (by simp [hi])]
  obtain ⟨h1, h2⟩ := p.until_credits t f none none hp hf hh
  exact ⟨(p.until_holds t none none).1.trans hi, h2, h1⟩

/-- Within the window of a hold, one that begins now or before, the held flow is credited; in a leeway calibration the time is
missing (R366, R369). -/
theorem PathSt.invalid_held (leeway : Bool) (t f : Inst) (hi : p.hold = .hold ∨ p.hold = .normal ∧ p.lastValid.isSome = true)
    (ht : t.edge < p.holdClose.edge) (hp : p.tPrev = some f) (hf : f.edge < t.edge) (hh : flowHeat p.flow = false) :
    (p.invalid leeway t).path.hold = .hold ∧ (p.invalid leeway t).path.lastQ = p.lastQ ∧
    (p.invalid leeway t).path.tPrev = some t ∧ (p.invalid leeway t).path.totals =
      if leeway then p.totals.noFlow (t.units - f.units) else p.totals.volume p.lastQ (t.units - f.units) := by
  have e : p.entersHold = { p with hold := .hold } := by
    rcases hi with hi | ⟨hi, hv⟩
    · rw [show p.entersHold = p by simp [PathSt.entersHold, hi], ← hi]
    · simp [PathSt.entersHold, hi, hv]
  have path : (p.invalid leeway t).path =
      ({ p with hold := .hold } : PathSt).until_ t (if leeway then none else some p.lastQ) none := by
    rw [PathSt.invalid_eq, e]
    exact congrArg Credited.path ((if_pos rfl).trans (if_pos ht))
  rw [path]
  obtain ⟨h1, h2⟩ := ({ p with hold := .hold } : PathSt).until_credits t f (if leeway then none else some p.lastQ) none hp hf hh
  obtain ⟨h3, h4⟩ := ({ p with hold := .hold } : PathSt).until_holds t (if leeway then none else some p.lastQ) none
  refine ⟨h3, h4, h1, h2.trans ?_⟩
  cases leeway <;> rfl

/-- A valid sounding after no hold is credited with its own flow; in INVALID and in a leeway calibration its interval is
missing (R366, R369, R370). -/
theorem PathSt.valid_credits (leeway : Bool) (t f : Inst) (v vel : Int) (phi : Option Int) (hp : p.tPrev = some f)
    (hf : f.edge < t.edge) (hh : flowHeat p.flow = false) :
    (p.valid leeway t v vel phi).path.hold = .normal ∧ (p.valid leeway t v vel phi).path.lastValid = some t ∧
    (p.valid leeway t v vel phi).path.lastQ = v ∧ (p.valid leeway t v vel phi).path.tPrev = some t ∧
    (p.valid leeway t v vel phi).path.totals =
      if leeway || p.hold == .invalid then p.totals.noFlow (t.units - f.units) else p.totals.volume v (t.units - f.units) := by
  obtain ⟨h1, h2⟩ := p.until_credits t f (if leeway || p.hold == .invalid then none else some v) phi hp hf hh
  refine ⟨rfl, rfl, rfl, h1, h2.trans ?_⟩
  cases leeway || p.hold == .invalid <;> rfl

end

/-! ## Velocity, totals and records of a sounding (R357 to R371, R391) -/

variable (s : State)

/-- The path as a sounding finds it: what is missing since a restored entry, and a hold whose window has closed (R369, R387). -/
def PathSt.found (x : Sounding) (ok : Bool) (p : PathSt) : PathSt :=
  let first := p.missSince (flowHeat x.flow) x.firstStamp
  if ok && first.hold == .hold && first.holdClose.edge ≤ x.firstEdge then first.holdEnd (x.cal == some .leeway) else first

/-- The credit of a sounding (R364, R368 to R371). -/
def State.flowCredit (s : State) (x : Sounding) (r : FlowRes) : Credited :=
  let first := (s.log.path x.path).found x (r.cause == 0)
  let hist := if r.cause == 0 then (r.vbar :: first.history).take (flowMedN x.flow) else first.history
  let v := median hist
  let q := volumeFlow x.flow v
  if r.cause == 0 then ({ first with history := hist } : PathSt).valid (x.cal == some .leeway) x.inst (roundRat (q * 1000000000))
    (roundRat (v * 1000000)) (s.heatOf x.path x.flow x.fluid (if r.cause == 0 then some q else none)).phi
  else ({ first with history := hist } : PathSt).invalid (x.cal == some .leeway) x.inst

/-- A condition raises its event, or nothing. -/
theorem State.when_raise (c : Bool) (e : Nat) (he : e < 96) : Reported s (s.when c (State.raise e)) ∧
    (c = true → (s.when c (State.raise e)).ev.raised.getLsbD e = true) := by
  refine ⟨Reported.when s c _ (Reported.raise s e), ?_⟩
  rintro rfl
  exact s.raise_latched e he

/-- A path whose rate state alone has moved (R357). -/
def Rated (p p' : PathSt) : Prop :=
  p' = { p with flowing := p'.flowing, detCount := p'.detCount, quietOpen := p'.quietOpen, lastDue := p'.lastDue
                nextDue := p'.nextDue }

theorem PathSt.rate_rated (p : PathSt) (due : Rat) (above : Option Bool) : Rated p (p.rate due above) := by
  unfold PathSt.rate
  repeat' split
  all_goals rfl

/-- The records of a sounding are records. -/
theorem State.flowRecords_reports (x : Sounding) (r : FlowRes) (heat : HeatRes) (held tfall : Bool) :
    Reported s (s.flowRecords x r heat held tfall) := by
  unfold State.flowRecords
  exact Reported.ite ((Reported.pathRecord _ _ _ _ _ _).trans (Reported.pathRecord _ _ _ _ _ _)) (Reported.pathRecord _ _ _ _ _ _)

/-- The result of a sounding is its credit, with the rate state moved; the rest is events and records. -/
theorem State.flowResult_reports (x : Sounding) (r : FlowRes) :
    ∃ after, Rated (s.flowCredit x r).path after ∧ Reported (s.onPath x.path fun _ => after) (s.flowResult x r) ∧
      (s.flowResult x r).ev.raised.getLsbD (64 + pathNo x.path) = true ∧
      ((s.flowCredit x r).starts = true → (s.flowResult x r).ev.raised.getLsbD 71 = true) := by
  obtain ⟨due, above, late, detect, heat, held, tfall, e⟩ : ∃ due above late detect heat held tfall,
      s.flowResult x r = (((((s.onPath x.path fun _ => if x.cal == some .leeway then (s.flowCredit x r).path
        else (s.flowCredit x r).path.rate due above).when (s.flowCredit x r).starts (State.raise 71)).when late
          (State.raise 72)).when detect (State.raise 73)).raise (64 + pathNo x.path)).when (acqDeliver x.acq 2)
            (State.flowRecords x r heat held tfall) := ⟨_, _, _, _, _, _, _, rfl⟩
  rw [e]
  generalize hu : (s.onPath x.path fun _ => if x.cal == some .leeway then (s.flowCredit x r).path
    else (s.flowCredit x r).path.rate due above) = u
  obtain ⟨r1, h1⟩ := u.when_raise (s.flowCredit x r).starts 71 (by decide)
  generalize u.when (s.flowCredit x r).starts (State.raise 71) = u1 at r1 h1 ⊢
  have r2 := Reported.when u1 late _ (Reported.raise u1 72)
  generalize u1.when late (State.raise 72) = u2 at r2 ⊢
  have r3 := Reported.when u2 detect _ (Reported.raise u2 73)
  generalize u2.when detect (State.raise 73) = u3 at r3 ⊢
  have r4 := Reported.raise u3 (64 + pathNo x.path)
  have h4 := u3.raise_latched (64 + pathNo x.path) (by cases x.path <;> decide)
  generalize u3.raise (64 + pathNo x.path) = u4 at r4 h4 ⊢
  have r5 := Reported.when u4 (acqDeliver x.acq 2) _ (u4.flowRecords_reports x r heat held tfall)
  refine ⟨_, ?_, hu ▸ (((r1.trans r2).trans r3).trans r4).trans r5, r5.raised _ h4,
    fun h => (((r2.trans r3).trans r4).trans r5).raised _ (h1 h)⟩
  split
  · exact rfl
  · exact PathSt.rate_rated _ _ _

/-- What a sounding's credit leaves of its path. -/
theorem State.flowCredit_credits (x : Sounding) (r : FlowRes) : Credits (s.log.path x.path) (s.flowCredit x r).path := by
  have found : Credits (s.log.path x.path) ((s.log.path x.path).found x (r.cause == 0)) := by
    unfold PathSt.found
    dsimp only
    split
    · exact (Credits.missSince _ _ _).trans (Credits.holdEnd _ _)
    · exact Credits.missSince _ _ _
  unfold State.flowCredit
  dsimp only
  split
  · exact (found.trans (Credits.history _ _)).trans (Credits.valid _ _ _ _ _ _)
  · exact (found.trans (Credits.history _ _)).trans (Credits.invalid _ _ _)

/-- An invalid sounding credits its path as it stands, where no restored entry waits. -/
theorem State.flowCredit_invalid (x : Sounding) (r : FlowRes) (hm : (s.log.path x.path).missFrom = none) (hc : r.cause ≠ 0) :
    s.flowCredit x r = (s.log.path x.path).invalid (x.cal == some .leeway) x.inst := by
  have hc' : (r.cause == 0) = false := by simpa using hc
  have hf : (s.log.path x.path).found x false = s.log.path x.path := by
    simp only [PathSt.found, PathSt.missSince_none _ _ _ hm, Bool.false_and]
    rfl
  simp only [State.flowCredit, hc', hf]
  rfl

/-- A valid one does, but for its history, unless a hold is still open. -/
theorem State.flowCredit_valid (x : Sounding) (r : FlowRes) (hm : (s.log.path x.path).missFrom = none) (hc : r.cause = 0)
    (hh : (s.log.path x.path).hold ≠ .hold) : ∃ hist v vel phi, s.flowCredit x r =
      ({ s.log.path x.path with history := hist } : PathSt).valid (x.cal == some .leeway) x.inst v vel phi := by
  have hf : (s.log.path x.path).found x true = s.log.path x.path := by
    have : ((s.log.path x.path).hold == .hold) = false := by simpa using hh
    simp only [PathSt.found, PathSt.missSince_none _ _ _ hm, this, Bool.and_false, Bool.false_and]
    rfl
  simp only [State.flowCredit, hc, beq_self_eq_true, hf, if_true]
  exact ⟨_, _, _, _, rfl⟩

end Sys2Proof.Machine
end

section
/-! PROOFS. Shots that fire, are captured and end (R251, R318, R320, R321, R329 to R335, R342, R348 to R353). -/

namespace Sys2Proof.Machine

/-! ## What the end of a shot leaves unchanged -/

/-- `t` differs from `s` by the work of the Log engine: its log but for the ports, events, records and what firmware brings ON. -/
structure Worked (s t : State) : Prop where
  line : t.line = s.line
  power : t.power = s.power
  cal : t.cal = s.cal
  flash : t.flash = s.flash
  gauge : t.gauge = s.gauge
  fw : t.fw = { s.fw with recQ := t.fw.recQ }
  logTime : ∀ b : Fin 4, t.berths.blk[b].logTime = s.berths.blk[b].logTime
  ports : t.log.ports = s.log.ports
  raised : ∀ n, s.ev.raised.getLsbD n = true → t.ev.raised.getLsbD n = true

namespace Worked

variable {s t u : State}

theorem trans (h : Worked s t) (k : Worked t u) : Worked s u where
  line := k.line.trans h.line
  power := k.power.trans h.power
  cal := k.cal.trans h.cal
  flash := k.flash.trans h.flash
  gauge := k.gauge.trans h.gauge
  fw := by rw [k.fw, h.fw]
  logTime b := (k.logTime b).trans (h.logTime b)
  ports := k.ports.trans h.ports
  raised n hn := k.raised n (h.raised n hn)

theorem onLog (s : State) (f : Log → Log) (hf : (f s.log).ports = s.log.ports := by rfl) : Worked s (s.onLog f) :=
  ⟨rfl, rfl, rfl, rfl, rfl, rfl, fun _ => rfl, hf, fun _ => id⟩

theorem onPath (s : State) (p : Path) (f : PathSt → PathSt) : Worked s (s.onPath p f) := by
  cases p <;> exact onLog s _

end Worked

theorem Reported.worked {s t : State} (h : Reported s t) : Worked s t :=
  ⟨h.line, h.power, h.cal, h.flash, h.gauge, h.fw, h.logTime, by rw [h.log], h.raised⟩

theorem Slotted.worked {s t : State} (h : Slotted s t) : Worked s t :=
  ⟨h.line, h.power, h.cal, h.flash, h.gauge, by rw [h.fw], fun b => by rw [h.berths], by rw [h.log], h.raised⟩

variable (s : State)

/-! ## The completion of a sounding (R325, R349, R351) -/

/-- Velocity reads the latest RTD set and the path's freshness window alone (R380). -/
theorem State.flowOfSounding_congr {s t : State} (x : Sounding) (res : Option (Int × Int))
    (h : (t.log.path x.path).rtdFresh = (s.log.path x.path).rtdFresh) (hl : t.log.rtdLast = s.log.rtdLast) :
    t.flowOfSounding x res = s.flowOfSounding x res := by
  simp only [State.flowOfSounding, State.meterTemp, State.rtdTemp, Log.rtdOf, h, hl]

theorem PathSt.agc_eq (x : Sounding) (p : PathSt) : p.agc x = { p with gain := (p.agc x).gain } := by
  unfold PathSt.agc
  split <;> rfl

/-- The path whose sounding is complete, before its credit. -/
def PathSt.measured (x : Sounding) (p : PathSt) : PathSt :=
  { p.agc x with lastDtof := (soundingResult x.shots).map (·.2), lastTof := (soundingResult x.shots).map (·.1) }

theorem PathSt.measured_eq (x : Sounding) {p k : PathSt} {tr : List (Bool × Bool × Int × Nat)} (h : p = { k with tracks := tr }) :
    ∃ g, p.measured x = { k with tracks := tr, gain := g, lastDtof := (soundingResult x.shots).map (·.2)
                                 lastTof := (soundingResult x.shots).map (·.1) } := by
  subst h
  exact ⟨_, by rw [PathSt.measured, PathSt.agc_eq]⟩

/-- A sounding that is complete: its path's result and credit, and what the free slot then starts. -/
theorem State.finishSounding_parts (y : Sounding) : ∃ v : State, v.log.path y.path = (s.log.path y.path).measured y ∧
    let c := v.flowCredit y (s.flowOfSounding y (soundingResult y.shots))
    let t := s.finishSounding y
    Worked s t ∧ t.ev.raised.getLsbD (64 + pathNo y.path) = true ∧ (c.starts = true → t.ev.raised.getLsbD 71 = true) ∧
    (t.log.cur = none ∨ ∃ z, t.log.cur = some z ∧ z.shots = []) ∧
    ∃ after, Rated c.path after ∧ t.log.path y.path = { after with
      due := (t.log.path y.path).due, delayed := (t.log.path y.path).delayed, snum := (t.log.path y.path).snum } := by
  let s2 := (s.onLog fun l => { l with cur := none }).onPath y.path (PathSt.measured y)
  have w2 : Worked s s2 := (Worked.onLog s (fun l => { l with cur := none }) rfl).trans (Worked.onPath _ _ _)
  obtain ⟨u, hu, e⟩ : ∃ u, Reported s2 u ∧ s.finishSounding y = ((u.when (y.cal == some .leeway) (State.onLog fun l =>
      { l with cal := l.cal.map (Calibration.take y.path ((u.flowOfSounding y (soundingResult y.shots)).cause == 0)
        (soundingResult y.shots)) })).flowResult y (u.flowOfSounding y (soundingResult y.shots))).startNext :=
    ⟨_, Reported.when s2 _ _ (Reported.pathRecord _ _ _ _ _ _), rfl⟩
  have hs2 : s2.log.path y.path = (s.log.path y.path).measured y := State.onPath_same _ _ _
  have hr : u.flowOfSounding y (soundingResult y.shots) = s.flowOfSounding y (soundingResult y.shots) := by
    apply State.flowOfSounding_congr
    · rw [hu.log, hs2, PathSt.measured, PathSt.agc_eq]
    · rw [hu.log]
      cases h : y.path <;> simp only [s2, State.onPath, State.onLog, h]
  rw [hr] at e
  obtain ⟨v, hv, e⟩ : ∃ v, (Worked u v ∧ v.log.path y.path = u.log.path y.path ∧ v.log.cur = u.log.cur) ∧
      s.finishSounding y = (v.flowResult y (s.flowOfSounding y (soundingResult y.shots))).startNext := by
    refine ⟨_, ?_, e⟩
    cases y.cal == some .leeway with
    | false => exact ⟨(Reported.refl u).worked, rfl, rfl⟩
    | true =>
      rw [State.when_true]
      exact ⟨Worked.onLog u _, by cases y.path <;> rfl, rfl⟩
  obtain ⟨wv, hp, hc⟩ := hv
  obtain ⟨after, rated, rep, h64, h71⟩ := v.flowResult_reports y (s.flowOfSounding y (soundingResult y.shots))
  have k := Slotted.startNext (v.flowResult y (s.flowOfSounding y (soundingResult y.shots)))
  rw [← e] at k
  have hcur : (v.flowResult y (s.flowOfSounding y (soundingResult y.shots))).log.cur = none := by
    rw [rep.log, State.onPath_log]
    refine hc.trans ?_
    rw [hu.log]
    cases h : y.path <;> simp only [s2, State.onPath, State.onLog, h]
  refine ⟨v, by rw [hp, hu.log, hs2], ?_, k.raised _ h64, fun h => k.raised _ (h71 h), ?_, after, rated, ?_⟩
  · exact ((((w2.trans hu.worked).trans wv).trans (Worked.onPath v y.path fun _ => after)).trans rep.worked).trans k.worked
  · rw [← hcur]
    exact k.cur
  · have := k.path y.path
    rwa [rep.log, State.onPath_same] at this

/-! ## The end of a shot (R343, R346, R348, R350, R353) -/

/-- The sounding with the shot made. -/
def Sounding.made (x : Sounding) (r : ShotResult) : Sounding := { x with shots := x.shots ++ [r], shot := {} }

/-- What a shot leaves in the log: a shot of a learn is counted, another one is tracked, and its ports go to their
termination. -/
def Log.shotTaken (x : Sounding) (r : ShotResult) (samples : List (BitVec 14)) (l : Log) : Log :=
  Log.settlePorts (if x.cal == some .learn then { l with cal := l.cal.map (Calibration.learnt x.path r samples) }
  else match x.path with
    | .a => { l with a := l.a.track r x.shot.edge }
    | .b => { l with b := l.b.track r x.shot.edge })

theorem PathSt.track_eq (r : ShotResult) (edge : Nat) (p : PathSt) : p.track r edge = { p with tracks := (p.track r edge).tracks } := by
  unfold PathSt.track
  split <;> rfl

/-- The path of the shot: its tracking estimates, but for a shot of a learn. -/
theorem Log.shotTaken_path (x : Sounding) (r : ShotResult) (samples : List (BitVec 14)) (l : Log) :
    (l.shotTaken x r samples).path x.path = { l.path x.path with tracks := ((l.shotTaken x r samples).path x.path).tracks } ∧
    (x.cal = some .learn → (l.shotTaken x r samples).path x.path = l.path x.path) := by
  by_cases h : x.cal = some .learn
  · have e : (l.shotTaken x r samples).path x.path = l.path x.path := by
      simp only [Log.shotTaken, h, beq_self_eq_true, if_true]
      cases x.path <;> rfl
    exact ⟨by rw [e], fun _ => e⟩
  · have h' : (x.cal == some .learn) = false := by simpa using h
    have e : (l.shotTaken x r samples).path x.path = (l.path x.path).track r x.shot.edge := by
      simp only [Log.shotTaken, h']
      cases x.path <;> rfl
    refine ⟨?_, fun e => absurd e h⟩
    rw [e]
    exact PathSt.track_eq _ _ _

/-- The ports at their termination, and the rest of the engine as it was. -/
theorem Log.shotTaken_frame (x : Sounding) (r : ShotResult) (samples : List (BitVec 14)) (l : Log) :
    l.shotTaken x r samples = { l with
      cal := (l.shotTaken x r samples).cal, ports := l.ports.map PortSt.settle, a := (l.shotTaken x r samples).a
      b := (l.shotTaken x r samples).b } := by
  unfold Log.shotTaken
  split
  · rfl
  · cases x.path <;> rfl

/-- The shot of a learn is counted for the learn that runs. -/
theorem Log.shotTaken_learnt (x : Sounding) (r : ShotResult) (samples : List (BitVec 14)) (l : Log) (hx : x.cal = some .learn)
    {c : Calibration} (hc : l.cal = some c) (hk : c.kind = .learn) (hp : c.path = x.path) : (l.shotTaken x r samples).cal =
      some { c with made := c.made + 1, learned := if r.cause = 0 then samples :: c.learned else c.learned } := by
  simp only [Log.shotTaken, hx, beq_self_eq_true, if_true, Log.settlePorts, hc, Option.map_some, Calibration.learnt, hk, hp,
    and_self]

/-- A shot that is not valid is not tracked. -/
theorem Log.shotTaken_bad (x : Sounding) (r : ShotResult) (samples : List (BitVec 14)) (l : Log) (hr : r.cause ≠ 0)
    (hx : x.cal ≠ some .learn) : l.shotTaken x r samples = l.settlePorts := by
  have h' : (x.cal == some .learn) = false := by simpa using hx
  have ht (p : PathSt) : p.track r x.shot.edge = p := if_neg hr
  simp only [Log.shotTaken, h', ht]
  cases x.path <;> rfl

/-- After a shot: the next one, or the end of the pair of a learn or of the sounding. -/
def State.afterShot (x : Sounding) (r : ShotResult) (samples : List (BitVec 14)) (u : State) : State :=
  if (x.made r).shots.length = x.shotsPlanned.length then
    if x.cal == some .learn then (u.onLog (Log.shotTaken x r samples)).finishPair
    else (u.onLog (Log.shotTaken x r samples)).finishSounding (x.made r)
  else (u.onLog (Log.shotTaken x r samples)).onLog fun l => { l with cur := some (x.made r) }

/-- A shot that ends raises its events and has its record. -/
theorem State.endShot_reports {x : Sounding} (hx : s.log.cur = some x) (r : ShotResult) (samples : List (BitVec 14)) :
    ∃ u, Reported s u ∧ ((r.cause ≠ 0 → u.ev.raised.getLsbD 66 = true) ∧ (r.cause = 1 → u.ev.raised.getLsbD 79 = true) ∧
      (r.cause = 10 → u.ev.raised.getLsbD 68 = true) ∧ (r.multipath = true → u.ev.raised.getLsbD 67 = true) ∧
      (r.noisy = true → u.ev.raised.getLsbD 69 = true)) ∧ s.endShot r samples = u.afterShot x r samples := by
  have taken (u : State) : (if x.cal == some .learn then u.onLog fun l => { l with cal := l.cal.map (Calibration.learnt x.path r samples) }
      else u.onPath x.path (PathSt.track r x.shot.edge)).onLog Log.settlePorts = u.onLog (Log.shotTaken x r samples) := by
    unfold Log.shotTaken
    cases x.cal == some .learn
    · cases x.path <;> rfl
    · rfl
  obtain ⟨fields, e⟩ : ∃ fields, s.endShot r samples = ((((((s.when (r.cause == 1) (State.raise 79)).when (r.cause != 0)
      (State.raise 66)).when (r.cause == 10) (State.raise 68)).when r.multipath (State.raise 67)).when r.noisy (State.raise 69)).when
        (acqDeliver x.acq 0) (State.pathRecord x.path x.shot.stamp 0x10 (r.flags x.delayed) fields)).afterShot x r samples := by
    simp only [State.endShot, hx, taken]
    exact ⟨_, rfl⟩
  rw [e]
  obtain ⟨r1, h1⟩ := s.when_raise (r.cause == 1) 79 (by decide)
  generalize s.when (r.cause == 1) (State.raise 79) = u1 at r1 h1 ⊢
  obtain ⟨r2, h2⟩ := u1.when_raise (r.cause != 0) 66 (by decide)
  generalize u1.when (r.cause != 0) (State.raise 66) = u2 at r2 h2 ⊢
  obtain ⟨r3, h3⟩ := u2.when_raise (r.cause == 10) 68 (by decide)
  generalize u2.when (r.cause == 10) (State.raise 68) = u3 at r3 h3 ⊢
  obtain ⟨r4, h4⟩ := u3.when_raise r.multipath 67 (by decide)
  generalize u3.when r.multipath (State.raise 67) = u4 at r4 h4 ⊢
  obtain ⟨r5, h5⟩ := u4.when_raise r.noisy 69 (by decide)
  generalize u4.when r.noisy (State.raise 69) = u5 at r5 h5 ⊢
  have r6 := Reported.when u5 (acqDeliver x.acq 0) _ (Reported.pathRecord u5 x.path x.shot.stamp 0x10 (r.flags x.delayed) fields)
  have k5 := r5.trans r6
  have k4 := r4.trans k5
  have k3 := r3.trans k4
  have k2 := r2.trans k3
  exact ⟨_, r1.trans k2, ⟨fun h => k3.raised _ (h2 (by simpa using h)), fun h => k2.raised _ (h1 (by simpa using h)),
    fun h => k4.raised _ (h3 (by simpa using h)), fun h => k5.raised _ (h4 h), fun h => r6.raised _ (h5 h)⟩, rfl⟩

section
variable {x : Sounding} (r : ShotResult) (samples : List (BitVec 14))

theorem State.afterShot_next (h : x.shots.length + 1 ≠ x.shotsPlanned.length) : s.afterShot x r samples =
    (s.onLog (Log.shotTaken x r samples)).onLog fun l => { l with cur := some (x.made r) } :=
  if_neg (by simpa [Sounding.made] using h)

theorem State.afterShot_pair (h : x.shots.length + 1 = x.shotsPlanned.length) (hx : x.cal = some .learn) :
    s.afterShot x r samples = (s.onLog (Log.shotTaken x r samples)).finishPair :=
  (if_pos (by simpa [Sounding.made] using h)).trans (if_pos (by simp [hx]))

theorem State.afterShot_sounding (h : x.shots.length + 1 = x.shotsPlanned.length) (hx : x.cal ≠ some .learn) :
    s.afterShot x r samples = (s.onLog (Log.shotTaken x r samples)).finishSounding (x.made r) :=
  (if_pos (by simpa [Sounding.made] using h)).trans (if_neg (by simpa using hx))

/-- However it ends, the engine alone works. -/
theorem State.afterShot_worked : Worked (s.onLog (Log.shotTaken x r samples)) (s.afterShot x r samples) := by
  by_cases h : x.shots.length + 1 = x.shotsPlanned.length
  · by_cases hx : x.cal = some .learn
    · rw [s.afterShot_pair r samples h hx]
      exact (Worked.onLog _ _).trans (Slotted.startNext _).worked
    · rw [s.afterShot_sounding r samples h hx]
      obtain ⟨v, -, w, -⟩ := (s.onLog (Log.shotTaken x r samples)).finishSounding_parts (x.made r)
      exact w
  · rw [s.afterShot_next r samples h]
    exact Worked.onLog _ _

/-- A shot of a learn leaves its path and the learn as they were counted. -/
theorem State.afterShot_learn (hx : x.cal = some .learn) : let t := s.afterShot x r samples
    t.log.path x.path = { s.log.path x.path with due := (t.log.path x.path).due, delayed := (t.log.path x.path).delayed
                                                 snum := (t.log.path x.path).snum } ∧
    t.log.cal = (s.log.shotTaken x r samples).cal := by
  have hp := (Log.shotTaken_path x r samples s.log).2 hx
  by_cases h : x.shots.length + 1 = x.shotsPlanned.length
  · rw [s.afterShot_pair r samples h hx]
    have k := Slotted.startNext ((s.onLog (Log.shotTaken x r samples)).onLog fun l => { l with cur := none })
    refine ⟨(k.path x.path).trans ?_, by rw [State.finishPair, k.log]; rfl⟩
    rw [← hp]
    cases x.path <;> rfl
  · rw [s.afterShot_next r samples h]
    refine ⟨?_, rfl⟩
    rw [← hp]
    cases x.path <;> rfl

end

/-- The number of shots planned is even and not 0 (R343, R348). -/
theorem Sounding.shotsPlanned_length (x : Sounding) : 2 ≤ x.shotsPlanned.length := by
  unfold Sounding.shotsPlanned shotPlan
  split <;> decide

/-- The last shot is not the first, so no sounding that begins is the one that ends. -/
theorem Sounding.ne_of_no_shots (x z : Sounding) (h : x.shots.length + 1 = x.shotsPlanned.length) (hz : z.shots = []) :
    z ≠ x := by
  rintro rfl
  have := z.shotsPlanned_length
  rw [hz, List.length_nil] at h
  omega

/-- `s₀` is `s` with the sounding `x` in progress, but for what its ports drive and for charged Log time. -/
structure Readied (s s₀ : State) (x : Sounding) : Prop where
  frame : s₀ = { s with log := { s.log with cur := some x, ports := s₀.log.ports }, berths := s₀.berths }
  settle : ∀ n : Fin 4, s₀.log.ports[n].settle = s.log.ports[n].settle

/-! ## The ports of a shot that fires (R315, R316, R321, R322) -/

/-- One port receives, another one drives, and the rest go to their termination. -/
theorem Log.firePorts_ports (x : Sounding) (l : Log) :
    (l.firePorts x).ports[x.receiving] = .receiving x.leg (acqTermZ x.acq) ∧
    (x.firing ≠ x.receiving → (l.firePorts x).ports[x.firing] = .driving x.inverted (acqTermZ x.acq)) ∧
    ∀ n : Fin 4, n ≠ x.firing → n ≠ x.receiving → (l.firePorts x).ports[n] = l.ports[n].settle := by
  refine ⟨by simp [Log.firePorts], fun h => ?_, fun n hf hr => ?_⟩
  · have : x.receiving.val ≠ x.firing.val := fun e => h (Fin.ext e.symm)
    simp [Log.firePorts, this]
  · have h1 : x.receiving.val ≠ n.val := fun e => hr (Fin.ext e.symm)
    have h2 : x.firing.val ≠ n.val := fun e => hf (Fin.ext e.symm)
    simp [Log.firePorts, h1, h2]

end Sys2Proof.Machine

namespace Sys2Proof.Proofs

open Sys2Proof Sys2Proof.Machine

/-- The interval that a sounding ends, where no restored entry waits and no heat is counted: credited with the reported flow,
with the held flow, or missing (R366, R368 to R370). -/
theorem intervalIsCredited (v : State) (y : Sounding) (r : FlowRes) (k : PathSt) (hk : v.log.path y.path = k) (f : Inst)
    (hm : k.missFrom = none) (hh : flowHeat k.flow = false) (hp : k.tPrev = some f) (hf : f.edge < y.firstEdge) :
    let c := v.flowCredit y r
    let n := y.inst.units - f.units
    let lost := k.totals.noFlow n
    let leeway := y.cal = some .leeway
    (r.cause ≠ 0 → k.hold = .invalid → c.path.hold = .invalid ∧ c.path.totals = lost ∧ c.path.tPrev = some y.inst) ∧
    (r.cause ≠ 0 → k.hold = .hold ∨ k.hold = .normal ∧ k.lastValid.isSome = true → y.firstEdge < k.holdClose.edge →
      c.path.hold = .hold ∧ c.path.lastQ = k.lastQ ∧ c.path.tPrev = some y.inst ∧ (leeway → c.path.totals = lost) ∧
      (¬ leeway → c.path.totals = k.totals.volume k.lastQ n)) ∧
    (r.cause ≠ 0 → k.hold = .normal → k.lastValid.isSome = true → c.starts = true) ∧
    (r.cause = 0 → k.hold ≠ .hold → c.path.hold = .normal ∧ c.path.lastValid = some y.inst ∧ c.path.tPrev = some y.inst ∧
      (leeway ∨ k.hold = .invalid → c.path.totals = lost) ∧
      (¬ leeway → k.hold = .normal → c.path.totals = k.totals.volume c.path.lastQ n)) := by
  intro c n lost leeway
  subst hk
  have hl (b : Bool) (a d : Totals) (hb : (y.cal == some .leeway) = b) : (leeway → (if b then a else d) = a) ∧
      (¬ leeway → (if b then a else d) = d) := by
    subst hb
    exact ⟨fun e => if_pos (by simpa using e), fun e => if_neg (by simpa using e)⟩
  refine ⟨fun hc hi => ?_, fun hc hi ht => ?_, fun hc hi hs => ?_, fun hc hi => ?_⟩
  · obtain ⟨h1, h2, h3⟩ := PathSt.invalid_lost _ (y.cal == some .leeway) y.inst f hi hp hf hh
    rw [show c = _ from v.flowCredit_invalid y r hm hc]
    exact ⟨h1, h2, h3⟩
  · obtain ⟨h1, h2, h3, h4⟩ := PathSt.invalid_held _ (y.cal == some .leeway) y.inst f hi ht hp hf hh
    rw [show c = _ from v.flowCredit_invalid y r hm hc]
    obtain ⟨l1, l2⟩ := hl _ lost ((v.log.path y.path).totals.volume (v.log.path y.path).lastQ n) rfl
    exact ⟨h1, h2, h3, fun e => h4.trans (l1 e), fun e => h4.trans (l2 e)⟩
  · rw [show c = _ from v.flowCredit_invalid y r hm hc, PathSt.invalid_starts, hi, hs]
    rfl
  · obtain ⟨hist, q, vel, phi, e⟩ := v.flowCredit_valid y r hm hc hi
    obtain ⟨h1, h2, h3, h4, h5⟩ := PathSt.valid_credits { v.log.path y.path with history := hist } (y.cal == some .leeway) y.inst f
      q vel phi hp hf hh
    rw [show c = _ from e]
    refine ⟨h1, h2, h4, fun hlost => h5.trans (if_pos ?_), fun hn hnormal => ?_⟩
    · simpa using hlost
    · rw [h3]
      refine h5.trans (if_neg ?_)
      simpa [hnormal] using hn

/-- The end of a shot of a sounding in progress is as the claims say, and it charges no Log time. -/
theorem endShot_ended {s s₀ : State} {x : Sounding} (h : Readied s s₀ x) (r : ShotResult) (samples : List (BitVec 14)) :
    Claims.ShotEnded s (s₀.endShot r samples) x r samples ∧
    ∀ b : Fin 4, (s₀.endShot r samples).berths.blk[b].logTime = s₀.berths.blk[b].logTime := by
  have hx : s₀.log.cur = some x := by rw [h.frame]
  obtain ⟨u, rep, ⟨h66, h79, h68, h67, h69⟩, e⟩ := s₀.endShot_reports hx r samples
  let E := u.onLog (Log.shotTaken x r samples)
  have hu (p : Path) : u.log.path p = s.log.path p := by
    rw [rep.log, h.frame]
    cases p <;> rfl
  have hcal : u.log.cal = s.log.cal := by rw [rep.log, h.frame]
  obtain ⟨hEp, hEl⟩ := Log.shotTaken_path x r samples u.log
  rw [hu] at hEp hEl
  have hfw : s₀.fw = s.fw := by rw [h.frame]
  have w := u.afterShot_worked (x := x) r samples
  have mono := w.raised
  rw [e]
  refine ⟨?_, fun b => (w.logTime b).trans (rep.logTime b)⟩
  unfold Claims.ShotEnded
  intro k after made res found leeway
  refine ⟨fun h => mono _ (h66 h), fun h => mono _ (h79 h), fun h => mono _ (h68 h), fun h => mono _ (h67 h),
    fun h => mono _ (h69 h), fun n => ?_, fun hn => ?_, fun hl => ?_, fun hlast => ?_, ?_, ?_, ?_, ?_, ?_, ?_⟩
  · rw [w.ports, ← h.settle n, ← rep.log]
    show ((u.log.shotTaken x r samples).ports)[n] = _
    rw [Log.shotTaken_frame]
    simp
  · have et := u.afterShot_next r samples hn
    have ep : after = E.log.path x.path := by
      simp only [after, et]
      cases x.path <;> rfl
    refine ⟨by rw [et]; rfl, ?_, ?_, fun hr hl => ?_⟩
    · exact (congrArg PathSt.totals ep).trans (congrArg PathSt.totals hEp :)
    · exact (congrArg PathSt.hold ep).trans (congrArg PathSt.hold hEp :)
    · rw [et]
      simp only [State.onLog_log, Log.shotTaken_bad x r samples _ hr hl, rep.log]
      rw [h.frame]
      rfl
  · obtain ⟨hp, hc⟩ := u.afterShot_learn (x := x) r samples hl
    rw [hu] at hp
    refine ⟨(congrArg PathSt.totals hp :), (congrArg PathSt.hold hp :), (congrArg PathSt.tracks hp :), fun c h1 h2 h3 => ?_⟩
    rw [hc, Log.shotTaken_learnt x r samples _ hl (hcal.trans h1) h2 h3]
  · refine ⟨?_, fun hl => ?_⟩
    · have fresh (hz : (u.afterShot x r samples).log.cur = none ∨ ∃ z, (u.afterShot x r samples).log.cur = some z ∧
          z.shots = []) : (u.afterShot x r samples).log.cur ≠ some x := by
        rcases hz with hz | ⟨z, hz, h0⟩
        · rw [hz]; exact nofun
        · rw [hz]
          exact fun e => x.ne_of_no_shots z hlast h0 (Option.some.inj e)
      by_cases hl : x.cal = some .learn
      · refine fresh ?_
        rw [u.afterShot_pair r samples hlast hl]
        exact (Slotted.startNext _).cur
      · refine fresh ?_
        rw [u.afterShot_sounding r samples hlast hl]
        obtain ⟨v, -, -, -, -, hcur, -⟩ := E.finishSounding_parts (x.made r)
        exact hcur
    · obtain ⟨v, hv, -, h64, h71, -, aft, rated, ha⟩ := E.finishSounding_parts (x.made r)
      rw [← u.afterShot_sounding r samples hlast hl] at h64 h71 ha
      have hfound : E.flowOfSounding (x.made r) (soundingResult (x.made r).shots) = found := by
        apply State.flowOfSounding_congr
        · exact (congrArg PathSt.rtdFresh hEp :)
        · show (u.log.shotTaken x r samples).rtdLast = _
          rw [Log.shotTaken_frame, rep.log, h.frame]
      obtain ⟨g, hg⟩ := PathSt.measured_eq (x.made r) hEp
      have hk := hv.trans hg
      rw [show (x.made r).path = x.path from rfl] at hk ha
      rw [hfound] at h71 rated
      have credits : Credits (v.log.path x.path) (v.flowCredit (x.made r) found).path := v.flowCredit_credits (x.made r) found
      have hold : after.hold = (v.flowCredit (x.made r) found).path.hold := (congrArg PathSt.hold (ha.trans (by rw [rated])) :)
      have totals : after.totals = (v.flowCredit (x.made r) found).path.totals := (congrArg PathSt.totals (ha.trans (by rw [rated])) :)
      have prev : after.tPrev = (v.flowCredit (x.made r) found).path.tPrev := (congrArg PathSt.tPrev (ha.trans (by rw [rated])) :)
      have lastQ : after.lastQ = (v.flowCredit (x.made r) found).path.lastQ := (congrArg PathSt.lastQ (ha.trans (by rw [rated])) :)
      have valid : after.lastValid = (v.flowCredit (x.made r) found).path.lastValid :=
        (congrArg PathSt.lastValid (ha.trans (by rw [rated])) :)
      refine ⟨?_, ?_, h64, fun f hm hh hp hf => ?_⟩
      · exact ((congrArg PathSt.lastDtof (ha.trans (by rw [rated, credits])) :)).trans (congrArg PathSt.lastDtof hk :)
      · exact ((congrArg PathSt.lastTof (ha.trans (by rw [rated, credits])) :)).trans (congrArg PathSt.lastTof hk :)
      · intro n lost
        rw [hold, totals, prev, lastQ, valid]
        obtain ⟨i1, i2, i3, i4⟩ := intervalIsCredited v (x.made r) found _ hk f hm hh hp hf
        exact ⟨i1, fun hc hn hs ht => ⟨h71 (i3 hc hn hs), i2 hc (.inr ⟨hn, hs⟩) ht⟩, fun hc hi ht => by
          obtain ⟨j1, -, j3⟩ := i2 hc (.inl hi) ht
          exact ⟨j1, j3⟩, i4⟩
  · exact (w.gauge.trans rep.gauge).trans (by rw [h.frame])
  · exact (w.flash.trans rep.flash).trans (by rw [h.frame])
  · have hE : E.fw = { s.fw with recQ := u.fw.recQ } := by rw [← hfw]; exact rep.fw
    rw [w.fw, hE]
  · exact (w.line.trans rep.line).trans (by rw [h.frame])
  · exact (w.cal.trans rep.cal).trans (by rw [h.frame])
  · exact (w.power.trans rep.power).trans (by rw [h.frame])

/-- The end of a burst leaves a sounding that is ready for the end of its shot (R320, R321). -/
theorem readied_endBurst (s : State) {x : Sounding} (hx : s.log.cur = some x) : Readied s (s.onLog Log.endBurst) x := by
  refine ⟨?_, fun n => ?_⟩
  · rw [← hx]
    rfl
  · simp only [State.onLog_log, Log.endBurst, Vector.getElem_map, Fin.getElem_fin]
    cases s.log.ports[n.val] <;> rfl

theorem shotsFire : Claims.ShotsFire := by
  intro s edge vdrv ma lclk launch
  refine ⟨fun h c hc => ?_, fun x hx => ?_⟩
  · simp only [List.mem_cons, List.not_mem_nil, or_false] at hc
    rcases hc with rfl | rfl <;> simp only [exec, execShotFire, execDriveOvercurrent, h]
  intro x' d z drives
  -- the state with the shot's TIME
  let s₁ : State := { s with log := { s.log with cur := some x' } }
  have fire (h : (s.isOn .log && s.fireAt x edge lclk) = true) : exec (.shotFire edge lclk vdrv launch) s =
      if driveBad s.log.pump vdrv then .next (s₁.endShot { x.base with cause := 1 } [])
      else .next ((({ s with log := Log.firePorts x { s.log with
        cur := some { x' with shot := { x'.shot with fire := some edge, launch := d } }, lastFire := some edge } } : State)).charge
          (s.pathHolder x.path) (launchTime d)) := by
    simp only [exec, execShotFire, hx, h, State.onShot, State.onLog, Option.map_some]
    rfl
  refine ⟨fun h => ?_, fun h => ⟨fun hd => ?_, fun hd => ?_⟩, fun h => ?_, fun f hf hd => ?_⟩
  · simp only [exec, execShotFire, hx, h]
    rfl
  · obtain ⟨hrec, hfir, hrest⟩ := Log.firePorts_ports x { s.log with
      cur := some { x' with shot := { x'.shot with fire := some edge, launch := d } }, lastFire := some edge }
    refine ⟨_, (fire h).trans (if_neg (by rw [hd]; exact Bool.false_ne_true)), ?_, ?_, ?_, ?_, ?_, ?_, State.charge_blk _ _ _⟩
    · rw [State.charge_frame]
      rfl
    · rw [State.charge_log]
      rfl
    · rw [State.charge_log]
      exact hrec
    · rw [State.charge_log]
      exact hfir
    · rw [State.charge_log]
      exact hrest
    · rw [State.charge_frame]
  · exact ⟨_, (fire h).trans (if_pos hd), (endShot_ended ⟨rfl, fun _ => rfl⟩ _ _).1⟩
  · simp only [exec, execDriveOvercurrent, hx]
    rcases h with h | ⟨f, h, hd⟩
    · simp only [h]
    · simp only [h]
      exact if_neg hd
  · refine ⟨_, ?_, (endShot_ended (readied_endBurst s hx) _ _).1⟩
    simp only [exec, execDriveOvercurrent, hx, hf]
    exact if_pos hd

theorem capturesOpenAndClose : Claims.CapturesOpenAndClose := by
  intro s edge samples
  refine ⟨fun h c hc => ?_, fun x hx => ?_⟩
  · simp only [List.mem_cons, List.not_mem_nil, or_false] at hc
    rcases hc with rfl | rfl <;> simp only [exec, execCaptureOpen, execCaptureClose, h]
  refine ⟨fun h => ?_, fun f hf hc => ⟨fun he => ?_, fun he => ?_⟩, fun h => ?_, fun oc hoc => ⟨fun hl => ?_, fun hl => ?_⟩⟩
  · simp only [exec, execCaptureOpen, hx]
    rcases h with h | h
    · simp only [h]
    · cases hf : x.shot.fire with
      | none => rfl
      | some f => exact if_neg fun ⟨_, e⟩ => by rw [e] at h; cases h
  · simp only [exec, execCaptureOpen, hx, hf]
    exact if_neg fun ⟨e, _⟩ => he e
  · have hr : Readied s (s.onLog Log.endBurst) x := readied_endBurst s hx
    have open_ (h : x.shot.refused = false) : exec (.captureOpen edge) s = match s.link.window with
        | some w => if w.holds edge then .next ((s.onLog Log.endBurst).onShot fun k =>
            { k with capture := some (edge, min (acqSamples x.acq) ((w.closeEdge - edge) / 64 * 64)) })
          else .next ((s.onLog Log.endBurst).endShot { x.base with cause := if badLaunch x.shot.launch then 2 else 4 } [])
        | none => .next ((s.onLog Log.endBurst).endShot { x.base with cause := if badLaunch x.shot.launch then 2 else 4 } []) := by
      simp only [exec, execCaptureOpen, hx, hf]
      rw [if_pos ⟨he, hc⟩, if_neg (by rw [h]; exact Bool.false_ne_true)]
      rfl
    intro within
    refine ⟨fun h hw w e => ?_, fun h => ?_⟩
    · have hin : w.holds edge = true := by simpa [within, e, CoreWindow.holds] using hw
      rw [open_ h, e]
      refine (if_pos hin).trans ?_
      rw [State.onShot_some (s := s.onLog Log.endBurst) (x := x) hx _]
      rfl
    · by_cases h3 : x.shot.refused = true
      · refine ⟨_, ?_, (endShot_ended hr _ _).1⟩
        simp only [exec, execCaptureOpen, hx, hf]
        rw [if_pos ⟨he, hc⟩, if_pos h3, if_pos h3]
      · rw [Bool.not_eq_true] at h3
        have hw : within = false := h.resolve_left (by rw [h3]; exact Bool.false_ne_true)
        refine ⟨_, ?_, (endShot_ended hr _ _).1⟩
        rw [open_ h3, if_neg (show ¬x.shot.refused = true by rw [h3]; exact Bool.false_ne_true)]
        cases e : s.link.window with
        | none => rfl
        | some w =>
          have hout : w.holds edge = false := by simpa [within, e, CoreWindow.holds] using hw
          exact if_neg (by rw [hout]; exact Bool.false_ne_true)
  · simp only [exec, execCaptureClose, hx, h]
  · simp only [exec, execCaptureClose, hx, hoc]
    exact if_neg hl
  · have hr : Readied s (s.charge (s.pathHolder x.path) (samplesTime oc.2)) x :=
      ⟨by rw [State.charge_log, ← hx]; cases s.pathHolder x.path <;> rfl, fun n => by rw [State.charge_log]⟩
    obtain ⟨ended, time⟩ := endShot_ended hr (judgeShot (x.cal == some .learn) x.acq x.template x.plan.swapped (s.trackOf x)
      { x.base with noisy := (s.link.overrideAt.map fun e => decide (e < oc.1 + oc.2)).getD false
                    trunc := oc.2 < acqSamples x.acq } samples) samples
    refine ⟨_, ?_, fun b => (time b).trans (congrArg Berth.logTime (s.charge_blk _ _ b)), ended⟩
    simp only [exec, execCaptureClose, hx, hoc]
    rw [if_pos hl]
    cases s.link.overrideAt <;> rfl

/-- Settles O47: the end of every shot is one account, `endShot_ended`, of what its result makes of the state. -/
theorem shotsAndCapturesAreMade : Obligations.ShotsAndCapturesAreMade :=
  ⟨portsAndBurstsFollowTheShot, shotsAskForQuiet, shotsFire, capturesOpenAndClose⟩

end Sys2Proof.Proofs
end

section
/-! PROOFS. The pads (R22, R27, R30, R77, R138, R148, R311), and the Binnacle's power-on reset with its release (R32, R111,
R177, R493). -/

namespace Sys2Proof.Machine

variable (s : State)

/-! ## The pads referred to VDDIO (R22, R27) -/

/-- They are released without VDDIO, without VAON and with NRST low. -/
theorem State.padsUp_eq_false (h : s.spi.vddio = false ∨ s.bin.held = true ∨ s.dom.nrstLow = true) :
    (s.hostPads && !s.dom.nrstLow) = false := by
  rcases h with h | h | h <;> simp [State.hostPads, h]

/-- Otherwise they drive. -/
theorem State.padsUp (h : ¬(s.spi.vddio = false ∨ s.bin.held = true ∨ s.dom.nrstLow = true)) :
    s.hostPads = true ∧ s.dom.nrstLow = false := by
  obtain ⟨hv, hh, hn⟩ := not_or.1 h |>.imp_right not_or.1
  simp [State.hostPads, hv, hh, hn]

/-- An interrupt pin that cannot drive is released (R27). -/
theorem State.irqPad_released (k : Fin 2) (h : (s.hostPads && !s.dom.nrstLow) = false) : s.irqPad k = .z := by
  simp only [State.irqPad]
  exact if_pos (by cases hp : s.hostPads <;> simp_all)

/-- One that can is low while asserted, and high otherwise in push-pull mode alone (R311). -/
theorem State.irqPad_driven (k : Fin 2) (hp : s.hostPads = true) (hn : s.dom.nrstLow = false) :
    s.irqPad k = if s.irqPins.getLsbD k.val then .low else if s.irqPush.getLsbD k.val then .high else .z := by
  simp [State.irqPad, hp, hn]

/-- The link test pads are released where they do not replicate (R77). -/
theorem State.ltp_released (h : s.ltpOn = false) : s.ltp0 = none ∧ s.ltp1 = none := by
  simp [State.ltp0, State.ltp1, h]

/-- They replicate both directions of the link (R77). -/
theorem State.ltp_replicates (h : s.ltpOn = true) : s.ltp0 = some s.link.signal ∧ s.ltp1 = some s.line.signal := by
  simp [State.ltp0, State.ltp1, h]

/-! ## SQW (R138) -/

/-- At 32,768 Hz SQW follows the counting source. -/
theorem State.sqwPad_source (ck : Bool) (he : s.bin.sqwEn = true) (hs : s.bin.sqwSel = 15) :
    s.sqwPad ck = if ck then .z else .low := by
  simp [State.sqwPad, he, hs]

/-- Below it, SQW is low where the prescaler's bit is 1. -/
theorem State.sqwPad_prescaler (ck : Bool) (he : s.bin.sqwEn = true) (hs : s.bin.sqwSel ≠ 15) :
    s.sqwPad ck = if s.cal.subsec.toNat / 2 ^ (14 - s.bin.sqwSel.toNat) % 2 = 1 then .low else .z := by
  have bit : s.cal.subsec.getLsbD (14 - s.bin.sqwSel.toNat) =
      decide (s.cal.subsec.toNat / 2 ^ (14 - s.bin.sqwSel.toNat) % 2 = 1) := Nat.testBit_eq_decide_div_mod_eq
  simp only [State.sqwPad, he, if_neg hs, bit]
  split <;> simp_all

end Sys2Proof.Machine

namespace Sys2Proof.Proofs

open Sys2Proof Sys2Proof.Machine

theorem outputPadsFollowTheState : Claims.OutputPadsFollowTheState := by
  intro s k ck down
  refine ⟨fun h => ?_, fun h => ?_, fun hr hb => ?_, ?_, ?_, fun he => ?_, fun he hs => ?_, fun he hs => ?_, ?_⟩
  · have hp := s.padsUp_eq_false h
    have ltp : s.ltpOn = false := by simp only [State.ltpOn, hp, Bool.false_and]
    exact ⟨s.irqPad_released k hp, by simp only [State.misoDriven, hp, Bool.false_and], s.ltp_released ltp⟩
  · obtain ⟨hp, hn⟩ := s.padsUp h
    have ltp : s.ltpOn = (s.isOn .hif && s.link.ltpEn) := by simp [State.ltpOn, hp, hn]
    rw [s.irqPad_driven k hp hn]
    refine ⟨?_, ?_, by simp [State.misoDriven, hp, hn], fun hh hl => s.ltp_replicates (by simp [ltp, hh, hl]),
      fun h => s.ltp_released (by rcases h with h | h <;> simp [ltp, h])⟩
    · cases s.irqPins.getLsbD k.val <;> cases s.irqPush.getLsbD k.val <;> simp
    · cases s.irqPins.getLsbD k.val <;> cases s.irqPush.getLsbD k.val <;> simp
  · have : s.line.signal = .burst := by simp [LineDie.signal, hr, hb]
    exact ⟨this, by rw [this]; rfl⟩
  · cases h : s.bin.sysonOn <;> simp [State.sysonPad, h]
  · cases h : s.power.srg <;> simp [State.srgPad, h]
  · simp [State.sqwPad, he]
  · rw [s.sqwPad_source ck he hs]
    cases ck <;> simp
  · rw [s.sqwPad_prescaler ck he hs]
    split <;> simp [*]
  · simp only [State.hsclPad]
    split <;> simp [*]

theorem binnacleResetsAndReleases : Claims.BinnacleResetsAndReleases := by
  intro s mv
  refine ⟨⟨_, rfl, rfl, rfl, rfl, rfl, rfl, rfl, rfl, rfl, rfl, rfl, rfl, rfl, rfl, rfl, rfl, rfl⟩, fun hh => ?_, fun hh => ?_, rfl, rfl⟩
  · exact ⟨if_pos hh, if_neg (by simp [hh]), if_pos hh, if_pos hh⟩
  · exact ⟨if_neg (by simp [hh]), fun hb => if_pos (by rw [hb, hh]; rfl), fun hb => if_neg (by simp [hb])⟩

/-- Settles O29: the pads follow from whether those of VDDIO can drive, and each row of the reset is what it writes. -/
theorem binnacleResetAndPads : Obligations.BinnacleResetAndPads :=
  ⟨binnacleResetsAndReleases, outputPadsFollowTheState⟩

end Sys2Proof.Proofs
end

section
/-! PROOFS. Wakes and what they leave unchanged in the domains (R159, R165, R172, R173), and the address match of the two-wire
host channel (R208, R219, R223 to R227). -/

namespace Sys2Proof.Machine

variable (s : State)

/-! ## What a wake changes in the domains (R165, R172) -/

/-- An exit stores one domain's state and nothing else. -/
theorem State.startOn_keeps {α : Type} (g : Domains → α) (hg : ∀ x d v, g (x.set d v) = g x) (d : Domain) :
    g (s.startOn d).dom = g s.dom := by
  simp only [State.startOn, State.onDom_dom]
  split
  case h_2 => rfl
  all_goals exact hg _ _ _

/-- So does bringing a domain ON, with the domains it requires. -/
theorem State.bringOn_keeps {α : Type} (g : Domains → α) (hg : ∀ x d v, g (x.set d v) = g x) (d : Domain) :
    g (s.bringOn d).dom = g s.dom := by
  have start (t : State) (d : Domain) := t.startOn_keeps g hg d
  cases d <;> simp only [State.bringOn, start]

/-- The domains once a wake source is latched. -/
def Domains.latch (bit : Nat) (x : Domains) : Domains :=
  if x.wakeEn.getLsbD bit then
    { x with wakeFlags := x.wakeFlags ||| (1#32 <<< bit), wakePend := x.wakePend ||| (1#32 <<< bit) }
  else x

/-- A wake latches its source, and stores states of domains beside. -/
theorem State.wake_keeps {α : Type} (g : Domains → α) (hg : ∀ x d v, g (x.set d v) = g x) (bit : Nat) (ds : List Domain) :
    g (s.wake bit ds).dom = g (s.dom.latch bit) := by
  unfold State.wake Domains.latch
  split
  · generalize hm : s.onDom _ = m
    have h : g m.dom = g _ := congrArg (fun t => g (State.dom t)) hm.symm
    refine Eq.trans ?_ h
    clear h hm
    induction ds generalizing m with
    | nil => rfl
    | cons d ds ih => exact (ih _).trans (m.bringOn_keeps g hg d)
  · rfl

/-- A wake changes the domains alone. -/
theorem State.wake_frame (bit : Nat) (ds : List Domain) : s.wake bit ds = { s with dom := (s.wake bit ds).dom } := by
  apply State.ext_parts <;> simp

/-- The source of a wake that is enabled is latched in WAKE_FLAGS. -/
theorem State.wake_flag (bit : Nat) (ds : List Domain) (hb : bit < 32) (h : s.dom.wakeEn.getLsbD bit = true) :
    (s.wake bit ds).dom.wakeFlags.getLsbD bit = true := by
  rw [s.wake_keeps Domains.wakeFlags (fun x d v => by cases d <;> rfl) bit ds]
  simp [Domains.latch, h, hb]

/-- No wake clears a bit of WAKE_FLAGS. -/
theorem State.wake_flags (bit n : Nat) (ds : List Domain) (h : s.dom.wakeFlags.getLsbD n = true) :
    (s.wake bit ds).dom.wakeFlags.getLsbD n = true := by
  rw [s.wake_keeps Domains.wakeFlags (fun x d v => by cases d <;> rfl) bit ds]
  unfold Domains.latch
  split <;> simp [h]

theorem State.wake_nrstLow (bit : Nat) (ds : List Domain) : (s.wake bit ds).dom.nrstLow = s.dom.nrstLow := by
  rw [s.wake_keeps Domains.nrstLow (fun x d v => by cases d <;> rfl) bit ds]
  unfold Domains.latch
  split <;> rfl

/-- An event changes the raise latch and the domains that it wakes. -/
theorem State.raise_frame (e : Nat) : s.raise e = { s with ev := (s.raise e).ev, dom := (s.raise e).dom } := by
  apply State.ext_parts <;> simp

/-- No event clears a bit of WAKE_FLAGS. -/
theorem State.raise_flags (e n : Nat) (h : s.dom.wakeFlags.getLsbD n = true) : (s.raise e).dom.wakeFlags.getLsbD n = true := by
  unfold State.raise State.when
  split
  · exact State.wake_flags (s.onEv _) 18 n _ h
  · exact h

/-- An event wakes the CPU alone (R307). -/
theorem State.raise_other (e : Nat) {d : Domain} (hd : d ≠ .cpu) : (s.raise e).dom.get d = s.dom.get d := by
  unfold State.raise State.when
  split
  · unfold State.wake
    split
    · exact State.startOn_other _ hd
    · rfl
  · rfl

/-! ## The wake of HIF and MEM_B (R159, R172) -/

/-- An exit of OFF that nothing holds up begins at once. -/
theorem State.startOn_off {d : Domain} (h : (s.dom.get d).st = .off) (hp : s.powered = true) (hm : s.mayTurnOn d = true) :
    (s.startOn d).dom.get d = { st := .leaving .off } := by
  simp [State.startOn, h, hp, hm]

/-- An exit that has begun goes on. -/
theorem State.startOn_leaving {d : Domain} {low : Low} (h : (s.dom.get d).st = .leaving low) : s.startOn d = s := by
  simp [State.startOn, State.onDom, h]

/-- The two-wire wake takes a powered HIF out of OFF. -/
theorem State.wake_hif (h : s.dom.wakeEn.getLsbD 16 = true) (ho : s.dom.hif.st = .off) (hp : s.powered = true) :
    (s.wake 16 [.hif, .memB]).dom.hif.st = .leaving .off := by
  let m := s.onDom fun x => { x with wakeFlags := x.wakeFlags ||| (1#32 <<< 16), wakePend := x.wakePend ||| (1#32 <<< 16) }
  have hm : (m.startOn .hif).dom.get .hif = { st := .leaving .off } := m.startOn_off ho hp rfl
  have hw : s.wake 16 [.hif, .memB] = (m.startOn .hif).startOn .memB := by
    refine (if_pos h).trans ?_
    exact congrArg (State.startOn .memB) (State.startOn_leaving _ (congrArg DomSt.st hm))
  show ((s.wake 16 [.hif, .memB]).dom.get .hif).st = _
  rw [hw, State.startOn_other _ (by decide), hm]

/-- A port that works: the Binnacle runs and NRST is high (R27). -/
theorem State.portUp_runs {p : Port} (h : s.portUp p = true) : s.bin.held = false ∧ s.dom.nrstLow = false := by
  simp only [State.portUp, Bool.and_eq_true, Bool.not_eq_true'] at h
  exact h.1

/-! ## The address byte (R219, R223, R224) -/

/-- A START and an address byte that begins a read or a write. -/
def Tw.hear (read : Bool) (t : Tw) : Tw :=
  { t with busy := true, hscl := true, hsda := true, startHeld := false, readFirst := read, sent := [], phase := .idle, acked := false }

/-- The module's own address wakes HIF and MEM_B (R219, R225). -/
def State.called (read : Bool) : State := (s.onTw (Tw.hear read)).wake 16 [.hif, .memB]

/-- What the module answers to its own address while its port works and it is not the controller. -/
theorem execTwAddressMatch_own (read : Bool) (hp : s.portUp .tw = true) (hs : s.tw.sbsActive = false)
    (hb : s.bin.strapBusy = false) : execTwAddressMatch s.tw.addr read s = .next
      (if s.isOn .hif then (s.called read).onTw fun t => { t with phase := .active, acked := true }
        else if s.tw.sleepAsync then (s.called read).onTw fun t => { t with phase := .stretched, acked := true }
        else (((s.called read).onTw fun t => { t with phase := .ignored }).twStat 7).raise 43) := by
  have async : (s.called read).tw.sleepAsync = s.tw.sleepAsync :=
    (congrArg Tw.sleepAsync (State.wake_tw (s.onTw (Tw.hear read)) _ _) :)
  have own : ¬(s.bin.strapBusy || s.tw.addr != s.tw.addr) = true := by simp [hb]
  refine (if_neg (by simp [hp, hs])).trans ((if_neg own).trans ?_)
  show (if s.isOn .hif then _ else if (s.called read).tw.sleepAsync then _ else _) = _
  rw [async]
  split
  · rfl
  · split <;> rfl

/-! ## The rest of a transaction (R27, R209, R224) -/

/-- The rest of an ignored transaction ends with nothing acknowledged. -/
theorem State.transaction_ignored (read : Bool) (f : State → State) (h : s.tw.phase = .ignored) :
    s.transaction read f = s.onTw (Tw.done [] false) := by simp only [State.transaction, h]

/-- With no transaction, or one that waits for HIF, nothing happens. -/
theorem State.transaction_none (read : Bool) (f : State → State) (h : s.tw.phase = .idle ∨ s.tw.phase = .stretched) :
    s.transaction read f = s := by
  rcases h with h | h <;> simp only [State.transaction, h]

/-- Every command of the host channel after the address byte is the rest of a transaction. -/
theorem twRest_isTransaction (bytes extra : List Byte) (n : Nat) (whole : Bool) (k : Fin 8) (code : Byte) :
    ∀ c ∈ .twReceiveByte n :: Claims.twWriteFirst bytes extra n whole k code,
      ∃ read f, exec c s = .next (s.transaction read f) := by
  simp only [Claims.twWriteFirst, List.forall_mem_cons]
  exact ⟨⟨_, _, rfl⟩, ⟨_, _, rfl⟩, ⟨_, _, rfl⟩, ⟨_, _, rfl⟩, ⟨_, _, rfl⟩, ⟨_, _, rfl⟩, ⟨_, _, rfl⟩, ⟨_, _, rfl⟩, ⟨_, _, rfl⟩, ⟨_, _, rfl⟩,
    fun _ h => by simp at h⟩

end Sys2Proof.Machine

namespace Sys2Proof.Proofs

open Sys2Proof Sys2Proof.Machine

theorem addressMatchWakesTheHost : Claims.AddressMatchWakesTheHost := by
  intro s addr read heard
  refine ⟨fun h => ?_, fun hp hs h => ?_, fun hp hs hb ha => ?_, fun h on => ?_, fun h on => ?_, fun h => ?_⟩
  · exact if_pos (by rcases h with h | h <;> simp [h])
  · refine (if_neg (by simp [hp, hs])).trans (if_pos ?_)
    show (s.bin.strapBusy || addr != s.tw.addr) = true
    rcases h with h | h <;> simp [h]
  · subst ha
    obtain ⟨hheld, hnrst⟩ := s.portUp_runs hp
    have answer := execTwAddressMatch_own s read hp hs hb
    have frame : s.called read = { s with tw := heard, dom := (s.called read).dom } := State.wake_frame _ _ _
    have flag : s.dom.wakeEn.getLsbD 16 = true → (s.called read).dom.wakeFlags.getLsbD 16 = true :=
      State.wake_flag (s.onTw _) 16 _ (by decide)
    have hif : s.dom.wakeEn.getLsbD 16 = true → s.dom.hif.st = .off → s.powered = true →
        (s.called read).dom.hif.st = .leaving .off := State.wake_hif (s.onTw _)
    have nrst : (s.called read).dom.nrstLow = s.dom.nrstLow := State.wake_nrstLow _ _ _
    generalize s.called read = w at answer frame flag hif nrst
    by_cases on : s.isOn .hif = true
    · refine ⟨_, answer.trans (congrArg _ (if_pos on)), by rw [frame]; rfl, fun h => ⟨flag h, hif h⟩,
        fun _ => by rw [frame]; exact ⟨rfl, rfl⟩, fun h => by simp [on] at h, fun h => by simp [on] at h⟩
    · have answer := answer.trans (congrArg _ (if_neg on))
      by_cases ha : s.tw.sleepAsync = true
      · refine ⟨_, answer.trans (congrArg _ (if_pos ha)), by rw [frame]; rfl, fun h => ⟨flag h, hif h⟩, fun h => absurd h on,
          fun _ _ => ?_, fun _ h => by simp [ha] at h⟩
        rw [frame]
        exact ⟨rfl, rfl, if_pos ⟨rfl, hheld, nrst.trans hnrst⟩⟩
      · refine ⟨_, answer.trans (congrArg _ (if_neg ha)), ?_, fun h => ⟨State.raise_flags _ 43 16 (flag h), fun ho hp => ?_⟩,
          fun h => absurd h on, fun _ h => absurd h ha, fun _ _ => ⟨?_, by simp⟩⟩
        · refine (State.raise_frame _ 43).trans ?_
          rw [frame]
          simp [State.onTw, State.twStat]
        · exact (congrArg DomSt.st (State.raise_other _ 43 (d := .hif) (by decide))).trans (hif h ho hp)
        · rw [State.raise_tw, frame]
          rfl
  · exact ⟨if_pos (by rw [h, on]; rfl), if_neg (by simp [on])⟩
  · exact ⟨if_neg (by simp [on]), if_pos (by rw [h, on]; rfl)⟩
  · exact ⟨if_neg (by simp [h]), if_neg (by simp [h])⟩

theorem otherTransactionsDoNothing : Claims.OtherTransactionsDoNothing := by
  refine ⟨rfl, fun s bytes extra n whole k code => ⟨fun h c hc => ?_, fun h c hc => ?_⟩⟩ <;>
    obtain ⟨read, f, e⟩ := twRest_isTransaction s bytes extra n whole k code c hc
  · rw [e, s.transaction_ignored _ _ h]
    rfl
  · rw [e, s.transaction_none _ _ h]

/-- Settles O38: an address match is one wake and the module's answer, and every other command is the rest of a transaction. -/
theorem twoWireAddressing : Obligations.TwoWireAddressing := ⟨addressMatchWakesTheHost, otherTransactionsDoNothing⟩

end Sys2Proof.Proofs
end

section
/-! PROOFS. Malformed two-wire transactions (R215, R216), and the time-outs, recovery and lost arbitration of the host channel
(R228 to R235, R240). -/

namespace Sys2Proof.Machine

variable (s : State)

/-! ## A transaction that runs (R209) -/

/-- The rest of a transaction that the module takes part in, in the direction of its address byte, is served. -/
theorem State.transaction_active {read : Bool} (f : State → State) (h : s.tw.phase = .active) (hr : s.tw.readFirst = read) :
    s.transaction read f = f s := by simp only [State.transaction, h, hr, if_true]

/-- A malformed transaction is recorded, and ends (R216). -/
theorem State.twProto_eq (c : BitVec 3) : s.twProto c = (({ s with tw :=
    { s.tw with
      protoCause := c, stat := s.tw.stat ||| 0x40, phase := .idle, busy := false, sent := []
      acked := decide (c = 6) } } : State).raise 38) := rfl

/-! ## The end of a write phase (R215, R216) -/

section
variable (code : Byte) (bytes : List Byte) (n : Nat) {pecReq : Bool} {effect : State → State}

/-- Fewer bytes than the code needs: cause 6. -/
theorem State.twWriteEnd_short (h : bytes.length < n) : s.twWriteEnd code bytes n pecReq effect = s.twProto 6 := by
  simp only [State.twWriteEnd, List.drop_eq_nil_of_le (Nat.le_of_lt h), if_pos h]

/-- More bytes than the code and its PEC: cause 5. -/
theorem State.twWriteEnd_long (own : List Byte) (x : Byte) (more : List Byte) :
    s.twWriteEnd code (own ++ pec (s.tw.addrByte false :: code :: own) :: x :: more) own.length pecReq effect = s.twProto 5 := by
  simp [State.twWriteEnd]

end

/-! ## Each code's malformed transactions (R210, R216) -/

/-- The number of a berth is a berth byte. -/
theorem badBerth_berth (b : Fin 4) : badBerth (BitVec.ofNat 8 b.val) = false := by decide +revert

/-- Ring: no berth byte, a berth byte above 3, and a byte after the PEC. -/
theorem State.twRingWrite_malformed (b : Fin 4) (x : Byte) :
    s.twRingWrite [] = s.twProto 6 ∧ s.twRingWrite [0x04] = s.twProto 3 ∧
    s.twRingWrite [BitVec.ofNat 8 b.val, pec [s.tw.addrByte false, 0x20, BitVec.ofNat 8 b.val], x] = s.twProto 5 := by
  refine ⟨rfl, rfl, ?_⟩
  simp only [State.twRingWrite, badBerth_berth, Bool.false_eq_true, if_false]
  exact s.twWriteEnd_long 0x20 [BitVec.ofNat 8 b.val] x []

/-- Mailbox write: a count below 3, a berth byte above 3, an offset that the data overruns, and no offset. -/
theorem State.twMailWrite_malformed (b : Fin 4) (x y : Byte) :
    s.twMailWrite [2] = s.twProto 2 ∧ s.twMailWrite [3, 0x80] = s.twProto 3 ∧
    s.twMailWrite [4, BitVec.ofNat 8 b.val, 0xFF, x, y] = s.twProto 4 ∧ s.twMailWrite [3, BitVec.ofNat 8 b.val] = s.twProto 6 := by
  refine ⟨rfl, rfl, ?_, ?_⟩ <;> simp only [State.twMailWrite, badBerth_berth] <;> rfl

/-- Process call with a read phase: a count other than 3, a length of 0, a berth byte above 3, an offset that the length
overruns, a byte beyond the count, and no offset. -/
theorem State.twCall_malformed (b : Fin 4) (x : Byte) :
    s.twCall [2] 1 true = s.twProto 2 ∧ s.twCall [3, BitVec.ofNat 8 b.val, x, 0] 1 true = s.twProto 2 ∧
    s.twCall [3, 0x10] 1 true = s.twProto 3 ∧ s.twCall [3, BitVec.ofNat 8 b.val, 0xFF, 2] 1 true = s.twProto 4 ∧
    s.twCall [3, BitVec.ofNat 8 b.val, 0, 1, x] 1 true = s.twProto 5 ∧ s.twCall [3, BitVec.ofNat 8 b.val] 1 true = s.twProto 6 := by
  refine ⟨rfl, ?_, rfl, ?_, ?_, ?_⟩ <;> simp only [State.twCall, badBerth_berth] <;> rfl

/-- Pointer write and pointer block write: too few bytes, and a length of 0. -/
theorem State.twPtr_malformed (x y : Byte) :
    s.twPtrWrite [x, y] = s.twProto 6 ∧ s.twPtrWrite [x, y, 0] = s.twProto 7 ∧
    s.twPtrData [0] = s.twProto 2 ∧ s.twPtrData [2, x] = s.twProto 6 :=
  ⟨rfl, rfl, rfl, rfl⟩

/-- A code that R210 does not list, and a code that only reads with a byte after its PEC. -/
theorem State.twWrite_malformed (x : Byte) :
    s.twWrite 0x7F [] = s.twProto 1 ∧ s.twWrite 0x02 [pec [s.tw.addrByte false, 0x02], x] = s.twProto 5 :=
  ⟨rfl, s.twWriteEnd_long (pecReq := false) (effect := id) 0x02 [] x []⟩

/-- A byte between the code of a read and its read phase (log 81). -/
theorem State.twRead_malformed (code x : Byte) (f : State → State) (h : s.tw.phase = .active) (hr : s.tw.readFirst = false) :
    s.twRead code [x] 1 f = s.twProto 5 := s.transaction_active _ h hr

/-! ## What flags of the channel change (R232 to R235, R244) -/

/-- `t` differs from `s` by the two-wire registers and by events, of which none is taken back, and the domains that wake. -/
structure Flagged (s t : State) : Prop where
  frame : t = { s with tw := t.tw, ev := t.ev, dom := t.dom }
  raised : ∀ n, s.ev.raised.getLsbD n = true → t.ev.raised.getLsbD n = true

namespace Flagged

variable {s t u : State}

theorem trans (h : Flagged s t) (k : Flagged t u) : Flagged s u := by
  refine ⟨?_, fun n hn => k.raised n (h.raised n hn)⟩
  obtain ⟨k, -⟩ := k
  obtain ⟨h, -⟩ := h
  rw [k, h]

theorem onTw (s : State) (f : Tw → Tw) : Flagged s (s.onTw f) := ⟨rfl, fun _ => id⟩

theorem raise (h : Flagged s t) (e : Nat) : Flagged s (t.raise e) :=
  by
  refine h.trans ⟨(t.raise_frame e).trans ?_, (Answered.raise t e).raised⟩
  rw [t.raise_tw]

theorem sbsFail (h : Flagged s t) (cause : BitVec 3) : Flagged s (t.sbsFail cause) := (h.trans (onTw t _)).raise 39

end Flagged

/-- A smart-battery read that fails: its cause, no read pending or in progress, and EV39 (R232). -/
theorem State.sbsFail_tw (cause : BitVec 3) : (s.sbsFail cause).tw =
    { s.tw with sbsCause := cause, sbsPending := false, sbsActive := false, sbsTries := 0 } := State.raise_tw _ 39

theorem State.sbsFail_raised (cause : BitVec 3) : (s.sbsFail cause).ev.raised = s.ev.raised ||| (1#96 <<< 39) := by
  simp [State.sbsFail]

/-! ## A lost arbitration (R230) -/

/-- The module leaves the bus to the controller that has won it. -/
def Tw.yields (t : Tw) : Tw := { t with arbCnt := satInc t.arbCnt, sbsActive := false, busy := true }

/-- The winner addresses the module, which becomes its target. -/
theorem execTwArbLost_own {a : Byte} (ha : s.tw.sbsActive = true) (h : (a >>> 1).setWidth 7 = s.tw.addr) :
    execTwArbLost (some a) s = .next ((s.onTw fun t => { t.yields with
      sbsPending := true, phase := .active, acked := true, readFirst := a.getLsbD 0, sent := [] }).wake 16 [.hif, .memB]) := by
  have own : ((some a).filter fun b : Byte => (b >>> 1).setWidth 7 == s.tw.addr) = some a := by simp [Option.filter, h]
  refine (if_pos ha).trans ?_
  show (match (some a).filter fun b : Byte => (b >>> 1).setWidth 7 == s.tw.addr with | some _ => _ | none => _) = _
  rw [own]
  rfl

/-- The loss falls outside an address byte: the read is tried again, or has failed at its third try. -/
theorem execTwArbLost_other (ha : s.tw.sbsActive = true) : execTwArbLost none s = .next
    (if 3 ≤ s.tw.sbsTries then (s.onTw Tw.yields).sbsFail 3 else s.onTw fun t => { t.yields with sbsPending := true }) :=
  if_pos ha

end Sys2Proof.Machine

namespace Sys2Proof.Proofs

open Sys2Proof Sys2Proof.Machine

theorem malformedTransactionsAreRecorded : Claims.MalformedTransactionsAreRecorded := by
  intro s x y b k h hr bb w call
  have run (f : State → State) {c : BitVec 3} (e : f s = s.twProto c) : (.next (s.transaction false f) : Out) = .next (s.twProto c) :=
    congrArg _ ((s.transaction_active f h hr).trans e)
  have read (code : Byte) (f : State → State) : (.next (s.twRead code [x] 1 f) : Out) = .next (s.twProto 5) :=
    congrArg _ (s.twRead_malformed code x f h hr)
  obtain ⟨ring6, ring3, ring5⟩ := s.twRingWrite_malformed b x
  obtain ⟨mail2, mail3, mail4, mail6⟩ := s.twMailWrite_malformed b x y
  obtain ⟨call2, call0, call3, call4, call5, call6⟩ := s.twCall_malformed b x
  obtain ⟨ptr6, ptr7, data2, data6⟩ := s.twPtr_malformed x y
  obtain ⟨code1, code5⟩ := s.twWrite_malformed x
  suffices ∀ r : Instr × BitVec 3, r ∈ _ → exec r.1 s = .next (s.twProto r.2) from fun r hm => (this r hm).trans (congrArg _ (s.twProto_eq r.2))
  simp only [List.forall_mem_cons]
  exact ⟨run _ code1, run _ mail2, run _ call2, run _ call0, run _ data2, run _ ring3, run _ mail3, run _ call3, run _ mail4,
    run _ call4, run _ ring5, run _ code5, read _ _, read _ _, read _ _, run _ call5, run _ ring6, run _ mail6, run _ call6,
    run _ ptr6, run _ data6, run _ ptr7, fun _ hn => by simp at hn⟩

theorem twoWireTimeoutsAndArbitration : Claims.TwoWireTimeoutsAndArbitration := by
  intro s
  refine ⟨fun hp => ?_, fun hp => if_neg (by simp [hp]), fun hp => ?_, fun hr hw => ?_, fun h r => if_neg ?_, fun ha => ?_, fun ha => ?_⟩
  · let m : State := ((s.onTw fun t => { t with
      tlowCnt := satInc t.tlowCnt, hscl := false, phase := if t.phase == .idle then .idle else .ignored }).twStat 0).raise 34
    have hm : Flagged s m := ((Flagged.onTw s _).trans (Flagged.onTw _ _)).raise 34
    have htw : m.tw = { s.tw with
        tlowCnt := satInc s.tw.tlowCnt, hscl := false, phase := if s.tw.phase == .idle then .idle else .ignored
        stat := s.tw.stat ||| 0x01 } := State.raise_tw _ 34
    have h34 : m.ev.raised.getLsbD 34 = true := State.raise_latched _ 34 (by decide)
    have e : exec .twClockLowTimeout s = .next (m.when m.tw.sbsActive (State.sbsFail 5)) := if_neg (by simp [hp])
    have hs : m.tw.sbsActive = s.tw.sbsActive := (congrArg Tw.sbsActive htw :)
    by_cases ha : s.tw.sbsActive = true
    · refine ⟨m.sbsFail 5, by rw [e, hs, ha]; rfl, (hm.sbsFail 5).frame, ?_⟩
      rw [State.sbsFail_tw, htw, State.sbsFail_raised]
      exact ⟨rfl, rfl, by simp [h34], by simp, rfl, fun _ => ⟨rfl, by simp⟩⟩
    · rw [Bool.not_eq_true] at ha
      refine ⟨m, by rw [e, hs, ha]; rfl, hm.frame, ?_⟩
      rw [htw]
      exact ⟨rfl, rfl, h34, by simp, ha, fun h => by simp [ha] at h⟩
  · exact ⟨if_pos (by simp [hp]), if_pos (by simp [hp])⟩
  · have due : (s.recovering && s.link.window.isNone) = true := by simp [hr, hw]
    exact ⟨fun k => if_pos due, if_pos due⟩
  · rcases h with h | h
    · simp [h]
    · cases hw : s.link.window <;> simp_all
  · refine ⟨fun a h => ⟨_, execTwArbLost_own s ha h, State.wake_frame _ _ _⟩, fun ht => ?_, fun ht => ?_, ?_⟩
    · exact (execTwArbLost_other s ha).trans (congrArg _ (if_neg (Nat.not_le.2 ht)))
    · exact (execTwArbLost_other s ha).trans (congrArg _ (if_pos ht))
    · refine ⟨_, if_pos ha, ((((Flagged.onTw s _).trans (Flagged.onTw _ _)).raise 36).sbsFail 4).frame, ?_⟩
      rw [State.sbsFail_tw, State.sbsFail_raised, State.raise_tw]
      exact ⟨rfl, rfl, rfl, by simp, by simp⟩
  · exact ⟨if_neg (by simp [ha]), fun a => if_neg (by simp [ha])⟩

/-- Settles O40: each malformed transaction is one record of its cause, and each time-out its flag, its event and the read that
fails. -/
theorem twoWireErrors : Obligations.TwoWireErrors :=
  ⟨malformedTransactionsAreRecorded, twoWireTimeoutsAndArbitration⟩

end Sys2Proof.Proofs
end

section
/-! PROOFS. The SPI port (R27, R186 to R192, R201, R202): how chip selects open, clash and end a transfer, and how the bytes
of a transfer are served. -/

namespace Sys2Proof.Machine

variable (s : State)

/-! ## A fall of a chip select (R27, R186, R189) -/

/-- The level of a chip select. -/
def Spi.low (second : Bool) (x : Spi) : Bool := if second then x.csB else x.csA

/-- A chip select is low and not ignored. -/
def Spi.heard (second : Bool) (x : Spi) : Bool := if second then x.csB && !x.deafB else x.csA && !x.deafA

/-- The level of a chip select does not decide whether a port works. -/
theorem State.portUp_setCs (second : Bool) (p : Port) : (s.onSpi (Spi.setCs second true)).portUp p = s.portUp p := by
  cases second <;> rfl

/-- A fall at a port that works, with the other chip select high or ignored, opens a transfer with a snapshot. -/
theorem execSpiCsFall_opens {second : Bool} (sck : Bool) (hl : s.spi.low second = false) (hp : s.portUp (csPort second) = true)
    (hc : s.spi.clash = false) (ho : s.spi.heard (!second) = false) : execSpiCsFall second sck s = .next
      ((s.onSpi (Spi.setCs second true)).putXfer { port := csPort second, mode3 := sck, sent := s.triplet (csPort second) }) := by
  have hp : ¬(!(s.onSpi (Spi.setCs second true)).portUp (csPort second)) = true := by simp [s.portUp_setCs, hp]
  have hc : ¬(s.onSpi (Spi.setCs second true)).spi.clash = true := by cases second <;> simp [Spi.setCs, hc]
  have ho : ¬(if second then s.spi.csA && !s.spi.deafA else s.spi.csB && !s.spi.deafB) = true := by
    cases second <;> simpa [Spi.heard] using ho
  exact (if_neg (Bool.eq_false_iff.1 hl)).trans ((if_neg hp).trans ((if_neg hc).trans (if_neg ho)))

/-- A fall at a port that does not work is ignored until the chip select is high again. -/
theorem execSpiCsFall_deaf {second : Bool} (sck : Bool) (hl : s.spi.low second = false) (hp : s.portUp (csPort second) = false) :
    execSpiCsFall second sck s = .next ((s.onSpi (Spi.setCs second true)).onSpi fun x =>
      if second then { x with deafB := true } else { x with deafA := true }) := by
  have hp : (!(s.onSpi (Spi.setCs second true)).portUp (csPort second)) = true := by simp [s.portUp_setCs, hp]
  exact (if_neg (Bool.eq_false_iff.1 hl)).trans (if_pos hp)

/-! ## The end of a transfer (R187, R201, R202) -/

/-- With no transfer in progress none ends. -/
theorem State.endXfer_none (k : Fin 8) (h : s.spi.xfer = none) : s.endXfer k = s := by simp only [State.endXfer, h]

/-- The transfer in progress ends; a partial byte sets PARTIAL. -/
theorem State.endXfer_spi {x : Xfer} (k : Fin 8) (h : s.spi.xfer = some x) : (s.endXfer k).spi = { s.spi with
    xfer := none, miso := x.sent, flags := if k = 0 then s.spi.flags else s.spi.flags ||| portFlag 4 x.port } := by
  simp only [State.endXfer, h]
  split <;> simp

/-- It changes the SPI records and, with a partial byte, raises EV42. -/
theorem State.endXfer_frame (k : Fin 8) : s.endXfer k =
    { s with spi := (s.endXfer k).spi, ev := (s.endXfer k).ev, dom := (s.endXfer k).dom } := by
  cases h : s.spi.xfer with
  | none => rw [s.endXfer_none k h]
  | some x =>
    simp only [State.endXfer, h]
    split
    · rfl
    · apply State.ext_parts <;> simp

/-- A whole byte raises nothing. -/
theorem State.endXfer_whole : (s.endXfer 0).ev = s.ev := by
  cases h : s.spi.xfer with
  | none => rw [s.endXfer_none 0 h]
  | some x =>
    simp only [State.endXfer, h]
    rfl

/-- A partial byte raises EV42. -/
theorem State.endXfer_partial {x : Xfer} {k : Fin 8} (h : s.spi.xfer = some x) (hk : k ≠ 0) :
    (s.endXfer k).ev.raised.getLsbD 42 = true := by
  simp only [State.endXfer, h, if_neg hk]
  exact State.raise_latched _ 42 (by decide)

/-- No transfer is left, and no clash is counted. -/
theorem State.endXfer_ended (k : Fin 8) : (s.endXfer k).spi.xfer = none ∧ (s.endXfer k).spi.clashCnt = s.spi.clashCnt := by
  cases h : s.spi.xfer with
  | none => rw [s.endXfer_none k h]; exact ⟨h, rfl⟩
  | some x => rw [s.endXfer_spi k h]; exact ⟨rfl, rfl⟩

/-! ## The bytes of a transfer (R188 to R192, R198) -/

theorem State.withXfer_some {x : Xfer} (f : Xfer → State → State) (h : s.spi.xfer = some x) : s.withXfer f = f x s := by
  simp only [State.withXfer, h]

theorem State.withXfer_none (f : Xfer → State → State) (h : s.spi.xfer = none) : s.withXfer f = s := by
  simp only [State.withXfer, h]

/-- A refusal is noted in the transfer's own record of refusals (R199, R285). -/
theorem State.refuse_xfer (x : Xfer) (a kind : Nat) (v : Verdict) :
    (s.refuse x a kind v).1 = { x with av := (s.refuse x a kind v).1.av, accOff := (s.refuse x a kind v).1.accOff } := by
  cases v <;> simp only [State.refuse] <;> split <;> rfl

/-- A written byte leaves the opcode, the cursor and what is driven of its transfer. -/
theorem State.xferWrite_xfer (x : Xfer) (a : Nat) (v : Byte) : ∃ w av off, (s.xferWrite x a v).1 = { x with
    wrote := w, av := av, accOff := off } := by
  simp only [State.xferWrite]
  split
  · exact ⟨_, _, _, rfl⟩
  · exact ⟨_, _, _, s.refuse_xfer _ _ _ _⟩

/-- A capture is kept in its transfer (R192). -/
theorem State.capture_xfer (x : Xfer) (rc : Bool) (base len : Nat) :
    s.capture x rc base len = { x with caps := (s.capture x rc base len).caps } := by
  simp only [State.capture]
  split <;> rfl

theorem State.rcDone_xfer (x : Xfer) (base len : Nat) :
    (s.rcDone x base len).1 = { x with caps := (s.rcDone x base len).1.caps } := by
  simp only [State.rcDone]
  split
  · rfl
  · split <;> rfl

/-- So does a read byte. -/
theorem State.xferRead_xfer (x : Xfer) (a : Nat) (complete : Bool) : ∃ c av off, (s.xferRead x a complete).2.1 = { x with
    caps := c, av := av, accOff := off } := by
  simp only [State.xferRead]
  split
  · split
    · exact ⟨_, _, _, s.capture_xfer _ _ _ _⟩
    · cases complete
      · exact ⟨_, _, _, s.capture_xfer _ _ _ _⟩
      · rename_i base len _ _
        refine ⟨(s.rcDone (s.capture x true base len) base len).1.caps, x.av, x.accOff, (s.rcDone_xfer (s.capture x true base len) base len).trans ?_⟩
        rw [s.capture_xfer]
    · exact ⟨_, _, _, rfl⟩
  · exact ⟨_, _, _, rfl⟩
  · exact ⟨_, _, _, s.refuse_xfer _ _ _ _⟩

section
variable {s} {x : Xfer}

/-- A byte of neither kind of capture is served as it stands. -/
theorem State.xferRead_served {a : Nat} (complete : Bool) (h : s.judge x.port a false = .served) (hr : blockOf rsBlocks a = none)
    (hc : blockOf rcFields a = none) : s.xferRead x a complete = (s.byteAt x.port a, x, s) := by
  simp only [State.xferRead, h, hr, hc]

/-- A hole reads 0x00. -/
theorem State.xferRead_hole {a : Nat} (complete : Bool) (h : s.judge x.port a false = .hole) :
    s.xferRead x a complete = (0x00, x, s) := by
  simp only [State.xferRead, h]

/-- A byte that the checks refuse reads 0xFF. -/
theorem State.xferRead_refused {a : Nat} (complete : Bool) (h : s.judge x.port a false ≠ .served)
    (hh : s.judge x.port a false ≠ .hole) : (s.xferRead x a complete).1 = 0xFF := by
  simp only [State.xferRead]

/-- A served byte of a write is written (R191). -/
theorem State.xferWrite_served {a : Nat} (v : Byte) (h : s.judge x.port a true = .served) :
    (s.xferWrite x a v).2 = s.writeByte x.port x.wrote a v := by
  simp only [State.xferWrite, h]

/-- A hole and a refused byte drop it. -/
theorem State.xferWrite_dropped {a : Nat} (v : Byte) (h : s.judge x.port a true = .hole ∨ s.judge x.port a true = .refused) :
    (s.xferWrite x a v).2 = s := by
  rcases h with h | h <;> simp only [State.xferWrite, h, State.refuse]

/-- The transfer as a byte of its WRITE is served: a byte of the latest snapshot is driven (R189). -/
def Xfer.writing (s : State) (x : Xfer) : Xfer :=
  let snap := if x.snap.isEmpty then s.triplet x.port else x.snap
  { x with opcode := some 0x02, sent := x.sent ++ snap.take 1, snap := snap.drop 1 }

/-- The transfer as a byte of its READ is served: LIVE is driven before the first (R189). -/
def Xfer.reading (s : State) (x : Xfer) : Xfer :=
  { x with opcode := some 0x0B, sent := if x.cursor.isSome then x.sent else x.sent ++ [s.live x.port] }

theorem execSpiWriteByte_some (hx : s.spi.xfer = some x) (ho : x.opcode = none ∨ x.opcode = some 0x02) (a : Half) (b : Byte) :
    execSpiWriteByte a b s =
      let r := s.xferWrite (x.writing s) (x.cursor.getD a).toNat b
      .next (r.2.putXfer { r.1 with cursor := some (x.cursor.getD a + 1) }) :=
  congrArg _ ((s.withXfer_some _ hx).trans (if_pos ho))

theorem execSpiReadByte_some (hx : s.spi.xfer = some x) (ho : x.opcode = none ∨ x.opcode = some 0x0B) (a : Half) (complete : Bool) :
    execSpiReadByte a complete s =
      let r := s.xferRead (x.reading s) (x.cursor.getD a).toNat complete
      .next (r.2.2.putXfer { r.2.1 with cursor := some (x.cursor.getD a + 1), sent := r.2.1.sent ++ [r.1] }) :=
  congrArg _ ((s.withXfer_some _ hx).trans (if_pos ho))

end

/-! ## A rise of a chip select (R187, R201, R202) -/

/-- A chip select that is high again is no longer ignored, and the clash ends with both of them high. -/
def Spi.rise (second : Bool) (x : Spi) : Spi :=
  let x := Spi.setCs second false (if second then { x with deafB := false } else { x with deafA := false })
  { x with clash := x.clash && (x.csA || x.csB) }

theorem Spi.rise_first (x : Spi) : x.rise false = { x with csA := false, deafA := false, clash := x.clash && x.csB } := by
  simp [Spi.rise, Spi.setCs]

theorem Spi.rise_second (x : Spi) : x.rise true = { x with csB := false, deafB := false, clash := x.clash && x.csA } := by
  simp [Spi.rise, Spi.setCs]

theorem execSpiCsRise_ends {second : Bool} (k : Fin 8) (h : s.spi.xfer.map (·.port) = some (csPort second)) :
    execSpiCsRise second k s = .next ((s.endXfer k).onSpi (Spi.rise second)) :=
  congrArg (fun t : State => (.next (t.onSpi (Spi.rise second)) : Out)) (if_pos h)

theorem execSpiCsRise_none (second : Bool) (k : Fin 8) (h : s.spi.xfer = none) :
    execSpiCsRise second k s = .next (s.onSpi (Spi.rise second)) :=
  congrArg (fun t : State => (.next (t.onSpi (Spi.rise second)) : Out)) (if_neg (by simp [h]))

end Sys2Proof.Machine

namespace Sys2Proof.Proofs

open Sys2Proof Sys2Proof.Machine

theorem chipSelectsFrameTransfers : Claims.ChipSelectsFrameTransfers := by
  intro s sck k
  refine ⟨fun h => if_pos h, fun hl hp hc ho => ?_, fun hl hp hc ho => ?_, fun hl hp => ?_, fun hl hp => ?_, fun hp ha hb => ?_,
    fun x hx hport => ?_, fun hx => ?_⟩
  · exact execSpiCsFall_opens s (second := false) sck hl hp hc (by rcases ho with h | h <;> simp [Spi.heard, h])
  · exact execSpiCsFall_opens s (second := true) sck hl hp hc (by rcases ho with h | h <;> simp [Spi.heard, h])
  · exact execSpiCsFall_deaf s (second := false) sck hl hp
  · exact execSpiCsFall_deaf s (second := true) sck hl hp
  · have clash : execSpiCsClash k s = .next ((s.csClash k).onSpi fun x => { x with csA := true, csB := true }) :=
      if_pos (by rw [hp, ha, hb]; rfl)
    refine ⟨fun hc => clash.trans (congrArg _ (congrArg _ (if_pos hc))), fun hc => ⟨_, clash, ?_⟩⟩
    have begun : s.csClash k = ((s.endXfer k).onSpi fun x =>
      { x with clash := true, flags := x.flags ||| 0x08, clashCnt := satInc x.clashCnt }).raise 41 := if_neg (by simp [hc])
    obtain ⟨hxfer, hcnt⟩ := s.endXfer_ended k
    rw [begun]
    refine ⟨?_, by simp, by simpa using hxfer, by simp [hcnt], by simp, by simp, fun x hx hk hport => ?_⟩
    · have frame := s.endXfer_frame k
      generalize s.endXfer k = t at frame
      rw [frame]
      apply State.ext_parts <;> simp
    · have h42 := s.endXfer_partial hx hk
      simp [s.endXfer_spi k hx, hk, h42, hport, portFlag, portCode]
  · have port : s.spi.xfer.map (·.port) = some (csPort false) := by rw [hx, Option.map_some, hport]; rfl
    refine ⟨_, execSpiCsRise_ends s k port, congrArg (State.onSpi (Spi.rise false)) (s.endXfer_frame k), ?_⟩
    have spi : ((s.endXfer k).onSpi (Spi.rise false)).spi = _ := Spi.rise_first _
    rw [spi, s.endXfer_spi k hx]
    refine ⟨rfl, rfl, rfl, rfl, rfl, fun hk => ?_, fun hk => ⟨?_, s.endXfer_partial hx hk⟩⟩
    · subst hk
      exact ⟨rfl, s.endXfer_whole⟩
    · show (if k = 0 then _ else _) = _
      rw [if_neg hk, hport]
      rfl
  · refine (execSpiCsRise_none s true k hx).trans ?_
    rw [State.onSpi, Spi.rise_second]

theorem transferBytesAreServed : Claims.TransferBytesAreServed := by
  intro s a b n
  refine ⟨fun hx => ?_, fun x hx => ⟨fun ho => ?_, fun ho h0 h2 hB hr => ?_, fun ho => ?_, fun ho => ?_, fun ho => ?_⟩⟩
  · simp only [List.forall_mem_cons]
    have idle (f : Xfer → State → State) : (.next (s.withXfer f) : Out) = .next s := congrArg _ (s.withXfer_none f hx)
    exact ⟨idle _, idle _, idle _, idle _, idle _, fun _ h => by simp at h⟩
  · have hd : x.opcode.getD 0x00 = 0x00 := by rcases ho with h | h <;> rw [h] <;> rfl
    refine congrArg _ ((s.withXfer_some _ hx).trans ((if_neg ?_).trans ?_))
    · rcases ho with h | h <;> simp [h]
    · rw [hd]
      rfl
  · exact congrArg _ ((s.withXfer_some _ hx).trans (if_pos ⟨ho, h0, h2, hB, hr⟩))
  · exact congrArg _ ((s.withXfer_some _ hx).trans (if_pos ho))
  · intro cur
    refine ⟨_, execSpiWriteByte_some hx ho a b, ?_⟩
    obtain ⟨w, av, off, hr⟩ := s.xferWrite_xfer (x.writing s) cur.toNat b
    refine ⟨fun y hy => ?_, rfl, fun hj => ?_, fun hj => ?_⟩
    · obtain rfl : _ = y := Option.some.inj hy
      rw [hr]
      exact ⟨rfl, rfl, rfl⟩
    · rw [State.xferWrite_served (x := x.writing s) b hj]
      rfl
    · rw [State.xferWrite_dropped (x := x.writing s) b hj]
      rfl
  · intro cur
    refine ⟨_, execSpiReadByte_some hx ho a true, fun y hy => ?_, rfl⟩
    obtain ⟨c, av, off, hr⟩ := s.xferRead_xfer (x.reading s) cur.toNat true
    obtain rfl : _ = y := Option.some.inj hy
    have last : ∀ (l : List Byte) v, (l ++ [v]).getLastD 0 = v := fun l v => by simp
    refine ⟨rfl, ?_, ?_, fun hj hrs hrc => ?_, fun hj => ?_, fun hj => ?_, fun m hj => ?_⟩
    · rw [hr]; rfl
    · rw [last, hr]; rfl
    · rw [last, State.xferRead_served (x := x.reading s) true hj hrs hrc]
      exact ⟨rfl, rfl⟩
    · rw [last, State.xferRead_hole (x := x.reading s) true hj]
      exact ⟨rfl, rfl⟩
    · rw [last]
      exact State.xferRead_refused (x := x.reading s) true (fun h => by cases hj.symm.trans h) (fun h => by cases hj.symm.trans h)
    · rw [last]
      exact State.xferRead_refused (x := x.reading s) true (fun h => by cases hj.symm.trans h) (fun h => by cases hj.symm.trans h)

/-- Settles O37: a fall opens one transfer, a rise or a clash ends it in one way, and each byte is one of its checks' verdicts. -/
theorem spiTransfersAreFramedAndServed : Obligations.SpiTransfersAreFramedAndServed :=
  ⟨chipSelectsFrameTransfers, transferBytesAreServed⟩

end Sys2Proof.Proofs
end

section
/-! PROOFS. The synchronous rectifier (R94) and the charger (R96, R100 to R108): what the 1 ms test finds in each state, and
what entering a state changes. -/

namespace Sys2Proof.Machine

variable (s : State)

/-! ## Entering a state (R101, R103, R105) -/

/-- The states whose entry from `c` returns the safety timers to 0 (R103). -/
def ChgState.clears (c goal : ChgState) : Bool :=
  goal != c && (goal == .done || goal == .off || (goal == .wait && c.charging))

/-- The power path after an entry. -/
theorem State.chgEnter_power (goal : ChgState) : (s.chgEnter goal).power = { s.power with
    chg := goal, preMs := if s.power.chg.clears goal then 0 else s.power.preMs
    fastMs := if s.power.chg.clears goal then 0 else s.power.fastMs, lowMs := if goal = s.power.chg then s.power.lowMs else 0 } := by
  by_cases h : goal = s.power.chg
  · subst h
    simp [State.chgEnter, ChgState.clears]
  · simp only [State.chgEnter, if_neg h, State.when, apply_ite State.power, State.raise_power, State.onGauge_power,
      State.onPower_power, ite_self]
    have hc : (goal != s.power.chg) = true := by simpa using h
    simp only [ChgState.clears, hc, Bool.true_and]

/-- What an entry leaves alone, by what its parts leave alone. -/
theorem State.chgEnter_part {α : Type} (g : State → α) (hp : ∀ (t : State) f, g (t.onPower f) = g t)
    (hg : ∀ (t : State) f, g (t.onGauge f) = g t) (hr : ∀ (t : State) e, g (t.raise e) = g t) (goal : ChgState) :
    g (s.chgEnter goal) = g s := by
  by_cases h : goal = s.power.chg
  · simp only [State.chgEnter, if_pos h]
  · simp only [State.chgEnter, if_neg h]
    rw [State.when_keeps _ g _ _ (hr _ 10), State.when_keeps _ g _ _ (hr _ 9), State.when_keeps _ g _ _ (hg _ _),
      State.when_keeps _ g _ _ (hr _ 8), hp]

/-- An entry changes the power path, the gauge's note of a charge, events, and the domains that wake. -/
theorem State.chgEnter_frame (goal : ChgState) : s.chgEnter goal = { s with
    power := (s.chgEnter goal).power, gauge := (s.chgEnter goal).gauge, ev := (s.chgEnter goal).ev, dom := (s.chgEnter goal).dom } :=
  congrArg (fun t : State => { t with
      power := (s.chgEnter goal).power, gauge := (s.chgEnter goal).gauge, ev := (s.chgEnter goal).ev, dom := (s.chgEnter goal).dom })
    (s.chgEnter_part (fun t => { t with power := s.power, gauge := s.gauge, ev := s.ev, dom := s.dom }) (fun _ _ => rfl)
      (fun _ _ => rfl) (fun t e => by rw [t.raise_frame e]) goal)

/-- A charge that starts raises EV08. -/
theorem State.chgEnter_starts {goal : ChgState} (hg : goal = .pre ∨ goal = .cc) (hc : s.power.chg.charging = false) :
    (s.chgEnter goal).ev.raised.getLsbD 8 = true := by
  have h : ¬goal = s.power.chg := fun e => by rcases hg with h | h <;> (rw [← e, h] at hc; simp [ChgState.charging] at hc)
  have hs : ((goal == .pre || goal == .cc) && !s.power.chg.charging) = true := by rcases hg with h | h <;> simp [h, hc]
  simp only [State.chgEnter, if_neg h, hs, State.when_true]
  rcases hg with rfl | rfl <;> simp [State.when]

/-- A fault raises EV10. -/
theorem State.chgEnter_fault (h : s.power.chg ≠ .fault) : s.chgEnter .fault =
    (s.onPower fun p => { p with chg := .fault, lowMs := 0 }).raise 10 := by
  simp only [State.chgEnter, if_neg h.symm]
  rfl

/-- The end of a charge in CV raises EV09. -/
theorem State.chgEnter_done (h : s.power.chg = .cv) : s.chgEnter .done =
    (s.onPower fun p => { p with chg := .done, preMs := 0, fastMs := 0, lowMs := 0 }).raise 9 := by
  simp only [State.chgEnter, h]
  rfl

/-- Any other entry of a state that charges nothing raises nothing. -/
theorem State.chgEnter_quiet {goal : ChgState} (hg : goal = .wait ∨ goal = .suspend ∨ goal = s.power.chg) :
    (s.chgEnter goal).ev = s.ev := by
  by_cases h : goal = s.power.chg
  · simp only [State.chgEnter, if_pos h]
  · simp only [State.chgEnter, if_neg h]
    rcases hg with rfl | rfl | e
    · rfl
    · rfl
    · exact absurd e h

/-! ## What the 1 ms test finds (R100, R101, R106) -/

/-- The temperature forbids charging: no TS result, or a zone that charges nothing. -/
def State.chgBad : Bool := s.noTs || !s.power.zone.charges

/-- It permits charging in the zones COOL, NORMAL and WARM. -/
theorem State.chgBad_not :
    (!s.noTs && (s.power.zone == .cool || s.power.zone == .normal || s.power.zone == .warm)) = !s.chgBad := by
  unfold State.chgBad
  cases s.noTs <;> cases s.power.zone <;> rfl

theorem ChgState.charging_eq (c : ChgState) : (c == .pre || c == .cc || c == .cv) = c.charging := by cases c <;> rfl

/-- The loss of a charge's input returns both safety timers to 0. -/
theorem ChgState.clears_wait {c : ChgState} (h : c.charging = true) : c.clears .wait = true := by
  cases c <;> simp_all [ChgState.clears, ChgState.charging]

section
variable {s} {vbat vsys : Nat}

theorem State.chgNext_wait (h : s.power.chg = .wait) (hb : s.chgBad = false) : s.chgNext vbat vsys =
    if (s.power.src = some .adp ∨ s.power.src = some .aux) ∧ vbat + 1500 ≤ vsys then (if vbat < s.power.vPre then .pre else .cc)
    else .wait := by
  have hb : (s.noTs || !s.power.zone.charges) = false := hb
  simp only [State.chgNext, h, hb, Bool.false_eq_true, if_false]

theorem State.chgNext_suspend (h : s.power.chg = .suspend) (hb : s.chgBad = false) : s.chgNext vbat vsys = .wait := by
  have hb : (s.noTs || !s.power.zone.charges) = false := hb
  simp only [State.chgNext, h, hb, Bool.false_eq_true, if_false]

theorem State.chgNext_done (h : s.power.chg = .done) (hb : s.chgBad = false) :
    s.chgNext vbat vsys = if vbat < s.power.vRecharge then .wait else .done := by
  have hb : (s.noTs || !s.power.zone.charges) = false := hb
  simp only [State.chgNext, h, hb, Bool.false_eq_true, if_false]

theorem State.chgNext_fault (h : s.power.chg = .fault) : s.chgNext vbat vsys = .fault := by
  simp only [State.chgNext, h]

/-- While charging: the overvoltage first, then the temperature, then the input, then the charge's own progress. -/
theorem State.chgNext_charging (h : s.power.chg.charging = true) : s.chgNext vbat vsys =
    if s.power.vOver < vbat then .fault else if s.chgBad then .suspend
    else if s.power.src = some .bat ∨ vsys < vbat + 800 then .wait
    else if s.power.chg = .pre then (if s.power.vPre + s.power.n * 100 ≤ vbat then .cc else .pre)
    else if s.power.chg = .cc then (if s.power.vZone ≤ vbat then .cv else .cc) else s.power.chg := by
  cases hc : s.power.chg <;> simp only [hc, ChgState.charging, Bool.false_eq_true] at h <;> simp only [State.chgNext, hc] <;> rfl

/-- A charge that goes on while its input lasts. -/
theorem State.chgNext_goesOn (h : s.power.chg.charging = true) (hv : ¬s.power.vOver < vbat) (hb : s.chgBad = false) :
    s.chgNext vbat vsys = if (s.power.src != some .bat && decide (vbat + 800 ≤ vsys)) = false then .wait
      else if s.power.chg = .pre then (if s.power.vPre + s.power.n * 100 ≤ vbat then .cc else .pre)
      else if s.power.chg = .cc then (if s.power.vZone ≤ vbat then .cv else .cc) else s.power.chg := by
  have hi : (s.power.src = some .bat ∨ vsys < vbat + 800) ↔
      (s.power.src != some .bat && decide (vbat + 800 ≤ vsys)) = false := by simp [or_iff_not_imp_left]
  rw [State.chgNext_charging h, if_neg hv, hb]
  simp only [hi, Bool.false_eq_true, if_false]

/-- A temperature that forbids charging suspends every state but OFF and FAULT that no overvoltage takes first. -/
theorem State.chgNext_bad (ho : s.power.chg ≠ .off) (hf : s.power.chg ≠ .fault)
    (hv : s.power.chg.charging = true → ¬s.power.vOver < vbat) (hb : s.chgBad = true) : s.chgNext vbat vsys = .suspend := by
  cases hc : s.power.chg.charging with
  | true => rw [State.chgNext_charging hc, if_neg (hv hc), if_pos hb]
  | false =>
    have hb : (s.noTs || !s.power.zone.charges) = true := hb
    cases h : s.power.chg <;> simp_all [State.chgNext, ChgState.charging]

end

/-! ## The 1 ms test (R103, R105) -/

/-- The power path after 1 ms of the running timers; `high` notes an overvoltage in CHG_FAULT. -/
def Power.tested (imeas : Half) (high : Bool) (p : Power) : Power :=
  { p with
    ichgMeas := imeas, preMs := if p.chg = .pre then p.preMs + 1 else p.preMs
    fastMs := if p.chg = .cc ∨ p.chg = .cv then p.fastMs + 1 else p.fastMs
    lowMs := if p.chg = .cv ∧ imeas.toNat < p.iTerm then p.lowMs + 1 else 0
    chgFault := if high then p.chgFault ||| 0b00100 else p.chgFault }

section
variable (vbat vsys : Nat) (imeas : Half)

/-- The state after a test: the timers, and the entry of the state found. -/
def State.chgTested : State :=
  (s.onPower (Power.tested imeas (s.power.chg.charging && s.chgNext vbat vsys == .fault))).chgEnter (s.chgNext vbat vsys)

theorem execChgStateTest_runs (h : s.chargerMayRun = true) :
    execChgStateTest vbat vsys imeas s = .next (s.chgTested vbat vsys imeas) := by
  refine (if_pos h).trans (congrArg (fun t : State => (.next (t.chgEnter (s.chgNext vbat vsys)) : Out)) ?_)
  show State.when (s.power.chg.charging && s.chgNext vbat vsys == .fault) _ _ = _
  cases s.power.chg.charging && s.chgNext vbat vsys == .fault <;> rfl

end

section
variable {s} {vbat vsys : Nat} (imeas : Half) {goal : ChgState} (e : s.chgNext vbat vsys = goal)
include e

theorem State.chgTested_power : (s.chgTested vbat vsys imeas).power =
    { s.power.tested imeas (s.power.chg.charging && goal == .fault) with
      chg := goal, preMs := if s.power.chg.clears goal then 0 else (s.power.tested imeas false).preMs
      fastMs := if s.power.chg.clears goal then 0 else (s.power.tested imeas false).fastMs
      lowMs := if goal = s.power.chg then (s.power.tested imeas false).lowMs else 0 } := by
  subst e
  exact State.chgEnter_power _ _

/-- A charge that starts raises EV08. -/
theorem State.chgTested_starts (hg : goal = .pre ∨ goal = .cc) (hc : s.power.chg.charging = false) :
    (s.chgTested vbat vsys imeas).ev.raised.getLsbD 8 = true := by
  subst e
  exact State.chgEnter_starts _ hg hc

/-- An overvoltage raises EV10. -/
theorem State.chgTested_fault (hg : goal = .fault) (hc : s.power.chg ≠ .fault) :
    (s.chgTested vbat vsys imeas).ev.raised.getLsbD 10 = true := by
  subst hg
  rw [State.chgTested, e]
  refine (congrArg (fun t : State => t.ev.raised.getLsbD 10) (State.chgEnter_fault (s.onPower _) ?_)).trans
    (State.raise_latched _ 10 (by decide))
  exact hc

/-- A test that starts and ends no charge raises nothing. -/
theorem State.chgTested_quiet (hg : goal = .wait ∨ goal = .suspend ∨ goal = s.power.chg) :
    (s.chgTested vbat vsys imeas).ev = s.ev := by
  subst e
  exact State.chgEnter_quiet _ hg

end

end Sys2Proof.Machine

namespace Sys2Proof.Proofs

open Sys2Proof Sys2Proof.Machine

theorem synchronousRectifierDrivesSrg : Claims.SynchronousRectifierDrivesSrg := by
  intro s vaux
  have on : exec (.srTurnOn vaux) s = .next (s.onPower fun p =>
    { p with srg := s.isOn .pwr && p.srEn && !s.dom.padHeld.getLsbD 0 && decide (8000 ≤ vaux) }) := rfl
  refine ⟨fun hp hs hh hv => ?_, fun h => ?_, rfl, rfl⟩ <;> rw [on]
  · rw [hp, hh, decide_eq_true hv]
    simp [State.onPower, hs]
  · rcases h with h | h | h | h
    · rw [h]; rfl
    · simp [State.onPower, h]
    · rw [h]; simp [State.onPower]
    · rw [decide_eq_false (Nat.not_le.2 h)]; simp [State.onPower]

theorem chargerRegulatesItsZone : Claims.ChargerRegulatesItsZone := by
  intro p icc
  refine ⟨fun h => ?_, fun h => ?_, fun h => ?_, fun h => ?_, ?_⟩
  · simp [Power.iReg, Power.vReg, h, currentOf]
  · simp [Power.iReg, Power.vReg, h, currentOf, icc]
  · simp [Power.iReg, Power.vReg, h, Power.vZone, Power.vRegCell, Power.n]
  · cases hc : p.chg <;> simp_all [Power.iReg, Power.vReg]
  · cases hc : p.chg <;> simp [Power.switches, ChgState.charging, hc, and_assoc]

theorem chargerEndsAndFaults : Claims.ChargerEndsAndFaults := by
  intro s vbat vsys imeas p preOut fastOut
  refine ⟨fun h => ?_, fun hc hl => ?_, fun h => if_neg ?_, fun h => ?_, fun h => if_neg h, fun h => ?_, fun h => if_neg h,
    fun h => if_pos ?_, fun h1 h2 h3 => if_neg ?_, fun ho hh => if_pos ?_, fun h => if_neg ?_, rfl⟩
  · have hr : s.chargerMayRun = false := by rcases h with h | h | h <;> simp [State.chargerMayRun, h, p]
    exact (if_neg (by simp [hr])).trans (congrArg _ (if_neg (by simp [hr])))
  · exact (if_pos ⟨hc, hl⟩).trans (congrArg _ (s.chgEnter_done hc))
  · rintro ⟨hc, hl⟩
    rcases h with h | h
    · exact h hc
    · exact absurd hl (Nat.not_le.2 h)
  · have hc : s.power.chg = .pre := h.1
    exact (if_pos h).trans (congrArg _ (State.chgEnter_fault (s.onPower _) (show s.power.chg ≠ .fault by rw [hc]; decide)))
  · have hc : s.power.chg = .cc ∨ s.power.chg = .cv := h.1
    exact (if_pos h).trans (congrArg _ (State.chgEnter_fault (s.onPower _)
      (show s.power.chg ≠ .fault by rcases hc with hc | hc <;> rw [hc] <;> decide)))
  · show s.power.chg.charging = true
    rcases h with h | h | h <;> (have h : s.power.chg = _ := h; rw [h]; rfl)
  · show ¬s.power.chg.charging = true
    have h : s.power.chg ≠ .pre ∧ s.power.chg ≠ .cc ∧ s.power.chg ≠ .cv := ⟨h1, h2, h3⟩
    cases hc : s.power.chg <;> simp_all [ChgState.charging]
  · have hh : s.power.hotStop = false := hh
    have ho : (s.power.chg != .off) = true := by simpa using ho
    rw [ho, hh]
    rfl
  · have h : s.power.chg = .off ∨ s.power.hotStop = true := h
    rcases h with h | h <;> simp [h]

theorem chargerMovesAsItsTableSays : Claims.ChargerMovesAsItsTableSays := by
  intro s vbat vsys imeas hon hen hcells n vPre vZone good charging high input hoff
  have run : s.chargerMayRun = true := by
    simpa [State.chargerMayRun, hon, hen] using hcells
  have bad (hg : good = false) : s.chgBad = true := by simpa [good, s.chgBad_not] using hg
  have fine (hg : good = true) : s.chgBad = false := by simpa [good, s.chgBad_not] using hg
  have charges : charging = s.power.chg.charging := s.power.chg.charging_eq
  have within (hc : charging = true) (hh : high = false) : ¬s.power.vOver < vbat := by
    have hh : (charging && decide (s.power.vOver < vbat)) = false := hh
    simpa [hc] using hh
  have ends (hc : charging = true) (hh : high = false) (hg : good = true) (hi : input = false) :=
    (State.chgNext_goesOn (vsys := vsys) (charges ▸ hc) (within hc hh) (fine hg)).trans (if_pos hi)
  have goesOn (hc : s.power.chg.charging = true) (hh : high = false) (hg : good = true) (hi : input = true) :=
    (State.chgNext_goesOn (vsys := vsys) hc (within (charges.trans hc) hh) (fine hg)).trans
      (if_neg fun h => Bool.noConfusion (hi.symm.trans h))
  refine ⟨_, execChgStateTest_runs s vbat vsys imeas run, State.chgEnter_frame _ _, ?_, fun hc hg hs hv => ?_, fun hh => ?_,
    fun hf hh hg => ?_, fun hc hg => ?_, fun hc hh hg hi => ?_, fun hc hh hg hi => ?_, fun hc hh hg hi => ?_,
    fun hc hh hg hi => ?_, fun hc hg => ?_, fun hc => ?_⟩
  · rw [State.chgTested_power imeas rfl]
    rfl
  · have e := (State.chgNext_wait (vbat := vbat) (vsys := vsys) hc (fine hg)).trans (if_pos ⟨hs, hv⟩)
    refine ⟨by rw [State.chgTested_power imeas e]; rfl, State.chgTested_starts imeas e ?_ (by rw [hc]; rfl)⟩
    split <;> simp
  · obtain ⟨hc, hv⟩ : s.power.chg.charging = true ∧ s.power.vOver < vbat := by
      have hh : (charging && decide (s.power.vOver < vbat)) = true := hh
      simpa [charges] using hh
    have e := (State.chgNext_charging (vsys := vsys) hc).trans (if_pos hv)
    rw [State.chgTested_power imeas e]
    exact ⟨rfl, if_pos (by rw [hc]; rfl), State.chgTested_fault imeas e rfl fun h => by rw [h] at hc; exact absurd hc (by decide)⟩
  · have e := State.chgNext_bad (vbat := vbat) (vsys := vsys) hoff hf (fun hc => within (charges.trans hc) hh) (bad hg)
    rw [State.chgTested_power imeas e]
    exact ⟨rfl, State.chgTested_quiet imeas e (.inr (.inl rfl))⟩
  · have e := State.chgNext_suspend (vbat := vbat) (vsys := vsys) hc (fine hg)
    rw [State.chgTested_power imeas e]
    refine ⟨rfl, ?_⟩
    show (if s.power.chg.clears _ then 0 else if s.power.chg = .cc ∨ s.power.chg = .cv then _ else _) = _
    rw [hc]
    rfl
  · have e := ends hc hh hg hi
    rw [State.chgTested_power imeas e]
    have cleared := ChgState.clears_wait (charges ▸ hc)
    exact ⟨rfl, if_pos cleared, if_pos cleared⟩
  · have e := (goesOn (by rw [hc]; rfl) hh hg hi).trans (if_pos hc)
    rw [State.chgTested_power imeas e]
    refine ⟨rfl, ?_⟩
    show (if s.power.chg.clears _ then 0 else if s.power.chg = .pre then _ else _) = _
    rw [hc]
    split <;> rfl
  · have e := (goesOn (by rw [hc]; rfl) hh hg hi).trans ((if_neg (by rw [hc]; decide)).trans (if_pos hc))
    rw [State.chgTested_power imeas e]
    refine ⟨rfl, ?_⟩
    show (if s.power.chg.clears _ then 0 else if s.power.chg = .cc ∨ s.power.chg = .cv then _ else _) = _
    rw [hc]
    split <;> rfl
  · have e := (goesOn (by rw [hc]; rfl) hh hg hi).trans
      ((if_neg (by rw [hc]; decide)).trans ((if_neg (by rw [hc]; decide)).trans hc))
    rw [State.chgTested_power imeas e]
    refine ⟨rfl, ?_, ?_⟩
    · show (if s.power.chg.clears _ then 0 else if s.power.chg = .cc ∨ s.power.chg = .cv then _ else _) = _
      rw [hc]
      rfl
    · show (if ChgState.cv = s.power.chg then if s.power.chg = .cv ∧ _ then _ else _ else _) = _
      rw [hc]
      simp only [if_true, true_and]
      rfl
  · have e := State.chgNext_done (vbat := vbat) (vsys := vsys) hc (fine hg)
    rw [State.chgTested_power imeas e]
    rfl
  · have e := State.chgNext_fault (vbat := vbat) (vsys := vsys) hc
    rw [State.chgTested_power imeas e]
    exact ⟨rfl, State.chgTested_quiet imeas e (.inr (.inr hc.symm))⟩

/-- Settles O21: a test is the state that it finds and the entry of that state, each said once. -/
theorem chargerAndRectifierRun : Obligations.ChargerAndRectifierRun :=
  ⟨synchronousRectifierDrivesSrg, chargerRegulatesItsZone, chargerMovesAsItsTableSays, chargerEndsAndFaults⟩

end Sys2Proof.Proofs
end

section
/-! PROOFS. Resets of the switched domains (R74, R176 to R179): what the ends of a learn and of a measurement leave unchanged,
what a reset makes of every part, and its release. -/

namespace Sys2Proof.Machine

/-! ## The ends of a learn and of a measurement (R61, R137, R411, R422) -/

/-- The domains but for their states and the wakes that are latched. -/
def Domains.unwoken (x : Domains) : Domains :=
  { x with cpu := {}, memM := {}, memB := {}, log := {}, gauge := {}, pwr := {}, hif := {}, wakeFlags := 0, wakePend := 0 }

theorem State.wake_unwoken (s : State) (bit : Nat) (ds : List Domain) : (s.wake bit ds).dom.unwoken = s.dom.unwoken := by
  rw [s.wake_keeps Domains.unwoken (fun x d v => by cases d <;> rfl)]
  unfold Domains.latch
  split <;> rfl

theorem State.raise_unwoken (s : State) (e : Nat) : (s.raise e).dom.unwoken = s.dom.unwoken := by
  unfold State.raise State.when
  split
  · exact State.wake_unwoken (s.onEv _) 18 _
  · rfl

/-- `t` differs from `s` by what ends with the link and with a learn: the link, the trim engine, LEARN and LAST_DISQ, the
records and restarts that firmware owes, and events with what they wake. -/
structure Ended (s t : State) : Prop where
  frame : t = { s with
    link := t.link, trim := t.trim, gauge := t.gauge, ev := t.ev, dom := t.dom, fw := t.fw, free := t.free }
  dom : t.dom.unwoken = s.dom.unwoken
  ev : t.ev = { s.ev with raised := t.ev.raised }
  fw : t.fw = { s.fw with recQ := t.fw.recQ, trimRestart := t.fw.trimRestart }
  gauge : t.gauge = { s.gauge with learn := t.gauge.learn, lastDisq := t.gauge.lastDisq }

namespace Ended

variable {s t u : State}

theorem refl (s : State) : Ended s s := ⟨rfl, rfl, rfl, rfl, rfl⟩

theorem trans (h : Ended s t) (k : Ended t u) : Ended s u := by
  refine ⟨?_, k.dom.trans h.dom, ?_, ?_, ?_⟩
  · rw [k.frame, h.frame]
  · rw [k.ev, h.ev]
  · rw [k.fw, h.fw]
  · rw [k.gauge, h.gauge]

theorem raise (s : State) (e : Nat) : Ended s (s.raise e) := by
  refine ⟨?_, s.raise_unwoken e, ?_, ?_, ?_⟩
  · apply State.ext_parts <;> simp
  all_goals simp

theorem when (s : State) (c : Bool) (f : State → State) (hf : Ended s (f s)) : Ended s (s.when c f) := by
  cases c
  · exact refl s
  · exact hf

/-- A record waits for firmware that does not run. -/
theorem record (h : s.fw.started = false) (b : Fin 4) (stamp : BitVec 64) (type path rflags : Byte) (payload : List Byte) :
    Ended s (s.record b stamp type path rflags payload) := by
  have hr : s.ringsUp = false := by simp [State.ringsUp, h]
  unfold State.record
  rw [hr, h, Bool.and_false]
  exact ⟨rfl, rfl, rfl, rfl, rfl⟩

theorem fill (s : State) (fs : List (Nat × Option (List Byte))) : Ended s (s.fill fs).2 := by
  unfold State.fill
  dsimp only
  split
  · exact refl s
  · exact ⟨rfl, rfl, rfl, rfl, rfl⟩

theorem fill_started (s : State) (fs : List (Nat × Option (List Byte))) : (s.fill fs).2.fw = s.fw := by
  unfold State.fill
  dsimp only
  split <;> rfl

theorem gaugeRecord (h : s.fw.started = false) (bit : Nat) (type : Byte) (clamped : Bool) (payload : List Byte) :
    Ended s (s.gaugeRecord bit type clamped payload) := by
  unfold State.gaugeRecord
  split
  · split
    · exact record h _ _ _ _ _ _
    · exact refl s
  · exact refl s

/-- A learn ends at once, and its record waits (R411, R422). -/
theorem learnDisq (h : s.fw.started = false) (cause : Nat) : Ended s (s.learnDisq cause) := by
  unfold State.learnDisq
  split
  · dsimp only
    refine (when s _ _ ?_).trans (trans (t := State.onGauge _ _) ⟨rfl, rfl, rfl, rfl, rfl⟩ (raise _ 84))
    exact (fill s _).trans (gaugeRecord (by rw [fill_started, h]) _ _ _ _)
  · split
    · exact ⟨rfl, rfl, rfl, rfl, rfl⟩
    · exact refl s
  · exact refl s

/-- A measurement aborts (R137). -/
theorem trimAbort (s : State) (cause : Nat) : Ended s (s.trimAbort cause) := by
  unfold State.trimAbort
  split
  · dsimp only
    split
    · exact trans (t := State.onFw _ (s.onTrim _)) ⟨rfl, rfl, rfl, rfl, rfl⟩ (raise _ 26)
    · exact trans (t := s.onTrim _) ⟨rfl, rfl, rfl, rfl, rfl⟩ (raise _ 26)
  · exact refl s

/-- The link leaves UP (R61). -/
theorem linkLeavesUp (s : State) : Ended s s.linkLeavesUp := by
  unfold State.linkLeavesUp
  split
  · exact trans (t := s.onLink _) ⟨rfl, rfl, rfl, rfl, rfl⟩ (trimAbort _ 1)
  · exact refl s

end Ended

/-! ## What a reset makes of every part (R169, R177, R178) -/

variable (s : State)

/-- The learn and the measurement that a reset ends, firmware being stopped. -/
def State.stopped : State :=
  ((s.onFw fun f => { f with started := false, recQ := [] }).learnDisq 4).linkLeavesUp

theorem State.stopped_ended : Ended (s.onFw fun f => { f with started := false, recQ := [] }) s.stopped :=
  (Ended.learnDisq rfl 4).trans (Ended.linkLeavesUp _)

/-- Without an OPEN learn and a running measurement nothing wakes. -/
theorem State.stopped_dom (hl : s.gauge.learn ≠ .opened) (ht : s.trim.active = false) : s.stopped.dom = s.dom := by
  have learn (t : State) (h : t.gauge.learn ≠ .opened) : (t.learnDisq 4).dom = t.dom := by
    unfold State.learnDisq
    split
    · exact absurd ‹_› h
    · rfl
    · rfl
  have link (t : State) (h : t.trim.active = false) : t.linkLeavesUp.dom = t.dom := by
    unfold State.linkLeavesUp State.trimAbort
    simp [h, apply_ite]
  exact (link _ (by rw [State.learnDisq_trim]; exact ht)).trans (learn _ hl)

/-- GAUGE stays in RET: it was ON, in RET, or on its way between them (R178). -/
def State.gaugeStays : Bool :=
  match s.dom.gauge.st with
  | .on => true | .ret => true | .entering .ret => true | .leaving .ret => true | _ => false

/-- A change of each berth of a list, by its own value. -/
theorem State.foldl_onBerth (f : Nat → Fin 4 → Berth → Berth) (n : Fin 4) (bs : List (Fin 4)) (hn : bs.Nodup) (t : State) :
    (bs.foldl (fun t b => t.onBerth b (f t.free b)) t).berth n = if n ∈ bs then f t.free n (t.berth n) else t.berth n := by
  induction bs generalizing t with
  | nil => rfl
  | cons b bs ih =>
    obtain ⟨hb, hbs⟩ := List.nodup_cons.1 hn
    rw [List.foldl_cons, ih hbs]
    by_cases h : b = n
    · subst h
      rw [if_neg hb, State.onBerth_same, if_pos List.mem_cons_self]
    · rw [State.onBerth_other _ _ _ h]
      simp [Ne.symm h]

/-- Each berth takes the values of a reset (R273, R274, R279). -/
theorem State.freeSeqs_blk (b : Fin 4) :
    s.freeSeqs.berths.blk[b] = Berth.resetFields (Config.freeByte (s.free + b.val)) s.berths.blk[b] :=
  (State.foldl_onBerth (fun n b => Berth.resetFields (Config.freeByte (n + b.val))) b _ (List.nodup_finRange 4) s).trans
    (if_pos (List.mem_finRange b))

/-- It changes the berths, and the count of free values. -/
theorem State.freeSeqs_frame : s.freeSeqs = { s with berths := s.freeSeqs.berths, free := s.freeSeqs.free } := by
  have fold (bs : List (Fin 4)) (t : State) : ({ bs.foldl (fun t b => t.onBerth b (Berth.resetFields
      (Config.freeByte (t.free + b.val)))) t with berths := s.berths } : State) = { t with berths := s.berths } := by
    induction bs generalizing t with
    | nil => rfl
    | cons b bs ih => exact (ih _).trans rfl
  exact congrArg (fun t : State => { t with berths := s.freeSeqs.berths, free := s.freeSeqs.free }) (fold (List.finRange 4) s)

/-- The gauge once firmware is stopped: its registers stay in RET, and are fresh otherwise (R178). -/
def State.stoppedGauge : State := if s.gaugeStays then s.stopped else s.stopped.onGauge fun _ => Gauge.fresh

theorem State.stoppedGauge_frame : s.stoppedGauge = { s.stopped with gauge := s.stoppedGauge.gauge } := by
  unfold State.stoppedGauge
  split <;> rfl

/-- The contents lost, every switched domain OFF, and what firmware and the two-wire controllers forget (R158, R178). -/
def State.switchOff (keepGauge : Bool) (code : BitVec 4) : State :=
  (((((((((((s.lose .cpu).lose .memM).lose .memB).lose .log).lose .pwr).lose .hif).onDom (Domains.allOff keepGauge code)).onEv
    fun e => { e with heldIrq := 0, heldPush := 0 }).onTw
    fun t => { t with sbsPending := false, sbsActive := false, startHeld := false, sbsTries := 0, probe := none }).onFw
    fun f => { f with
      coldStart := true, logQ := [], storeQ := [], resetWait := none, resetDue := false, pfArmed := false, pfLoss := false
      probation := false, update := none, hifSave := none }).onLog
    fun l => { l with cal := none })

theorem State.resetSwitched_eq (code : BitVec 4) :
    s.resetSwitched code = (s.stoppedGauge.switchOff s.gaugeStays code).freeSeqs := by
  unfold State.resetSwitched State.switchOff State.stoppedGauge State.stopped State.gaugeStays
  rfl

variable (keepGauge : Bool) (code : BitVec 4)

theorem State.switchOff_frame : let t := s.switchOff keepGauge code
    t = { s with dom := s.dom.allOff keepGauge code, ev := t.ev, link := s.link.lose, power := s.power.lose, tw := t.tw, fw := t.fw
                 log := t.log, berths := s.berths.loseMemB } := by
  intro t
  apply State.ext_parts <;> simp [t, State.switchOff, State.lose]
  rfl

theorem State.switchOff_ev : (s.switchOff keepGauge code).ev = { s.ev.lose with heldIrq := 0, heldPush := 0 } := by
  simp [State.switchOff, State.lose]

theorem State.switchOff_phase : (s.switchOff keepGauge code).tw.phase = if s.tw.phase == .active then .ignored else s.tw.phase := by
  simp [State.switchOff, State.lose, Tw.lose]

theorem State.switchOff_fw : (s.switchOff keepGauge code).fw.started = false ∧
    (s.switchOff keepGauge code).fw.badReset = s.fw.badReset := by
  simp [State.switchOff, State.lose]

theorem State.resetSwitched_frame : let u := s.stoppedGauge.switchOff s.gaugeStays code
    s.resetSwitched code = { s.stoppedGauge with
      dom := s.stoppedGauge.dom.allOff s.gaugeStays code, ev := u.ev, link := s.stoppedGauge.link.lose
      power := s.stoppedGauge.power.lose, tw := u.tw, fw := u.fw, log := u.log, berths := u.freeSeqs.berths
      free := u.freeSeqs.free } := by
  intro u
  rw [s.resetSwitched_eq]
  exact u.freeSeqs_frame.trans (congrArg (fun t : State => { t with berths := u.freeSeqs.berths, free := u.freeSeqs.free })
    (s.stoppedGauge.switchOff_frame s.gaugeStays code))

/-- What firmware's stop leaves alone (R177, R178). -/
theorem State.stoppedGauge_parts : let u := s.stoppedGauge
    u = { s with link := u.link, trim := u.trim, gauge := u.gauge, ev := u.ev, dom := s.stopped.dom, fw := u.fw, free := u.free } ∧
    u.dom.unwoken = s.dom.unwoken ∧ u.ev = { s.ev with raised := u.ev.raised } ∧ u.fw.badReset = s.fw.badReset := by
  intro u
  obtain ⟨frame, dom, ev, fw, -⟩ := s.stopped_ended
  have hu : u = { s.stopped with gauge := u.gauge } := s.stoppedGauge_frame
  have field {α : Type} (f : State → α) : f u = f { s.stopped with gauge := u.gauge } := congrArg f hu
  refine ⟨?_, (congrArg Domains.unwoken (field State.dom)).trans dom, ?_, ?_⟩
  · refine hu.trans ?_
    rw [field State.link, field State.trim, field State.ev, field State.fw, field State.free]
    exact congrArg (fun t : State => { t with gauge := u.gauge }) frame
  · rw [field State.ev]
    exact ev
  · rw [field State.fw]
    exact (congrArg Firmware.badReset fw :)

/-- GAUGE stays when it was ON or in RET, with its accumulator and SOC_K (R178). -/
theorem State.stoppedGauge_gauge (h : s.gaugeStays = true) :
    s.stoppedGauge.gauge.acc = s.gauge.acc ∧ s.stoppedGauge.gauge.socK = s.gauge.socK := by
  have hg := s.stopped_ended.gauge
  rw [show s.stoppedGauge = s.stopped from if_pos h]
  exact ⟨(congrArg Gauge.acc hg :), (congrArg Gauge.socK hg :)⟩

theorem Domains.allOff_get (x : Domains) (d : Domain) (hd : d ≠ .gauge) : (x.allOff keepGauge code).get d = {} := by
  cases d
  case gauge => exact absurd rfl hd
  all_goals rfl

/-- GAUGE ends in RET where it stays, and is OFF otherwise. -/
theorem Domains.allOff_gauge (x : Domains) : (x.allOff keepGauge code).gauge.st = if keepGauge then .ret else .off := by
  cases keepGauge <;> rfl

theorem State.resetSwitched_dom : (s.resetSwitched code).dom = s.stopped.dom.allOff s.gaugeStays code := by
  rw [s.resetSwitched_frame]
  show s.stoppedGauge.dom.allOff _ _ = _
  rw [s.stoppedGauge_frame]

theorem State.resetSwitched_gauge : (s.resetSwitched code).gauge = s.stoppedGauge.gauge := by
  rw [s.resetSwitched_frame]

/-- A reset keeps what is not on the switched domains (R178). -/
theorem State.resetSwitched_kept : let t := s.resetSwitched code
    t.line = s.line ∧ t.cal = s.cal ∧ t.bin = s.bin ∧ t.flash = s.flash ∧ t.spi = s.spi := by
  intro t
  have h : t = _ := s.resetSwitched_frame code
  have old := s.stoppedGauge_parts.1
  rw [h]
  dsimp only
  rw [old]
  exact ⟨rfl, rfl, rfl, rfl, rfl⟩

theorem State.resetSwitched_ev : let t := s.resetSwitched code
    t.ev.pend = s.ev.pend ∧ t.ev.wakeEn = s.ev.wakeEn := by
  intro t
  have h : t = _ := s.resetSwitched_frame code
  obtain ⟨-, -, ev, -⟩ := s.stoppedGauge_parts
  rw [h]
  dsimp only
  rw [State.switchOff_ev, ev]
  exact ⟨rfl, rfl⟩

theorem State.resetSwitched_phase :
    (s.resetSwitched code).tw.phase = if s.tw.phase == .active then .ignored else s.tw.phase := by
  rw [s.resetSwitched_frame]
  dsimp only
  rw [State.switchOff_phase, show s.stoppedGauge.tw = s.tw by rw [s.stoppedGauge_parts.1]]

theorem State.resetSwitched_fw : (s.resetSwitched code).fw.started = false ∧
    (s.resetSwitched code).fw.badReset = s.fw.badReset := by
  obtain ⟨-, -, -, hbad⟩ := s.stoppedGauge_parts
  obtain ⟨hoff, hsame⟩ := s.stoppedGauge.switchOff_fw s.gaugeStays code
  rw [s.resetSwitched_frame]
  exact ⟨hoff, hsame.trans hbad⟩

/-- PWR's contents are gone: the link is DOWN and the charger OFF (R86, R96). -/
theorem State.resetSwitched_pwr : (s.resetSwitched code).link.state = .down ∧ (s.resetSwitched code).power.chg = .off := by
  rw [s.resetSwitched_frame]
  exact ⟨rfl, rfl⟩

/-- A berth keeps its rights and loses its response (R274, R279). -/
theorem State.resetSwitched_blk (b : Fin 4) : (s.resetSwitched code).berths.blk[b].rights = s.berths.blk[b].rights ∧
    (s.resetSwitched code).berths.blk[b].respRdy = false ∧ (s.resetSwitched code).berths.blk[b].stored = none := by
  rw [s.resetSwitched_frame]
  dsimp only
  rw [State.freeSeqs_blk, State.switchOff_frame]
  dsimp only
  rw [show s.stoppedGauge.berths = s.berths by rw [s.stoppedGauge_parts.1]]
  simp [Berths.loseMemB, Berth.loseMemB, Berth.resetFields]

/-- A field of the domains that neither a wake nor `allOff` changes keeps its value (R178). -/
theorem State.resetSwitched_domKeeps {α : Type} (f : Domains → α) (hf : ∀ x : Domains, f x.unwoken = f x)
    (ha : ∀ x : Domains, f (x.allOff s.gaugeStays code) = f x) : f (s.resetSwitched code).dom = f s.dom := by
  rw [s.resetSwitched_dom, ha, ← hf, ← hf s.dom]
  exact congrArg f s.stopped_ended.dom

/-- A reset of the switched domains, part by part (R169, R177 to R179). -/
theorem State.resetSwitched_isReset : Claims.isReset s (s.resetSwitched code) code := by
  obtain ⟨hline, hcal, hbin, hflash, -⟩ := s.resetSwitched_kept code
  obtain ⟨hpend, hwake⟩ := s.resetSwitched_ev code
  obtain ⟨hlink, hchg⟩ := s.resetSwitched_pwr code
  have hd := s.resetSwitched_dom code
  have kept {α : Type} (f : Domains → α) := s.resetSwitched_domKeeps code f
  refine ⟨by rw [hd]; rfl, by rw [hd]; exact s.stopped.dom.allOff_get _ code, fun h => ?_, fun h => ?_, by rw [hd]; rfl,
    by rw [hd]; rfl, by rw [hd]; rfl, by rw [hd]; rfl, by rw [hd]; rfl, ?_, by rw [hd]; rfl,
    kept Domains.rstCause (fun _ => rfl) (fun _ => rfl), fun hl ht => ?_, kept Domains.bind (fun _ => rfl) (fun _ => rfl),
    kept Domains.bells (fun _ => rfl) (fun _ => rfl), kept Domains.wakeEn (fun _ => rfl) (fun _ => rfl), hcal, hbin, hflash,
    hline, hpend, hwake, (s.resetSwitched_fw code).1, hlink, hchg, s.resetSwitched_blk code⟩
  · have hk : s.gaugeStays = true := by rcases h with h | h <;> simp only [State.gaugeStays, h]
    refine ⟨?_, ?_⟩
    · rw [hd, Domains.allOff_gauge, if_pos hk]
    · rw [s.resetSwitched_gauge]
      exact s.stoppedGauge_gauge hk
  · have hk : s.gaugeStays = false := by simp only [State.gaugeStays, h]
    rw [hd, Domains.allOff_gauge, hk]
    rfl
  · rw [hd]
    exact congrArg (· ||| _) (congrArg Domains.rstHist s.stopped_ended.dom :)
  · rw [hd]
    exact (congrArg Domains.wakeFlags (s.stopped_dom hl ht) :)

end Sys2Proof.Machine

namespace Sys2Proof.Proofs
open Sys2Proof.Machine

/-- NRST's level and the mark of a link fault reset are no part of what a reset makes of a state. -/
theorem isReset_onDom {s t : State} {code : BitVec 4} (h : Claims.isReset s t code) (low done : Bool) :
    Claims.isReset s (t.onDom fun d => { d with nrstLow := low, linkResetDone := done }) code := by
  obtain ⟨hcode, hoff, rest⟩ := h
  refine ⟨hcode, fun d hd => ?_, rest⟩
  rw [← hoff d hd]
  cases d <;> rfl

/-- A reset by firmware's watchdog or lockup marks an image on trial (R177, R290). -/
theorem fwReset_isReset (s : State) (code : BitVec 4) :
    Claims.isReset s (s.fwReset code) code ∧ (s.fwReset code).fw.badReset = (s.fw.badReset || s.onTrial) :=
  ⟨s.resetSwitched_isReset code, congrArg (· || s.onTrial) (s.resetSwitched_fw code).2⟩

theorem resetsTakePlace : Claims.ResetsTakePlace := by
  refine fun s => ⟨fun hh => ⟨?_, ?_⟩, fun hc => ⟨?_, ?_, fun hd ht => ?_⟩, fun hp hr hb hl hn => ?_⟩
  · let u := (s.onSpi Spi.cut).onTw Tw.cut
    have hu : Claims.isReset s (u.resetSwitched 0x2) 0x2 := u.resetSwitched_isReset 0x2
    obtain ⟨-, -, -, -, hspi⟩ := u.resetSwitched_kept 0x2
    refine ⟨_, if_neg (by simp [hh]), isReset_onDom hu true _, rfl, (congrArg Spi.xfer hspi :), ?_⟩
    refine (u.resetSwitched_phase 0x2).trans ?_
    show (if (if s.tw.phase == .idle then TwPhase.idle else .ignored) == .active then _ else _) = _
    by_cases h : s.tw.phase = .idle
    · simp [h, u, Tw.cut]
    · simp [h, u, Tw.cut]
  · let u := s.onDom fun d => { d with vsysUp := false }
    have hu : Claims.isReset s (u.resetSwitched 0x3) 0x3 := u.resetSwitched_isReset 0x3
    exact ⟨_, if_neg (by simp [hh]), hu, u.resetSwitched_domKeeps 0x3 Domains.vsysUp (fun _ => rfl) (fun _ => rfl)⟩
  · exact ⟨_, if_pos hc, fwReset_isReset s 0x4⟩
  · exact ⟨_, if_pos hc, fwReset_isReset s 0x8⟩
  · exact ⟨_, if_pos (by simp [hd, hc, ht]), s.resetSwitched_isReset 0x6⟩
  · refine ⟨_, if_pos ?_, isReset_onDom (s.resetSwitched_isReset 0x7) _ true, rfl⟩
    rcases hl with hl | hl <;> simp [hp, hr, hb, hl, hn]

theorem resetsNeedTheirCause : Claims.ResetsNeedTheirCause := by
  refine fun s => ⟨fun h => if_pos h, fun h c hc => ?_, fun h => ?_, fun h => ?_⟩
  · simp only [List.mem_cons, List.not_mem_nil, or_false] at hc
    rcases hc with rfl | rfl | rfl
    · exact if_neg (by simp [h])
    · exact if_neg (by simp [h])
    · exact if_neg (by simp [h])
  · refine if_neg ?_
    rcases h with h | h <;> simp [h]
  · refine if_neg ?_
    rcases h with h | h | h | h | h
    · simp [h]
    · simp only [Bool.and_assoc (s.isOn .pwr), h]; simp
    all_goals simp [h]

theorem resetsAreReleased : Claims.ResetsAreReleased := by
  refine fun s => ⟨fun c h hw => ?_, fun h => ?_⟩
  · simp only [exec, execResetRelease, State.onDom_dom, h]
    refine congrArg Host.Outcome.next (State.startWanted_none _ fun x => ?_)
    by_cases hx : x = .cpu
    · subst hx
      rfl
    · rw [← hw x hx]
      cases x
      case cpu => exact absurd rfl hx
      all_goals rfl
  · simp only [exec, execResetRelease, State.onDom_dom]
    split
    · next hc => exact nomatch hc.symm.trans h
    · rfl

/-- Settles O32: a reset is firmware's stop, the loss of the switched domains and the berths' fresh values, each said once. -/
theorem resetsReachAndKeep : Obligations.ResetsReachAndKeep :=
  ⟨resetsTakePlace, resetsNeedTheirCause, resetsAreReleased⟩

end Sys2Proof.Proofs
end

section
/-! PROOFS. O3: the state after a power-on reset, part by part. -/

namespace Sys2Proof.Machine

theorem routeReset_free (e : Fin 96) (h : e.val < 48 ∨ 64 ≤ e.val) : routeReset[e] = 0 := by
  have outside : ¬ (48 ≤ e.val ∧ e.val < 64) := by omega
  simp [routeReset, outside]

theorem Berth.reset_ok : ({} : Berth).ok := by simp [Berth.ok, Berth.unread]

theorem State.reset_inv : State.reset.Inv where
  line := Nat.zero_le _
  cal := ⟨by decide, nofun⟩
  bin := ⟨rfl, by decide⟩
  dom := ⟨nofun, nofun⟩
  berths := ⟨rfl, fun n => by simpa [State.reset] using Berth.reset_ok⟩
  flash := ⟨Nat.zero_le _, Nat.zero_le _⟩
  gauge := Gauge.fresh_ok

end Sys2Proof.Machine

namespace Sys2Proof.Proofs

open Sys2Proof Sys2Proof.Machine

/-- Every register the tables name is a field of the reset state, but for the routes, which are a formula of the event. -/
theorem resetLeavesTheTabledValues_values : Claims.ResetLeavesTheTabledValues := by
  unfold Claims.ResetLeavesTheTabledValues
  intro s
  and_intros
  any_goals rfl
  · exact fun d => by cases d <;> rfl
  · exact routeReset_free
  · exact fun n => by simp [s, State.reset]

theorem resetMeetsTheInvariants : Claims.ResetMeetsTheInvariants := ⟨State.reset_inv, rfl⟩

/-- Settles O3: the values are those of the reset state, and each part meets its own invariant there. -/
theorem resetLeavesTheTabledValues : Obligations.ResetLeavesTheTabledValues :=
  ⟨resetLeavesTheTabledValues_values, resetMeetsTheInvariants⟩

end Sys2Proof.Proofs
end

section
/-! PROOFS. The line die's shared operations, case by case (R45, R50, R53): what each does and when it does nothing. -/

namespace Sys2Proof.Machine

section Rules
variable {s : State} {l : LineDie}

theorem State.whileRunning_running (f : LineDie → LineDie) (h : s.line.running = true) :
    s.whileRunning f = { s with line := f s.line } := by
  unfold State.whileRunning
  rw [h]
  rfl

theorem State.whileRunning_stopped (f : LineDie → LineDie) (h : s.line.running = false) : s.whileRunning f = s := by
  unfold State.whileRunning
  rw [h]
  rfl

theorem State.whileRunning_same {f : LineDie → LineDie} (h : f s.line = s.line) : s.whileRunning f = s := by
  cases hr : s.line.running
  · exact s.whileRunning_stopped f hr
  · rw [s.whileRunning_running f hr, h]

/-- A command of the line die that runs is what it does to the line die. -/
theorem next_whileRunning {f : LineDie → LineDie} {k : LineDie} (on : s.line.running = true) (h : f s.line = k) :
    (.next (s.whileRunning f) : Out) = .next { s with line := k } := by
  rw [s.whileRunning_running f on, h]

theorem LineDie.resume_free (hr : l.running = true) (hs : l.stops = []) (hh : l.hold = false) (hw : l.waitBrownIn = false) :
    l.resume = { l with switching := true, begun := true, softStart := l.softOwed, softOwed := false } := by
  simp [LineDie.resume, hr, hs, hh, hw]

theorem LineDie.resume_barred (h : l.stops ≠ [] ∨ l.hold = true) : l.resume = l := by
  rcases h with h | h <;> simp [LineDie.resume, h]

theorem LineDie.stopFor_new {c : StopCause} (code : Byte) (stamp : Word) (h : c ∉ l.stops) :
    l.stopFor c code stamp = { l with
      stops := l.stops ++ [c], switching := false, softStart := false
      softOwed := l.softOwed || l.softStart }.pushEvt code stamp := by
  simp [LineDie.stopFor, h]

theorem LineDie.stopFor_again {c : StopCause} (code : Byte) (stamp : Word) (h : c ∈ l.stops) : l.stopFor c code stamp = l := by
  simp [LineDie.stopFor, h]

theorem LineDie.lift_none {cs : List StopCause} (soft : Bool) (h : ∀ c ∈ l.stops, c ∉ cs) : l.lift cs soft = l := by
  simpa [LineDie.lift] using fun c hc hm => absurd hm (h c hc)

theorem LineDie.lift_some {cs : List StopCause} (soft : Bool) (h : ∃ c ∈ l.stops, c ∈ cs) : l.lift cs soft =
    { l with stops := l.stops.filter fun c => !cs.contains c, softOwed := l.softOwed || soft }.resume := by
  simp [LineDie.lift, h]

/-- The last stops of a line die that holds nothing else back are lifted: switching resumes. -/
theorem LineDie.lift_all {cs : List StopCause} (soft : Bool) (hr : l.running = true) (hw : l.waitBrownIn = false)
    (hh : l.hold = false) (hs : l.stops ≠ []) (h : ∀ c ∈ l.stops, c ∈ cs) : l.lift cs soft =
      { l with stops := [], switching := true, begun := true, softStart := l.softOwed || soft, softOwed := false } := by
  obtain ⟨c, hc⟩ := List.exists_mem_of_ne_nil _ hs
  have none_left : (l.stops.filter fun c => !cs.contains c) = [] := by simpa using h
  rw [LineDie.lift_some soft ⟨c, hc, h c hc⟩, none_left]
  exact LineDie.resume_free hr rfl hh hw

/-- Stops or a hold remain: what is lifted is lifted, and no more. -/
theorem LineDie.lift_barred {cs : List StopCause} (soft : Bool) (h : ∃ c ∈ l.stops, c ∈ cs)
    (hb : (∃ c ∈ l.stops, c ∉ cs) ∨ l.hold = true) : l.lift cs soft =
      { l with stops := l.stops.filter fun c => !cs.contains c, softOwed := l.softOwed || soft } := by
  rw [LineDie.lift_some soft h, LineDie.resume_barred]
  simpa using hb

end Rules

end Sys2Proof.Machine

namespace Sys2Proof.Proofs

open Sys2Proof Sys2Proof.Machine

/-! ## Starting and stopping -/

theorem lineDieStartsAndStops : Claims.LineDieStartsAndStops := by
  unfold Claims.LineDieStartsAndStops
  refine fun s stamp => ⟨fun off => ⟨fun hvin hv => ?_, fun hvin hhi hlo => ?_, fun hvin hv => ?_, fun c hc => ?_⟩,
    fun on => ⟨fun hvin => ?_, fun hw hs hh => ?_, fun hw hb => ?_, ?_, ?_, ?_⟩⟩
  · have : ¬ hvin < 100000 := by omega
    simp [exec, execLineDieStart, off, hv, this, State.onLine, LineDie.stopFor, LineDie.pushEvt, LineDie.send]
  · have : ¬ 450000 < hvin := by omega
    have : ¬ hvin < 100000 := by omega
    simp [*, exec, execLineDieStart, State.onLine, LineDie.resume]
  · have : ¬ 450000 < hvin := by omega
    simp [*, exec, execLineDieStart, State.onLine, LineDie.resume]
  · simp only [List.mem_cons, List.not_mem_nil, or_false] at hc
    rcases hc with rfl | rfl | rfl | rfl <;> exact congrArg _ (State.whileRunning_stopped _ off)
  · simp [exec, execLineDieStart, on]
  · refine next_whileRunning on ?_
    simp [hw, LineDie.resume_free, on, hs, hh]
  · refine next_whileRunning on ?_
    rw [if_pos hw]
    exact LineDie.resume_barred hb
  · exact next_whileRunning on rfl
  · exact next_whileRunning on rfl
  · exact next_whileRunning on rfl

/-! ## Protections -/

/-- Each row of the stops is one stop of the line die, made only where its condition holds. -/
theorem exec_stopRows (s : State) (stamp : Word) (mw : Nat) :
    ∀ r ∈ Claims.stopRows stamp mw s.line, ∃ code, exec r.1 s =
      .next (s.whileRunning fun _ => if r.2.2 then s.line.stopFor r.2.1 code stamp else s.line) := by
  simp only [Claims.stopRows, List.forall_mem_cons, List.not_mem_nil, false_implies, implies_true, and_true]
  exact ⟨⟨_, rfl⟩, ⟨_, rfl⟩, ⟨_, rfl⟩, ⟨_, rfl⟩, ⟨_, rfl⟩, ⟨_, rfl⟩⟩

theorem protectionsStopTheSwitch : Claims.ProtectionsStopTheSwitch := by
  unfold Claims.ProtectionsStopTheSwitch
  intro s stamp mw on l stopped
  have stop {c : StopCause} {code : Byte} (hc : c ∉ l.stops) {f : LineDie → LineDie}
      (hf : f l = l.stopFor c code stamp) : (.next (s.whileRunning f) : Out) = .next (stopped c code) :=
    next_whileRunning on (hf.trans (LineDie.stopFor_new _ _ hc))
  refine ⟨fun hc hb => stop hc (if_pos hb), fun hc => stop hc rfl, fun hc hs => stop hc (if_pos hs),
    fun hc hs hp => stop hc (if_pos ?_), fun hc => stop hc rfl, fun hc => stop hc rfl, fun r hr h => ?_⟩
  · rw [hs, Bool.true_and]
    exact decide_eq_true hp
  · obtain ⟨code, e⟩ := exec_stopRows s stamp mw r hr
    rw [e, State.whileRunning_same]
    rcases h with h | h
    · rw [LineDie.stopFor_again _ _ h, ite_self]
    · rw [h, if_neg Bool.false_ne_true]

/-! ## Recoveries -/

/-- Each row of the recoveries lifts its stops from a line die that does not wait for brown-in. -/
theorem exec_liftRows (s : State) (hw : s.line.waitBrownIn = false) :
    ∀ r ∈ Claims.liftRows, exec r.1 s = .next (s.whileRunning fun _ => s.line.lift r.2.1 r.2.2) := by
  simp only [Claims.liftRows, List.forall_mem_cons, List.not_mem_nil, false_implies, implies_true, and_true]
  refine ⟨?_, rfl, rfl, rfl⟩
  simp [exec, execBrownIn, State.whileRunning, State.when, State.onLine, hw]

theorem recoveriesLiftTheirStops : Claims.RecoveriesLiftTheirStops := by
  unfold Claims.RecoveriesLiftTheirStops
  intro s on hw l resumed
  have row (r) (hr : r ∈ Claims.liftRows) : exec r.1 s = .next { s with line := s.line.lift r.2.1 r.2.2 } :=
    (exec_liftRows s hw r hr).trans (next_whileRunning on rfl)
  refine ⟨fun hh hs => ?_, fun r hr => ⟨fun h hb => ?_, fun h => ?_⟩⟩
  · have all {cs : List StopCause} {soft : Bool} (h : ∀ c ∈ l.stops, c ∈ cs) :
        .next { s with line := s.line.lift cs soft } = (.next (resumed soft) : Out) := by
      rw [LineDie.lift_all soft on hw hh hs h]
    exact ⟨fun h => (row (.brownIn, [.brownOut], true) (by simp [Claims.liftRows])).trans (all (by simpa using h)),
      fun h => (row (.hvinOvResume, [.overVoltage], false) (by simp [Claims.liftRows])).trans (all (by simpa using h)),
      fun h => (row (.overtempResume, [.overTemp], true) (by simp [Claims.liftRows])).trans (all (by simpa using h)),
      fun h => (row (.faultRestart, [.shortCircuit, .overload], true) (by simp [Claims.liftRows])).trans
        (all (by simpa using h))⟩
  · rw [row r hr, LineDie.lift_barred _ h hb]
  · rw [row r hr, LineDie.lift_none _ h]

/-- Settles O12: the start by its bands of HVIN, each protection as one stop, each recovery as one lift. -/
theorem lineDieStartsAndItsProtectionsStopIt : Obligations.LineDieStartsAndItsProtectionsStopIt :=
  ⟨lineDieStartsAndStops, protectionsStopTheSwitch, recoveriesLiftTheirStops⟩

end Sys2Proof.Proofs
end

section
/-! PROOFS. The line die's sense and its uplink: crossings, loss and return, telemetry, the order of the frames (R55 to R60,
R68, R69, R75). -/

namespace Sys2Proof.Machine

section Rules
variable {s : State} {l : LineDie}

/-- A command of the line die that leaves it as it was changes nothing, whether the line die runs or not. -/
theorem next_whileRunning_same {f : LineDie → LineDie} (h : f s.line = s.line) : (.next (s.whileRunning f) : Out) = .next s :=
  congrArg _ (State.whileRunning_same h)

/-! ## What is judged later -/

theorem meanOr_eq (d : Rat) (xs : List Nat) : meanOr d xs = if xs = [] then d else (xs.sum : Rat) / xs.length := by
  simp [meanOr]

/-- A crossing leaves its own figures, over those kept: of two half-cycles the earlier goes once the later has qualified. -/
theorem LineDie.pushRef_eq (stamp : Word) (peak : Nat) : l.pushRef stamp peak = { l with
    lastCross := some stamp
    lossRefs := ⟨stamp, l.tNom, l.runningPeak⟩ :: (match l.lossRefs with
      | r :: _ => if max 10240 (r.peak * l.lossFrac.toNat / 64) ≤ (peak : Rat) then l.lossRefs.take 1 else l.lossRefs
      | [] => []) } := by
  unfold LineDie.pushRef vLoss
  cases l.lossRefs with
  | nil => rfl
  | cons r rs => simp

/-! ## The frames take their turns -/

theorem LineDie.send_waits (h : l.upFlight.isSome = true ∨ l.beacon = true) : l.send = l := by
  unfold LineDie.send
  rw [if_pos (by simpa using h)]

variable {k : Link}

theorem Link.send_waits (h : k.downFlight.isSome = true ∨ k.stopSymbolDue = true ∨ k.downlinkRuns = false) : k.send = k := by
  unfold Link.send
  rw [if_pos (by simpa [or_assoc] using h)]

end Rules

end Sys2Proof.Machine

namespace Sys2Proof.Proofs

open Sys2Proof Sys2Proof.Machine

theorem zeroCrossingsAreStampedAndSent : Claims.ZeroCrossingsAreStampedAndSent := by
  unfold Claims.ZeroCrossingsAreStampedAndSent
  intro s t v0 v1 peak on stamp periods peaks ref kept sent
  have mean {per : List Nat} {l : LineDie} (hp : l.periods = per) (hk : l.peaks = peaks) :
      (⟨stamp, l.tNom, l.runningPeak⟩ : LossRef) = ref per := by
    simp [LineDie.tNom, LineDie.runningPeak, meanOr_eq, hp, hk, ref, peaks]
  have queued (k : LineDie) (positive : Bool) (hb : k.beacon = s.line.beacon) (hq : k.zcQ = s.line.zcQ) :
      k.pushZc positive (s.link.state == .up) stamp = sent positive k.zcSeq k.periods k := by
    simp [LineDie.pushZc, sent, hb, hq]
  have cycles : (if s.line.present then 0 else if s.line.lastPos.isSome && s.line.negSeen && s.line.halfOk &&
      decide (qualifyPeak ≤ peak) then s.line.retCycles + 1 else 0) = if !s.line.present && s.line.lastPos.isSome &&
      s.line.negSeen && s.line.halfOk && decide (25600 ≤ peak) then s.line.retCycles + 1 else 0 := by
    cases s.line.present <;> rfl
  refine ⟨fun h0 h1 => ?_, fun h0 h1 => ?_, fun h => ?_⟩
  · refine (if_pos ⟨h0, h1⟩).trans (next_whileRunning on ((queued (s.line.rising stamp peak) true rfl rfl).trans
      (congrArg (sent true (s.line.zcSeq + 1) periods) ?_)))
    rw [LineDie.rising, LineDie.pushRef_eq, mean rfl rfl, cycles] <;> rfl
  · have : ¬ (v0.toInt < 0 ∧ 0 ≤ v1.toInt) := by omega
    refine (if_neg this).trans ((if_pos ⟨h0, h1⟩).trans (next_whileRunning on ((queued (s.line.falling stamp peak) false rfl rfl).trans
      (congrArg (sent false s.line.zcSeq s.line.periods) ?_))))
    rw [LineDie.falling, LineDie.pushRef_eq, mean rfl rfl] <;> rfl
  · have rise : ¬ (v0.toInt < 0 ∧ 0 ≤ v1.toInt) := by omega
    have fall : ¬ (0 ≤ v0.toInt ∧ v1.toInt < 0) := by omega
    exact (if_neg rise).trans (if_neg fall)

theorem lineLossAndReturnAreDeclared : Claims.LineLossAndReturnAreDeclared := by
  unfold Claims.LineLossAndReturnAreDeclared
  intro s stamp now v on ref qualifies window
  have judged : s.line.qualifies stamp v = decide qualifies := rfl
  have closes : s.line.lossWindow stamp = window := rfl
  refine ⟨fun hp hq hw => next_whileRunning on (if_pos ?_), fun h => next_whileRunning_same (if_neg ?_),
    fun lost n h => next_whileRunning on ?_, fun h => next_whileRunning_same ?_,
    fun hv hc => next_whileRunning on (if_pos ?_), fun h => next_whileRunning_same (if_neg ?_),
    fun hd hp => next_whileRunning on (if_pos ?_), fun h => next_whileRunning_same (if_neg ?_),
    fun last hl hp hr => next_whileRunning on ?_, fun h => next_whileRunning_same ?_⟩
  · simp [judged, closes, hp, hq, hw, -BitVec.toNat_sub]
  · rw [judged, closes]
    rcases h with h | h | h <;> simp [h, -BitVec.toNat_sub]
  · simp only [h]
  · simp only [h]
  · simp only [qualifyPeak, hv, decide_true, Bool.true_and, Option.all_eq_true, decide_eq_true_eq]
    exact hc
  · rcases h with h | ⟨c, hc, hlt⟩
    · simp only [qualifyPeak, Nat.not_le.2 h, decide_false, Bool.false_and, Bool.false_eq_true, not_false_eq_true]
    · simp [hc, hlt, -BitVec.toNat_sub]
  · simp [hd, hp]
  · rcases h with h | h <;> simp [h]
  · simp [hl, hp, hr]
  · cases hl : s.line.lastPos with
    | none => rfl
    | some last =>
      refine if_neg ?_
      rcases h with h | h | h
      · simp [h] at hl
      · simp [h]
      · simp [h]

theorem telemetryIsQueuedOrDropped : Claims.TelemetryIsQueuedOrDropped := by
  unfold Claims.TelemetryIsQueuedOrDropped
  refine fun s vline hvin temp peak on => ⟨fun hb => next_whileRunning_same (if_pos hb),
    fun hb hq => next_whileRunning on ?_, fun hb hq => next_whileRunning on ?_⟩
  · simp [hb, hq]
  · simp [hb, Nat.not_le.2 hq]

theorem evtQueueKeepsTheNewestEight : Claims.EvtQueueKeepsTheNewestEight := by
  unfold Claims.EvtQueueKeepsTheNewestEight
  refine fun l code stamp => ⟨fun hb => ?_, fun hb hq => ?_, fun hb hq => ?_⟩
  · simp [LineDie.pushEvt, hb]
  · have : ¬ 8 < l.evtQ.length + 1 := by omega
    simp [LineDie.pushEvt, hb, this, LineDie.send_waits]
  · have : 1 ≤ l.evtQ.length := by omega
    simp [LineDie.pushEvt, hb, hq, LineDie.send_waits, List.drop_append_of_le_length this]

theorem framesTakeTheirTurns : Claims.FramesTakeTheirTurns := by
  unfold Claims.FramesTakeTheirTurns
  refine ⟨fun l => ⟨LineDie.send_waits, fun hf hb => ?_⟩, fun l => ⟨fun h => ?_, fun hf hs hr => ?_⟩⟩
  · exact ⟨fun f q he => by simp [LineDie.send, hf, hb, he], fun f q he hq => by simp [LineDie.send, hf, hb, he, hq],
      fun f q he hq hz => by simp [LineDie.send, hf, hb, he, hq, hz],
      fun f q he hq hz ht => by simp [LineDie.send, hf, hb, he, hq, hz, ht],
      fun he hq hz ht => by simp [LineDie.send, hf, hb, he, hq, hz, ht]⟩
  · exact Link.send_waits (h.imp_right (Or.imp_right fun h => by simp [Link.downlinkRuns, h]))
  · have runs : l.downlinkRuns = true := by simpa [Link.downlinkRuns] using hr
    exact ⟨fun hd => by simp [Link.send, hf, hs, runs, hd], fun q rest hd hq => by simp [Link.send, hf, hs, runs, hd, hq],
      fun i v rest hd hq hc => by simp [Link.send, hf, hs, runs, hd, hq, hc],
      fun hd hq hc => by simp [Link.send, hf, hs, runs, hd, hq, hc]⟩

/-- Settles O14: each command of the line sense as one change of the line die, each queue as `send` empties it. -/
theorem crossingsLossAndTelemetryAreSent : Obligations.CrossingsLossAndTelemetryAreSent :=
  ⟨zeroCrossingsAreStampedAndSent, lineLossAndReturnAreDeclared, telemetryIsQueuedOrDropped, evtQueueKeepsTheNewestEight,
    framesTakeTheirTurns⟩

end Sys2Proof.Proofs
end

section
/-! PROOFS. The line-die quiet window (R78 to R80, R83), and a downlink frame that reaches the line die (R68). -/

namespace Sys2Proof.Machine

section Rules
variable {s : State} {l : LineDie} {fr : DownFrame} {f : LineDie → LineDie}

/-! ## A downlink frame arrives -/

theorem next_downFrame {k : LineDie} (on : s.line.running = true) (hf : s.link.downFlight = some fr) (h : f s.line = k) :
    (.next (s.downFrame fr f) : Out) = .next { s with link := Link.send { s.link with downFlight := none }, line := k } := by
  rw [State.downFrame, if_pos hf]
  exact next_whileRunning on h

theorem next_downFrame_other (hf : s.link.downFlight ≠ some fr) : (.next (s.downFrame fr f) : Out) = .next s := by
  rw [State.downFrame, if_neg hf]

theorem next_downFrame_stopped (off : s.line.running = false) (hf : s.link.downFlight = some fr) :
    (.next (s.downFrame fr f) : Out) = .next { s with link := Link.send { s.link with downFlight := none } } := by
  rw [State.downFrame, if_pos hf]
  exact congrArg _ (State.whileRunning_stopped f off)

/-! ## QA frames and the window -/

/-- Sending moves a frame from its queue onto the wire, and changes nothing else. -/
theorem LineDie.send_frame : l.send = { l with
    evtQ := l.send.evtQ, qaQ := l.send.qaQ, zcQ := l.send.zcQ, tlmQ := l.send.tlmQ, upFlight := l.send.upFlight } := by
  unfold LineDie.send
  repeat' split
  all_goals rfl

theorem LineDie.heard_frame : l.heard = { l with
    downlink := true, beacon := false
    evtQ := l.heard.evtQ, qaQ := l.heard.qaQ, zcQ := l.heard.zcQ, tlmQ := l.heard.tlmQ, upFlight := l.heard.upFlight } :=
  LineDie.send_frame

theorem LineDie.heard_beacon : l.heard.beacon = false := by rw [LineDie.heard_frame]

/-- A frame that arrives is refused by the soft-start and the request that it finds. -/
theorem LineDie.heard_refusal (len : BitVec 13) : l.heard.refusal len = l.refusal len := by
  rw [LineDie.heard_frame]
  rfl

theorem LineDie.pushQa_free (kind : QaKind) (tag cause : BitVec 3) (stamp : Word) (h : l.beacon = false) :
    l.pushQa kind tag cause stamp =
      LineDie.send { l with qaQ := l.qaQ ++ [⟨kind, tag, cause, stamp⟩], lossRepeat := none } := by
  simp [LineDie.pushQa, h]

theorem LineDie.pushQa_beacon (kind : QaKind) (tag cause : BitVec 3) (stamp : Word) (h : l.beacon = true) :
    l.pushQa kind tag cause stamp = l := by
  simp [LineDie.pushQa, h]

theorem LineDie.endQuiet_closed (cause : BitVec 3) (stamp : Word) (h : l.quietOpen = false) : l.endQuiet cause stamp = l := by
  simp [LineDie.endQuiet, h]

theorem LineDie.endQuiet_open (cause : BitVec 3) (stamp : Word) (h : l.quietOpen = true) : l.endQuiet cause stamp =
    { l with
      quiet := none, quietOpen := false
      guard := some (stamp, ((l.quiet.map fun (q : QuietReq) => q.len.toNat).getD 0) + 250) }.pushQa .ended
        ((l.quiet.map QuietReq.tag).getD 0) cause stamp := by
  simp [LineDie.endQuiet, h]

/-- The causes of R80 in their order: the length, the soft-start, a request held already. -/
theorem LineDie.refusal_eq (len : BitVec 13) (ok : len ≠ 0 ∧ len.toNat ≤ 6400) :
    l.refusal len = if l.softStart then some 1 else if l.quiet.isSome then some 0 else none := by
  have : ¬ (len = 0 ∨ 6400 < len.toNat) := by
    rintro (h | h)
    · exact ok.1 h
    · omega
  rw [LineDie.refusal, if_neg this]

end Rules

end Sys2Proof.Machine

namespace Sys2Proof.Proofs

open Sys2Proof Sys2Proof.Machine

/-- Settles O15: the frame is refused with the first cause or held; the window opens, ends with its cause, and is guarded. -/
theorem lineDieQuietWindow : Obligations.LineDieQuietWindow := by
  unfold Obligations.LineDieQuietWindow
  intro s tag len stamp now on qa heard taken run
  have refused {cause : BitVec 3} (hf : s.link.downFlight = some (.quiet tag len))
      (h : s.line.heard.refusal len = some cause) :
      run = .next { s with link := taken, line := qa .refused tag cause heard } :=
    next_downFrame on hf (by
      simp only [h]
      exact LineDie.pushQa_free _ _ _ _ LineDie.heard_beacon)
  refine ⟨fun hf => ⟨fun h => refused hf (if_pos h), fun h0 hl hs => refused hf ?_, fun h0 hl hs hq => refused hf ?_,
    fun h0 hl hs hq => next_downFrame on hf ?_⟩, fun hf => next_downFrame_other hf,
    fun q hq ho hg => ⟨fun hb => next_whileRunning on ?_, fun hb => next_whileRunning on ?_⟩,
    fun h => next_whileRunning_same ?_,
    fun closed n hg => ⟨fun h => next_whileRunning on (if_pos ?_), fun h => next_whileRunning_same (if_neg ?_)⟩,
    fun hg => next_whileRunning_same (if_neg ?_),
    fun ho => ⟨next_whileRunning_same (LineDie.endQuiet_closed _ _ ho), next_whileRunning_same (LineDie.endQuiet_closed _ _ ho)⟩,
    fun ho => ?_⟩
  · rw [LineDie.heard_refusal, LineDie.refusal_eq len ⟨h0, hl⟩, if_pos hs]
  · simp [LineDie.heard_refusal, LineDie.refusal_eq (l := s.line) len ⟨h0, hl⟩, hs, hq]
  · have held : s.line.heard.refusal len = none := by
      simp [LineDie.heard_refusal, LineDie.refusal_eq (l := s.line) len ⟨h0, hl⟩, hs, hq]
    simp only [held]
    rfl
  · simp only [hq, ho, hg]
    exact LineDie.pushQa_free _ _ _ _ hb
  · simp only [hq, ho, hg]
    exact LineDie.pushQa_beacon _ _ _ _ hb
  · cases hq : s.line.quiet with
    | none => rfl
    | some q => exact if_pos (by simpa [hq] using h)
  · simp [hg, h, -BitVec.toNat_sub]
  · simp [hg, h, -BitVec.toNat_sub]
  · simp [hg]
  · intro l mine
    have ended (cause : BitVec 3) : (.next (s.whileRunning (LineDie.endQuiet cause stamp)) : Out) =
        .next { s with line := l.pushQa .ended mine cause stamp } := next_whileRunning on (LineDie.endQuiet_open _ _ ho)
    refine ⟨fun hb => ?_, fun hb => ?_⟩
    · have free (cause : BitVec 3) : l.pushQa .ended mine cause stamp = qa .ended mine cause l := LineDie.pushQa_free _ _ _ _ hb
      exact ⟨free 0 ▸ ended 0, free 3 ▸ ended 3⟩
    · have mute (cause : BitVec 3) : l.pushQa .ended mine cause stamp = l := LineDie.pushQa_beacon _ _ _ _ hb
      exact ⟨(ended 0).trans (by rw [mute]), (ended 3).trans (by rw [mute])⟩

end Sys2Proof.Proofs
end

section
/-! PROOFS. The frames of the isolation link are read as they are sent (R63 to R65, R67): a value is the number its bits spell,
a field of a payload is where its bits were put, and a frame is unframed to its type and payload. -/

namespace Sys2Proof

open Machine

/-! ## Values as bits -/

@[simp] theorem bitsOf_length {n : Nat} (v : BitVec n) : (bitsOf v).length = n := by simp [bitsOf]

/-- The first `k` bits of a value spell its `k` highest. -/
theorem bitsNat_take_bitsOf {n : Nat} (v : BitVec n) (k : Nat) (h : k ≤ n) :
    bitsNat ((List.range k).map v.getMsbD) = v.toNat / 2 ^ (n - k) := by
  induction k with
  | zero => simpa [bitsNat] using (Nat.div_eq_of_lt v.isLt).symm
  | succ k ih =>
    have next : bitsNat ((List.range (k + 1)).map v.getMsbD) =
        2 * bitsNat ((List.range k).map v.getMsbD) + (v.getMsbD k).toNat := by
      simp [bitsNat, List.range_succ]
    have split : n - k = (n - (k + 1)) + 1 := by omega
    have bit : v.getMsbD k = v.toNat.testBit (n - (k + 1)) := by
      simp [BitVec.getMsbD, BitVec.getLsbD, show k < n by omega, show n - 1 - k = n - (k + 1) by omega]
    rw [next, ih (by omega), bit, split, Nat.toNat_testBit, pow_succ, ← Nat.div_div_eq_div_mul]
    omega

theorem bitsNat_bitsOf {n : Nat} (v : BitVec n) : bitsNat (bitsOf v) = v.toNat := by
  simpa [bitsOf] using bitsNat_take_bitsOf v n (Nat.le_refl n)

/-! ## Fields of a payload -/

@[simp] theorem fieldAt_here {n : Nat} (v : BitVec n) (rest : List Bool) : fieldAt (bitsOf v ++ rest) 0 n = v := by
  simp [fieldAt, bitsNat_bitsOf]

@[simp] theorem fieldAt_last {n : Nat} (v : BitVec n) : fieldAt (bitsOf v) 0 n = v := by
  simpa using fieldAt_here v []

theorem fieldAt_skip {m : Nat} (u : BitVec m) (rest : List Bool) {off n : Nat} (h : m ≤ off) :
    fieldAt (bitsOf u ++ rest) off n = fieldAt rest (off - m) n := by
  have : (bitsOf u).drop off = [] := List.drop_eq_nil_of_le (by simpa using h)
  simp [fieldAt, List.drop_append, this]

theorem fieldAt_cons (b : Bool) (rest : List Bool) (off n : Nat) : fieldAt (b :: rest) (off + 1) n = fieldAt rest off n := rfl

/-! ## Codes -/

theorem RegMode.ofCode_code (m : RegMode) : RegMode.ofCode m.code = some m := by cases m <;> rfl
theorem QaKind.ofCode_code (k : QaKind) : QaKind.ofCode k.code = some k := by cases k <;> rfl

/-! ## Frames -/

theorem unframe_frameBits {type : BitVec 4} (payload : List Bool) :
    unframe (frameBits (bitsOf type ++ payload)) = some (type.toNat, payload) := by
  have body (xs : List Bool) (crc : Byte) : (xs ++ bitsOf crc).take ((xs ++ bitsOf crc).length - 8) = xs := by simp
  simp only [unframe, frameBits, List.cons_append, body, List.drop_left]
  simp [bitsNat_bitsOf]
  omega

theorem DownFrame.read_bits (f : DownFrame) : DownFrame.read f.bits = some f := by
  cases f with
  | reg m d =>
    simp [DownFrame.read, DownFrame.bits, DownFrame.body, unframe_frameBits, fieldAt_skip, fieldAt_cons, RegMode.ofCode_code]
  | quiet tag len => simp [DownFrame.read, DownFrame.bits, DownFrame.body, unframe_frameBits, fieldAt_skip]
  | cfg i v => simp [DownFrame.read, DownFrame.bits, DownFrame.body, unframe_frameBits, fieldAt_skip]

theorem UpFrame.read_bits (f : UpFrame) : UpFrame.read f.bits = some f := by
  cases f with
  | tlm f => simp [UpFrame.read, UpFrame.bits, UpFrame.body, unframe_frameBits, fieldAt_skip, fieldAt_cons]
  | zc f => simp [UpFrame.read, UpFrame.bits, UpFrame.body, unframe_frameBits, fieldAt_skip, fieldAt_cons]
  | evt f => simp [UpFrame.read, UpFrame.bits, UpFrame.body, unframe_frameBits, fieldAt_skip]
  | qa f => simp [UpFrame.read, UpFrame.bits, UpFrame.body, unframe_frameBits, fieldAt_skip, QaKind.ofCode_code]

end Sys2Proof

namespace Sys2Proof.Proofs

open Sys2Proof Sys2Proof.Machine

theorem framesAreReadAsTheyAreSent : Claims.FramesAreReadAsTheyAreSent :=
  ⟨fun f => ⟨f.read_bits, by simp [discards, f.read_bits]⟩, fun f => ⟨f.read_bits, by simp [discards, f.read_bits]⟩⟩

end Sys2Proof.Proofs
end

section
/-! PROOFS. What the line die does with the downlink (R45, R48, R52, R53, R64, R68, R81, R83, R86). -/

namespace Sys2Proof.Machine

section Rules
variable {s : State} {l : LineDie}

/-! ## Sending touches the queues alone -/

/-- What the line die is after it has heard a frame: as before but for its flags of the downlink and its queues. -/
theorem LineDie.heard_shape (l : LineDie) : ∃ evt qa zc tlm up, l.heard = { l with
    downlink := true, beacon := false, evtQ := evt, qaQ := qa, zcQ := zc, tlmQ := tlm, upFlight := up } :=
  ⟨_, _, _, _, _, LineDie.heard_frame⟩

theorem LineDie.heard_runStreak : l.heard.runStreak = l.runStreak := by rw [LineDie.heard_frame]
theorem LineDie.heard_ssr : l.heard.ssr = l.ssr := by rw [LineDie.heard_frame]
theorem LineDie.heard_switching : l.heard.switching = l.switching := by rw [LineDie.heard_frame]
theorem LineDie.heard_quiet : l.heard.quiet = l.quiet := by rw [LineDie.heard_frame]
theorem LineDie.heard_quietOpen : l.heard.quietOpen = l.quietOpen := by rw [LineDie.heard_frame]

theorem LineDie.pushEvt_beacon (code : Byte) (stamp : Word) : (l.pushEvt code stamp).beacon = l.beacon := by
  rw [LineDie.pushEvt, LineDie.send_frame]

theorem LineDie.pushEvt_quiet (code : Byte) (stamp : Word) : (l.pushEvt code stamp).quiet = l.quiet := by
  rw [LineDie.pushEvt, LineDie.send_frame]

theorem LineDie.pushEvt_quietOpen (code : Byte) (stamp : Word) : (l.pushEvt code stamp).quietOpen = l.quietOpen := by
  rw [LineDie.pushEvt, LineDie.send_frame]

theorem LineDie.endQuiet_sent (cause : BitVec 3) (stamp : Word) (h : l.quietOpen = true) (hb : l.beacon = false) :
    l.endQuiet cause stamp = LineDie.send { l with
      quiet := none, quietOpen := false, lossRepeat := none
      guard := some (stamp, ((l.quiet.map fun (q : QuietReq) => q.len.toNat).getD 0) + 250)
      qaQ := l.qaQ ++ [⟨.ended, (l.quiet.map QuietReq.tag).getD 0, cause, stamp⟩] } := by
  rw [LineDie.endQuiet_open _ _ h]
  exact LineDie.pushQa_free _ _ _ _ hb

theorem LineDie.send_setRunStreak (n : Nat) : LineDie.send { l with runStreak := n } = { l.send with runStreak := n } := by
  unfold LineDie.send
  dsimp only
  split
  · rfl
  · split <;> rfl

/-! ## The end of a hold -/

/-- The end of the hold lets switching resume. -/
def LineDie.again (l : LineDie) : Bool := l.hold && (l.stops.isEmpty && !l.waitBrownIn)

theorem LineDie.unhold_eq (hr : l.running = true) : l.unhold = { l with
    hold := false
    switching := l.switching || l.again, begun := l.begun || l.again
    softStart := l.softStart || l.again, softOwed := (l.softOwed || l.hold) && !l.again } := by
  cases hh : l.hold
  · have kept : l.again = false := by simp [LineDie.again, hh]
    simp [LineDie.unhold, hh, kept]
    rw [← hh]
  · have again : l.again = (l.stops.isEmpty && !l.waitBrownIn) := by simp [LineDie.again, hh]
    cases hf : l.stops.isEmpty && !l.waitBrownIn <;> simp [LineDie.unhold, LineDie.resume, hh, hr, again, hf]

/-- A REG frame that regulates: what R53 says of the hold, and the demand; the repeats of LINE_LOSS end. -/
theorem LineDie.regulate_eq (hr : l.running = true) (d : BitVec 12) : l.regulate d = { l.heard with
    demand := d, lossRepeat := none, hold := false
    switching := l.switching || l.again, begun := l.begun || l.again
    softStart := l.softStart || l.again, softOwed := (l.softOwed || l.hold) && !l.again } := by
  obtain ⟨evt, qa, zc, tlm, up, h⟩ := l.heard_shape
  rw [LineDie.regulate, LineDie.heardReg, h]
  exact LineDie.unhold_eq hr

theorem CfgReg.ofIndex_reserved (i : BitVec 4) (h1 : i ≠ 1) (h2 : i ≠ 2) : CfgReg.ofIndex i = none := by
  simpa [CfgReg.ofIndex, CfgReg.index] using And.intro h1.symm h2.symm

end Rules

end Sys2Proof.Machine

namespace Sys2Proof.Proofs

open Sys2Proof Sys2Proof.Machine

theorem lineDieObeysTheDownlink_frames : Claims.LineDieObeysTheDownlink := by
  unfold Claims.LineDieObeysTheDownlink
  intro s d stamp on free again taken heard reg
  have regulated : s.line.regulate d = reg := LineDie.regulate_eq on d
  have win : reg.quietOpen = s.line.quietOpen := LineDie.heard_quietOpen
  refine ⟨fun hf => next_downFrame on hf ?_, fun hf => ⟨fun ho => next_downFrame on hf ?_, fun ho => next_downFrame on hf ?_⟩,
    fun hf => ⟨fun hs => ?_, fun hs => ?_⟩,
    fun v => ⟨fun hf => next_downFrame on hf rfl, fun hf => next_downFrame on hf rfl, fun i h1 h2 hf => next_downFrame on hf ?_,
      fun i hf => next_downFrame_other hf⟩,
    fun hf => next_downFrame_other hf, fun hf => next_downFrame_other hf, fun hf => ?_,
    fun hd => next_whileRunning on (if_pos hd), fun hd => next_whileRunning_same (if_neg (by simp [hd])),
    fun hh hd => next_whileRunning on ?_, fun h => next_whileRunning_same (if_neg (by simp [h]))⟩
  · have eight : (min 8 (s.line.runStreak + 1) == 8) = decide (7 ≤ s.line.runStreak) := by
      by_cases h : 7 ≤ s.line.runStreak <;> simp [h]
    simp only [regulated, show reg.runStreak = s.line.runStreak from LineDie.heard_runStreak,
      show reg.ssr = s.line.ssr from LineDie.heard_ssr, eight]
  · rw [regulated, LineDie.endQuiet_closed _ _ (win.trans ho)]
  · have quiet : reg.quiet = s.line.quiet := LineDie.heard_quiet
    rw [regulated, ← quiet]
    exact (congrArg (fun l : LineDie => { l with runStreak := 0 })
      (LineDie.endQuiet_sent 1 stamp (win.trans ho) LineDie.heard_beacon)).trans (LineDie.send_setRunStreak 0).symm
  · simp only [exec, execRegSoftStop, hf]
    exact next_downFrame on hf (if_pos (LineDie.heard_switching.trans hs))
  · simp only [exec, execRegSoftStop, hf]
    exact next_downFrame on hf (if_neg (ne_true_of_eq_false (LineDie.heard_switching.trans hs)))
  · simp only [CfgReg.ofIndex_reserved i h1 h2]
    rfl
  · change execRegSoftStop stamp s = .next s
    unfold execRegSoftStop
    split
    next d h => exact absurd h (hf d)
    next => rfl
  · rw [if_pos (by simp [hh, hd])]
    refine (LineDie.unhold_eq (l := { s.line with ssr := false, runStreak := 0 }) on).trans ?_
    simp [LineDie.again, hh, free]

theorem stopSymbolHoldsTheSwitchOff : Claims.StopSymbolHoldsTheSwitchOff := by
  unfold Claims.StopSymbolHoldsTheSwitchOff
  intro s stamp taken held ended
  have beacon : held.beacon = s.line.beacon := LineDie.pushEvt_beacon ..
  have win : held.quietOpen = s.line.quietOpen := LineDie.pushEvt_quietOpen ..
  have quiet : held.quiet = s.line.quiet := LineDie.pushEvt_quiet ..
  have arrives {k : LineDie} (hs : s.link.stopSymbolDue = true) (on : s.line.running = true)
      (h : held.endQuiet 2 stamp = k) : exec (.stopSymbolReceived stamp) s = .next { s with link := taken, line := k } :=
    (if_pos hs).trans (next_whileRunning on h)
  refine ⟨fun hs => if_neg (by simp [hs]), fun hs on => ⟨fun ho => arrives hs on ?_, fun ho hb => arrives hs on ?_,
    fun ho hb => arrives hs on ?_⟩⟩
  · exact LineDie.endQuiet_closed _ _ (win.trans ho)
  · rw [LineDie.endQuiet_open _ _ (win.trans ho), quiet]
    exact LineDie.pushQa_beacon _ _ _ _ (beacon.trans hb)
  · rw [LineDie.endQuiet_sent _ _ (win.trans ho) (beacon.trans hb), quiet]

theorem stoppedLineDieIsDeaf : Claims.StoppedLineDieIsDeaf := by
  unfold Claims.StoppedLineDieIsDeaf
  intro s d stamp t v v0 v1 mw peak vl hv temp pk tag len off passed
  have deaf (f : LineDie → LineDie) : (.next (s.whileRunning f) : Out) = .next s := congrArg _ (State.whileRunning_stopped f off)
  refine ⟨?_, fun hs => ?_, fun hf => next_downFrame_stopped off hf, fun hf => next_downFrame_stopped off hf, fun hf => ?_,
    fun hf => next_downFrame_stopped off hf, fun i v hf => next_downFrame_stopped off hf⟩
  · simp only [List.forall_mem_cons]
    and_intros
    any_goals exact deaf _
    · change execZeroCrossing t v0 v1 peak s = .next s
      unfold execZeroCrossing
      dsimp only
      split
      · exact deaf _
      · split
        · exact deaf _
        · rfl
    · exact nofun
  · exact (if_pos hs).trans (congrArg _ (State.whileRunning_stopped _ off))
  · simp only [exec, execRegSoftStop, hf]
    exact next_downFrame_stopped off hf

/-- Settles O13: a frame is its bits read back; one that arrives is one change of a line die that runs, and none of another. -/
theorem lineDieObeysTheDownlink : Obligations.LineDieObeysTheDownlink :=
  ⟨framesAreReadAsTheyAreSent, lineDieObeysTheDownlink_frames, stopSymbolHoldsTheSwitchOff, stoppedLineDieIsDeaf⟩

end Sys2Proof.Proofs
end

section
/-! PROOFS. An event that is raised, and the beacon detector (R76, R111, R148, R172, R302, R307). -/

namespace Sys2Proof.Machine

section Wakes
variable {s : State}

/-- A wake that is enabled latches its source and starts the CPU's exit; one that is not enabled does nothing (R172). -/
theorem State.wake_cpu {bit : Nat} (h : s.dom.wakeEn.getLsbD bit = true) :
    s.wake bit [.cpu] = { s with dom := { s.dom with
      wakeFlags := s.dom.wakeFlags ||| (1#32 <<< bit), wakePend := s.dom.wakePend ||| (1#32 <<< bit) } }.startOn .cpu := by
  simp [State.wake, State.onDom, State.bringOn, h]

theorem State.wake_masked {bit : Nat} (ds : List Domain) (h : s.dom.wakeEn.getLsbD bit = false) : s.wake bit ds = s := by
  simp [State.wake, h]

/-- What the start of the CPU's exit makes of each of its states (R165). -/
theorem State.startOn_cpu_off (h : s.dom.cpu.st = .off) (hp : s.powered = true) :
    s.startOn .cpu = { s with dom := { s.dom with cpu := { st := .leaving .off } } } := by
  simp [State.startOn, State.onDom, Domains.get, Domains.set, State.mayTurnOn, h, hp]

theorem State.startOn_cpu_on (h : s.dom.cpu.st = .on) :
    s.startOn .cpu = { s with dom := { s.dom with cpu := { s.dom.cpu with deferred := none } } } := by
  simp [State.startOn, State.onDom, Domains.get, Domains.set, h]

theorem State.startOn_cpu_entering {low : Low} (h : s.dom.cpu.st = .entering low) :
    s.startOn .cpu = { s with dom := { s.dom with cpu := { s.dom.cpu with wanted := true } } } := by
  simp [State.startOn, State.onDom, Domains.get, Domains.set, h]

/-- The wake of a CPU that is OFF and may leave it. -/
theorem State.wake_cpu_leaves {bit : Nat} (h : s.dom.wakeEn.getLsbD bit = true) (ho : s.dom.cpu.st = .off)
    (hp : s.powered = true) : (s.wake bit [.cpu]).dom.cpu.st = .leaving .off := by
  rw [State.wake_cpu h]
  generalize hm : ({ s with dom := _ } : State) = m
  have off : m.dom.cpu.st = .off := by rw [← hm]; exact ho
  have up : m.powered = true := by rw [← hm]; exact hp
  rw [State.startOn_cpu_off off up]

/-- An event that wakes is the wake of the EVENT source, after the raise latch. -/
theorem State.raise_wakes {e : Nat} (h : s.ev.wakeEn.getLsbD e = true) :
    s.raise e = { s with ev := { s.ev with raised := s.ev.raised ||| (1#96 <<< e) } }.wake 18 [.cpu] := by
  simp [State.raise, State.when, State.onEv, h]

theorem State.raise_masked {e : Nat} (h : s.ev.wakeEn.getLsbD e = false) :
    s.raise e = { s with ev := { s.ev with raised := s.ev.raised ||| (1#96 <<< e) } } := by
  simp [State.raise, State.when, State.onEv, h]

end Wakes

end Sys2Proof.Machine

namespace Sys2Proof.Proofs

open Sys2Proof Sys2Proof.Machine

theorem raiseLatchesAndWakes_claim : Claims.RaiseLatchesAndWakes := by
  unfold Claims.RaiseLatchesAndWakes
  intro s e latched flagged
  refine ⟨fun h => ?_, fun h => ?_⟩
  · cases he : s.ev.wakeEn.getLsbD e
    · exact State.raise_masked he
    · rw [he, Bool.true_and] at h
      rw [State.raise_wakes he]
      exact State.wake_masked _ h
  · obtain ⟨he, hw⟩ := Bool.and_eq_true_iff.1 h
    let m : State := { s with ev := latched, dom := flagged }
    have woken : s.raise e = m.startOn .cpu := by
      rw [State.raise_wakes he]
      exact State.wake_cpu hw
    rw [woken]
    exact ⟨fun ho hp => m.startOn_cpu_off ho hp, fun ho => m.startOn_cpu_on ho, fun x hx => m.startOn_leaving hx,
      fun x hx => m.startOn_cpu_entering hx⟩

theorem beaconDetectorWakesOnce : Claims.BeaconDetectorWakesOnce := by
  unfold Claims.BeaconDetectorWakesOnce
  refine fun s => ⟨fun hp hl hr hb hh => ?_, fun h => if_neg ?_, rfl⟩
  · let m := s.onDom fun d => { d with beaconLatch := true }
    have latched : (m.wake 0 [.cpu]).dom.beaconLatch = true := by
      rw [m.wake_keeps Domains.beaconLatch (fun x d v => by cases d <;> rfl)]
      unfold Domains.latch
      split <;> rfl
    have bin : (m.wake 0 [.cpu]).bin = s.bin := m.wake_bin 0 _
    refine ⟨(m.wake 0 [.cpu]).sysonAuto 3, if_pos (by simp [hp, hl, hr, hb, hh]), ?_, latched, ?_, fun hw => ?_, fun hw => ?_⟩
    · rw [m.wake_frame]
      rfl
    · rw [State.sysonAuto, State.onBin_bin, bin]
    · have flags := m.wake_keeps (fun x => (x.wakeFlags, x.wakePend)) (fun x d v => by cases d <;> rfl) 0 [.cpu]
      have enabled : m.dom.wakeEn.getLsbD 0 = true := hw
      simp only [Domains.latch, enabled, if_true, Prod.mk.injEq] at flags
      exact ⟨flags.1, flags.2, fun ho hpow => State.wake_cpu_leaves enabled ho hpow⟩
    · exact congrArg State.dom (m.wake_masked _ hw)
  · intro on
    simp only [Bool.and_eq_true, Bool.not_eq_true'] at on
    obtain ⟨⟨⟨⟨hp, hl⟩, hr⟩, hb⟩, hh⟩ := on
    simp [hp, hl, hr, hb, hh] at h

/-- Settles O16: a raise is its latch and the wake of the EVENT source; a beacon that qualifies is the wake of LINE. -/
theorem raiseLatchesAndWakes : Obligations.RaiseLatchesAndWakes := ⟨raiseLatchesAndWakes_claim, beaconDetectorWakesOnce⟩

end Sys2Proof.Proofs
end

section
/-! PROOFS. The core endpoint of the link: training, UP, discards, faults and time-outs (R50, R61, R64 to R74, R86). -/

namespace Sys2Proof.Machine

/-- A counter of 16 bits that saturates (R86). -/
theorem satInc_half (v : Half) : (satInc v).toNat = min 65535 (v.toNat + 1) := by
  have full : BitVec.allOnes 16 = 65535#16 := rfl
  rw [satInc, full]
  split <;> bv_omega

section Rules
variable {s : State} {l : Link}

/-! ## Sending CFG frames (R86) -/

/-- Sending moves a frame from its queue onto the wire, and changes nothing else. -/
theorem Link.send_frame : l.send = { l with
    regDue := l.send.regDue, quietDue := l.send.quietDue, cfgQ := l.send.cfgQ, downFlight := l.send.downFlight } := by
  unfold Link.send
  repeat' split
  all_goals rfl

theorem Link.send_state : l.send.state = l.state := by rw [Link.send_frame]
theorem Link.send_crcErr : l.send.crcErr = l.crcErr := by rw [Link.send_frame]

theorem Link.sendCfg_runs (r : CfgReg) (h : l.downlinkRuns = true) :
    l.sendCfg r = Link.send { l with cfgQ := l.cfgQ ++ [(r.index, l.cfgValue r)] } := if_pos h

/-! ## What a TLM frame changes (R57, R70, R72, R86) -/

/-- The frames that are missing before this one. -/
def Link.tlmGap (f : TlmFrame) (l : Link) : Nat :=
  match l.lastTlm with
  | some q => (f.seq - q - 1).toNat
  | none => 0

/-- The registers after a TLM frame. -/
def Link.takeTlm (f : TlmFrame) (l : Link) : Link :=
  { l.trackPeak f.vline with
    lastTlm := some f.seq, tlmLost := satAdd l.tlmLost (l.tlmGap f), hvinV := f.hvin, ldTemp := f.temp, ssr := f.ssr
    hvinHigh := decide (880 ≤ f.hvin.toNat), ssrStreak := if f.ssr then min 2 (l.ssrStreak + 1) else 0 }

/-- A TLM frame before the link may come UP. -/
def State.tlmNoted (f : TlmFrame) (s : State) : State :=
  ((s.onLink (Link.takeTlm f)).when (s.link.tlmGap f != 0 && s.link.tlmLost == 0) (State.raise 4)).when
    (decide (880 ≤ f.hvin.toNat) && !s.link.hvinHigh) (State.raise 6)

theorem Link.trackPeak_frame (v : BitVec 12) : l.trackPeak v = { l with
    halfPk := (l.trackPeak v).halfPk, halfSign := (l.trackPeak v).halfSign, pkHist := (l.trackPeak v).pkHist
    vlinePk := (l.trackPeak v).vlinePk } := by
  unfold Link.trackPeak
  extract_lets
  split <;> rfl

@[simp] theorem State.tlmNoted_link (f : TlmFrame) : (s.tlmNoted f).link = s.link.takeTlm f := by
  unfold State.tlmNoted State.when
  split <;> split <;> simp

@[simp] theorem State.tlmNoted_line (f : TlmFrame) : (s.tlmNoted f).line = s.line := by
  unfold State.tlmNoted State.when
  split <;> split <;> simp

@[simp] theorem Link.takeTlm_ssrStreak (f : TlmFrame) :
    (l.takeTlm f).ssrStreak = if f.ssr then min 2 (l.ssrStreak + 1) else 0 := rfl
@[simp] theorem Link.takeTlm_state (f : TlmFrame) : (l.takeTlm f).state = l.state := by rw [Link.takeTlm, Link.trackPeak_frame]
@[simp] theorem Link.takeTlm_lineOk (f : TlmFrame) : (l.takeTlm f).lineOk = l.lineOk := by
  rw [Link.takeTlm, Link.trackPeak_frame]

/-- The second SSR frame in a row brings a link that trains UP (R72). -/
theorem State.takeTlm_eq (f : TlmFrame) : s.takeTlm f =
    (s.tlmNoted f).when (s.link.state == .training && (s.link.takeTlm f).ssrStreak == 2) State.linkUp := by
  rw [← Link.takeTlm_state (l := s.link) f, ← s.tlmNoted_link f]
  rfl

/-! ## The abort of a measurement (R137) -/

/-- The raise latch after an event, bit by bit. -/
theorem State.raise_bit {e : Nat} (n : Nat) (he : e < 96) :
    (s.raise e).ev.raised.getLsbD n = (s.ev.raised.getLsbD n || decide (n = e)) := by
  rw [State.raise_ev]
  exact latch_bit _ e n he

theorem State.trimAbort_active (c : Nat) (h : s.trim.active = true) :
    (s.trimAbort c).trim = { s.trim with run := false, active := false, openRaw := none, cause := BitVec.ofNat 3 c } ∧
      (s.trimAbort c).ev.raised.getLsbD 26 = true := by
  unfold State.trimAbort
  rw [if_pos h]
  dsimp only
  split <;> exact ⟨by simp, State.raise_latched _ 26 (by omega)⟩

theorem State.trimAbort_idle (c : Nat) (h : s.trim.active = false) : s.trimAbort c = s := if_neg (by simp [h])

/-- It raises EV26 and no other event. -/
theorem State.trimAbort_raised (c : Nat) {e : Nat} (he : e ≠ 26) :
    (s.trimAbort c).ev.raised.getLsbD e = s.ev.raised.getLsbD e := by
  unfold State.trimAbort
  dsimp only
  split
  · rw [State.raise_bit e (by omega), decide_eq_false he, Bool.or_false]
    split <;> rfl
  · rfl

/-! ## Into UP and out of it (R61, R66, R72, R73) -/

theorem State.linkUp_link : s.linkUp.link = { s.link with
    state := .up, crcTimes := [], lineOk := s.link.lineOk || s.line.present
    linePresent := s.link.linePresent || s.line.present } := by
  simp [State.linkUp]

theorem LineDie.send_owesTimeout (k : LineDie) : k.send.owesTimeout = k.owesTimeout := by rw [LineDie.send_frame]
theorem LineDie.send_present (k : LineDie) : k.send.present = k.present := by rw [LineDie.send_frame]

theorem State.linkUp_resetDone : s.linkUp.dom.linkResetDone = false :=
  congrArg Domains.linkResetDone (State.raise_unwoken _ 15)

theorem State.linkUp_line_owed {stamp : Word} (h : s.line.owesTimeout = some stamp) :
    s.linkUp.line = { s.line with owesTimeout := none }.pushEvt 0x09 stamp := by
  simp [State.linkUp, h]

theorem State.linkUp_line_quiet (h : s.line.owesTimeout = none) : s.linkUp.line = s.line := by
  simp [State.linkUp, h]

/-- The link without downlink frames (R61, R73). -/
def Link.lost (x : LinkState) (ok : Bool) (l : Link) : Link :=
  { l with
    state := x, lineOk := ok, ssr := false, goodbye := false, crcTimes := [], downFlight := none, regDue := false
    quietDue := [], quietQ := [], cfgQ := [], stopSymbolDue := false }

theorem State.linkGoes_link_up (x : LinkState) (h : s.link.state = .up) : (s.linkGoes x).link = s.link.lost x false := by
  simp [State.linkGoes, State.linkLeavesUp, h, Link.silence, Link.lost]

theorem State.linkFault_link (h : s.link.state = .up) : s.linkFault.link = s.link.lost .fault false := by
  rw [State.linkFault, State.raise_link, State.linkGoes_link_up _ h]

theorem State.linkGoes_raised (x : LinkState) {e : Nat} (he : e ≠ 26) :
    (s.linkGoes x).ev.raised.getLsbD e = s.ev.raised.getLsbD e := by
  unfold State.linkGoes State.linkLeavesUp
  split
  · exact State.trimAbort_raised 1 he
  · rfl

theorem State.linkGoes_power (x : LinkState) : (s.linkGoes x).power = { s.power with paused := s.link.window.isSome } := by
  unfold State.linkGoes State.linkLeavesUp
  split <;> simp [State.chargerFollows, State.onPower, Link.silence]

/-- The link leaves a state without frames in force: nothing aborts. -/
theorem State.linkGoes_training (x : LinkState) (h : s.link.state ≠ .up) : s.linkGoes x = { s with
    link := s.link.lost x s.link.lineOk, power := { s.power with paused := s.link.window.isSome } } := by
  simp [State.linkGoes, s.linkLeavesUp_same h, State.chargerFollows, State.onPower, State.onLink, Link.silence, Link.lost]

/-! ## Discards (R67, R73) -/

theorem State.countDiscard_other (instant : Nat) (h : s.link.state ≠ .up) : s.countDiscard instant =
    { s with link := { s.link with crcErr := satInc s.link.crcErr, crcTimes := [] } } := by
  simp [State.countDiscard, State.onLink, h]

theorem State.countDiscard_few (instant : Nat) (h : s.link.state = .up)
    (hk : (s.link.crcTimes.filter fun t => instant < t + 50000).length < 15) : s.countDiscard instant =
      { s with link := { s.link with
        crcErr := satInc s.link.crcErr, crcTimes := instant :: s.link.crcTimes.filter fun t => instant < t + 50000 } } := by
  have : ¬ 15 ≤ (s.link.crcTimes.filter fun t => instant < t + 50000).length := by omega
  simp [State.countDiscard, State.onLink, h, this]

theorem State.countDiscard_many (instant : Nat) (h : s.link.state = .up)
    (hk : 15 ≤ (s.link.crcTimes.filter fun t => instant < t + 50000).length) : s.countDiscard instant =
      { s with link := { s.link with
        crcErr := satInc s.link.crcErr
        crcTimes := instant :: s.link.crcTimes.filter fun t => instant < t + 50000 } }.linkFault := by
  simp [State.countDiscard, State.onLink, h, hk]

/-- Of bits that spell no frame the endpoint sees that there was one (R64, R67). -/
theorem execFrameDiscard_up {bits : List Bool} (instant : Nat) (h : UpFrame.read bits = none) :
    execFrameDiscard .up bits instant s = .next (({ s with line := LineDie.send { s.line with upFlight := none } } : State).when
      (s.isOn .pwr) (State.countDiscard instant)) := by
  simp [execFrameDiscard, discards, h, State.onLine]
  rfl

theorem execFrameDiscard_down {bits : List Bool} (instant : Nat) (h : DownFrame.read bits = none) :
    execFrameDiscard .down bits instant s = .next (({ s with link := Link.send { s.link with downFlight := none } } : State).when
      (s.line.running && s.isOn .pwr) (State.countDiscard instant)) := by
  simp [execFrameDiscard, discards, h, State.onLink]
  rfl

end Rules

end Sys2Proof.Machine

namespace Sys2Proof.Proofs

open Sys2Proof Sys2Proof.Machine

theorem uplinkStartsTraining : Claims.UplinkStartsTraining := by
  unfold Claims.UplinkStartsTraining
  refine fun s hp => ⟨fun hst => ?_, s.uplinkSeen_same, fun hr hb => if_pos (by simp [hr, hb]), fun h => if_neg (by simp [h])⟩
  intro frac plim fresh first
  have begins : s.uplinkSeen = { s with link := s.link.enterTraining } := if_pos (by rcases hst with h | h <;> simp [hp, h])
  have one : Link.sendCfg .lossFrac fresh = first := Link.sendCfg_runs .lossFrac rfl
  have sent : first = { fresh with
      regDue := first.regDue, quietDue := first.quietDue, cfgQ := first.cfgQ, downFlight := first.downFlight } :=
    Link.send_frame
  have runs : first.downlinkRuns = true := by rw [sent]; rfl
  have value : first.cfgValue .plim = plim := by rw [sent]; rfl
  rw [begins]
  have two := Link.sendCfg_runs .plim runs
  rw [value] at two
  exact congrArg (fun l => ({ s with link := l } : State)) ((congrArg (Link.sendCfg .plim) one).trans two)

theorem coreDieSendsRegAndStop : Claims.CoreDieSendsRegAndStop := by
  unfold Claims.CoreDieSendsRegAndStop
  intro s d
  refine ⟨fun hp hx hst => if_pos ?_, fun h => if_neg ?_, fun hp => if_pos hp, fun hp => if_neg (by simp [hp]), fun hv => ?_,
    fun hv => ?_⟩
  · simpa [State.framesRun, Link.downlinkRuns, hp, hx] using hst
  · rcases h with h | h | h | h <;> simp [State.framesRun, Link.downlinkRuns, h]
  · simp [exec, execVauxRecover, State.onLink, hv]
  · simp [exec, execVauxRecover, State.onLink, hv]

theorem twoSsrFramesBringTheLinkUp : Claims.TwoSsrFramesBringTheLinkUp := by
  unfold Claims.TwoSsrFramesBringTheLinkUp
  intro s f hp hx hf hst hssr taken
  let u := s.onLine fun l => LineDie.send { l with upFlight := none }
  have arrives : exec (.tlmReceived f) s = .next (u.takeTlm f) := congrArg _ (s.upFrame_taken _ _ hp hx (.inl hst) hf)
  refine ⟨fun h0 => ⟨_, arrives, ?_⟩, fun h1 => ⟨_, arrives, ?_⟩⟩
  · rw [State.takeTlm_eq]
    simp [u, hst, h0, hssr]
  · have comes : u.takeTlm f = (u.tlmNoted f).linkUp := by
      rw [State.takeTlm_eq]
      simp [u, hst, h1, hssr]
    have owed : taken.owesTimeout = s.line.owesTimeout := LineDie.send_owesTimeout _
    have present : taken.present = s.line.present := LineDie.send_present _
    rw [comes]
    have line : (u.tlmNoted f).line = taken := State.tlmNoted_line f
    have comesOwed {stamp : Word} (h : s.line.owesTimeout = some stamp) :
        (u.tlmNoted f).linkUp.line = { taken with owesTimeout := none }.pushEvt 0x09 stamp :=
      (State.linkUp_line_owed (by rw [line, owed, h])).trans (by rw [line])
    have comesQuiet (h : s.line.owesTimeout = none) : (u.tlmNoted f).linkUp.line = taken :=
      (State.linkUp_line_quiet (by rw [line, owed, h])).trans line
    refine ⟨by rw [State.linkUp_link], State.raise_latched _ 15 (by omega), ?_, State.linkUp_resetDone, ?_,
      fun stamp h => comesOwed h, comesQuiet⟩
    · rw [State.linkUp_link, line, present, State.tlmNoted_link]
      exact congrArg (· || s.line.present) (Link.takeTlm_lineOk f)
    · cases h : s.line.owesTimeout with
      | none => rw [comesQuiet h, owed, h]
      | some stamp => rw [comesOwed h, LineDie.pushEvt, LineDie.send_frame]

theorem discardsAreCounted : Claims.DiscardsAreCounted := by
  unfold Claims.DiscardsAreCounted
  intro s bits instant
  have read (h : UpFrame.read bits ≠ none) : discards .up bits = false := by
    simpa [discards, Option.isSome_iff_ne_none] using h
  have readDown (h : DownFrame.read bits ≠ none) : discards .down bits = false := by
    simpa [discards, Option.isSome_iff_ne_none] using h
  refine ⟨fun h => if_neg (by simp [read h]), fun h => if_neg (by simp [readDown h]), fun h off => ?_, fun h => ?_,
    fun h on hp hst => ?_⟩
  · refine (execFrameDiscard_down instant h).trans ?_
    simp [off]
  · intro taken kept
    let u : State := { s with line := taken }
    have counted (hp : s.isOn .pwr = true) : exec (.frameDiscard .up bits instant) s = .next (u.countDiscard instant) := by
      refine (execFrameDiscard_up instant h).trans ?_
      rw [hp]
      rfl
    refine ⟨fun hp => ?_, fun hp => ⟨fun hst => ?_, fun hst hk => ?_, fun hst hk => ⟨_, counted hp, ?_⟩⟩⟩
    · refine (execFrameDiscard_up instant h).trans ?_
      rw [hp]
      rfl
    · exact (counted hp).trans (congrArg _ (State.countDiscard_other (s := u) instant hst))
    · exact (counted hp).trans (congrArg _ (State.countDiscard_few (s := u) instant hst hk))
    · rw [State.countDiscard_many (s := u) instant hst hk]
      have link := State.linkFault_link (s := { u with link := { u.link with
        crcErr := satInc s.link.crcErr, crcTimes := instant :: kept } }) hst
      exact ⟨congrArg Link.state link, congrArg Link.lineOk link, State.raise_latched _ 3 (by omega),
        (congrArg (fun l => (Link.crcErr l).toNat) link).trans (satInc_half _)⟩
  · refine (execFrameDiscard_down instant h).trans ?_
    rw [on, hp]
    let u : State := { s with link := Link.send { s.link with downFlight := none } }
    have other : u.link.state ≠ .up := Link.send_state.trans_ne hst
    have crc : u.link.crcErr = s.link.crcErr := Link.send_crcErr
    exact congrArg _ ((u.countDiscard_other instant other).trans (by rw [crc]))

theorem linkFaultsAndTimesOut : Claims.LinkFaultsAndTimesOut := by
  unfold Claims.LinkFaultsAndTimesOut
  intro s lost
  have frame (x : LinkState) : s.linkGoes x = { s with
      link := (s.linkGoes x).link, trim := (s.linkGoes x).trim, fw := (s.linkGoes x).fw, ev := (s.linkGoes x).ev
      dom := (s.linkGoes x).dom, power := (s.linkGoes x).power } := by
    apply State.ext_parts <;> simp [State.linkGoes]
  refine ⟨fun hp => ⟨fun hst hg => ⟨s.linkFault, ?_, ?_, ?_, ?_, ?_⟩, fun hst hg => ⟨s.linkGoes .down, ?_, ?_, ?_, ?_, ?_⟩,
    fun hst => ?_⟩, fun h => ?_⟩
  · simp [exec, execLinkUplinkTimeout, hp, hst, hg]
  · rw [State.linkFault, State.raise_frame, frame]
  · exact State.linkFault_link hst
  · simp [State.linkFault, State.linkGoes_power]
  · exact State.raise_latched _ 3 (by omega)
  · simp [exec, execLinkUplinkTimeout, hp, hst, hg]
  · exact frame .down
  · exact State.linkGoes_link_up _ hst
  · exact State.linkGoes_power _
  · exact State.linkGoes_raised _ (by omega)
  · have leaves : exec .linkUplinkTimeout s = .next (s.linkGoes .down) := by
      simp [exec, execLinkUplinkTimeout, hp, hst]
    rw [leaves, State.linkGoes_training _ (by simp [hst])]
    rfl
  · change execLinkUplinkTimeout s = .next s
    unfold execLinkUplinkTimeout
    rcases h with h | h | h <;> simp [h]

/-- Settles O17: training, the frames the core die sends, UP, discards, and the ways out of UP. -/
theorem linkTrainsRunsAndFails : Obligations.LinkTrainsRunsAndFails :=
  ⟨uplinkStartsTraining, coreDieSendsRegAndStop, twoSsrFramesBringTheLinkUp, discardsAreCounted, linkFaultsAndTimesOut⟩

end Sys2Proof.Proofs
end

section
/-! PROOFS. What each uplink frame changes in the core die (R50, R57, R61, R66, R69, R70, R72, R86, R134, R137, R147, R385). -/

namespace Sys2Proof.Machine

section Rules
variable {s : State} {l : Link} {fr : UpFrame} {f : State → State}

/-! ## An uplink frame arrives, or not (R69, R170, R171) -/

theorem next_upFrame_other (h : s.line.upFlight ≠ some fr) : (.next (s.upFrame fr f) : Out) = .next s := by
  rw [State.upFrame, if_neg h]

theorem next_upFrame_off (h : s.line.upFlight = some fr) (hp : s.isOn .pwr = false) :
    (.next (s.upFrame fr f) : Out) = .next { s with line := LineDie.send { s.line with upFlight := none } } := by
  rw [State.upFrame, if_pos h]
  simp only [State.framesRun, State.isOn_onLine, hp, Bool.false_and, Bool.false_eq_true, if_false]
  rfl

theorem next_upFrame_deaf (h : s.line.upFlight = some fr) (hp : s.isOn .pwr = true) (hx : s.dom.xo16Fail = true) :
    (.next (s.upFrame fr f) : Out) =
      .next ({ s with line := LineDie.send { s.line with upFlight := none } } : State).uplinkSeen := by
  rw [State.upFrame, if_pos h]
  simp only [State.framesRun, State.isOn_onLine, State.onLine_dom, hp, hx, Bool.not_true, Bool.and_false,
    Bool.false_eq_true, if_false, if_true]
  rfl

/-! ## Events that a frame raises -/

theorem State.when_raise_bit {e : Nat} (c : Bool) (n : Nat) (he : e < 96) :
    (s.when c (State.raise e)).ev.raised.getLsbD n = (s.ev.raised.getLsbD n || (c && decide (n = e))) := by
  cases c
  · simp
  · exact State.raise_bit n he

theorem State.when_raise_frame (c : Bool) (e : Nat) :
    s.when c (State.raise e) = { s with ev := (s.when c (State.raise e)).ev, dom := (s.when c (State.raise e)).dom } := by
  cases c
  · rfl
  · exact s.raise_frame e

/-! ## TLM (R57, R70, R72) -/

theorem satAdd_half (v : Half) (k : Nat) : (satAdd v k).toNat = min 65535 (v.toNat + k) := by
  rw [satAdd, BitVec.toNat_ofNat]
  omega

theorem State.tlmNoted_frame (f : TlmFrame) : s.tlmNoted f = { s with
    link := s.link.takeTlm f, ev := (s.tlmNoted f).ev, dom := (s.tlmNoted f).dom } := by
  unfold State.tlmNoted
  rw [State.when_raise_frame, State.when_raise_frame]
  rfl

theorem State.tlmNoted_bit (f : TlmFrame) (n : Nat) : (s.tlmNoted f).ev.raised.getLsbD n =
    (s.ev.raised.getLsbD n || ((s.link.tlmGap f != 0 && s.link.tlmLost == 0) && decide (n = 4)) ||
      ((decide (880 ≤ f.hvin.toNat) && !s.link.hvinHigh) && decide (n = 6))) := by
  rw [State.tlmNoted, State.when_raise_bit _ _ (by omega), State.when_raise_bit _ _ (by omega)]
  rfl

theorem State.linkUp_bit (n : Nat) : s.linkUp.ev.raised.getLsbD n = (s.ev.raised.getLsbD n || decide (n = 15)) :=
  State.raise_bit n (by omega)

theorem State.linkUp_frame : s.linkUp = { s with
    line := s.linkUp.line, link := s.linkUp.link, ev := s.linkUp.ev, dom := s.linkUp.dom } := by
  apply State.ext_parts <;> simp

/-- Coming UP changes the link's state, what it knows of the line, and the discards it counts (R61, R72). -/
theorem State.takeTlm_link (f : TlmFrame) : (s.takeTlm f).link = { s.link.takeTlm f with
    state := (s.takeTlm f).link.state, crcTimes := (s.takeTlm f).link.crcTimes, lineOk := (s.takeTlm f).link.lineOk
    linePresent := (s.takeTlm f).link.linePresent } := by
  rw [State.takeTlm_eq]
  unfold State.when
  split
  · rw [State.linkUp_link, State.tlmNoted_link]
  · rw [State.tlmNoted_link]

theorem State.takeTlm_bit (f : TlmFrame) {n : Nat} (hn : n ≠ 15) :
    (s.takeTlm f).ev.raised.getLsbD n = (s.tlmNoted f).ev.raised.getLsbD n := by
  rw [State.takeTlm_eq]
  unfold State.when
  split
  · simp [State.linkUp_bit, hn]
  · rfl

theorem State.takeTlm_frame (f : TlmFrame) : s.takeTlm f = { s with
    line := (s.takeTlm f).line, link := (s.takeTlm f).link, dom := (s.takeTlm f).dom, ev := (s.takeTlm f).ev } := by
  rw [State.takeTlm_eq]
  unfold State.when
  split
  · rw [State.linkUp_frame, State.tlmNoted_frame]
  · rw [State.tlmNoted_frame]

/-- In UP there is no coming UP. -/
theorem State.takeTlm_up (f : TlmFrame) (h : s.link.state = .up) : s.takeTlm f = s.tlmNoted f := by
  rw [State.takeTlm_eq, h]
  rfl

/-! ## ZC (R57, R86) -/

theorem Link.takeZc_positive {f : ZcFrame} (h : f.positive = true) : ∃ p < 2 ^ 24,
    l.takeZc f = { l with
      rangeSeen := f.range, zcPos := f.stamp, posSeen := true, linePeriod := BitVec.ofNat 32 (f.seq.toNat * 2 ^ 24 + p) } ∧
    (l.posSeen = true → f.seq.toNat = (l.linePeriod.toNat / 2 ^ 24 + 1) % 32 →
      p = min (2 ^ 24 - 1) (f.stamp - l.zcPos).toNat) := by
  refine ⟨_, ?_, if_pos h, fun hp hs => if_pos (by simp [hp, hs])⟩
  split <;> omega

theorem Link.takeZc_negative {f : ZcFrame} (h : f.positive = false) :
    l.takeZc f = { l with rangeSeen := f.range, zcNeg := f.stamp } := by
  simp [Link.takeZc, h]

theorem Link.takeZc_rangeSeen (f : ZcFrame) : (l.takeZc f).rangeSeen = f.range := by
  unfold Link.takeZc
  dsimp only
  split <;> rfl

/-! ## The measurement (R134, R137) -/

variable {z : ZcFrame}

theorem State.trimZc_idle (ha : s.trim.active = false) : s.trimZc z = s := if_neg (by simp [ha])

theorem State.trimZc_unlocked (ha : s.trim.active = true) (hl : z.lock = false) : s.trimZc z = s.trimAbort 1 := by
  simp [State.trimZc, ha, hl]

theorem State.trimZc_outOfRange (ha : s.trim.active = true) (hl : z.lock = true) (hr : z.range = true) :
    s.trimZc z = s.trimAbort 3 := by
  simp [State.trimZc, ha, hl, hr]

theorem State.trimZc_skipped {q : BitVec 5} (ha : s.trim.active = true) (hl : z.lock = true) (hr : z.range = false)
    (hp : z.positive = true) (hq : s.trim.lastSeq = some q) (hs : z.seq ≠ q + 1) : s.trimZc z = s.trimAbort 2 := by
  simp only [State.trimZc, ha, hl, hr, hp, hq, if_neg hs]
  rfl

theorem State.trimZc_next {q : BitVec 5} (ha : s.trim.active = true) (hl : z.lock = true) (hr : z.range = false)
    (hp : z.positive = true) (hq : s.trim.lastSeq = some q) (hs : z.seq = q + 1) : s.trimZc z = s.onTrim fun t => { t with
      lastSeq := some z.seq
      prog := if !t.src && t.openRaw.isSome && t.prog.toNat < 2 ^ t.kEff then t.prog + 1 else t.prog } := by
  simp [State.trimZc, ha, hl, hr, hp, hq, hs]

/-- A frame aborts the measurement, or notes its sequence number and counts. -/
theorem State.trimZc_cases : (∃ c, s.trimZc z = s.trimAbort c) ∨
    ∃ seq prog, s.trimZc z = s.onTrim fun t => { t with lastSeq := seq, prog := prog } := by
  unfold State.trimZc
  split
  · split
    · exact .inl ⟨1, rfl⟩
    · split
      · exact .inl ⟨3, rfl⟩
      · split
        · exact .inr ⟨_, _, rfl⟩
        · split
          · split
            · exact .inr ⟨_, _, rfl⟩
            · exact .inl ⟨2, rfl⟩
          · exact .inr ⟨_, _, rfl⟩
  · exact .inr ⟨_, _, rfl⟩

/-- What a frame leaves of the engine: the count, f_calc and the trim in force. -/
def Trim.figures (t : Trim) : Word × BitVec 13 × BitVec 13 := (t.count, t.calcd, t.trim)

theorem State.trimAbort_figures (c : Nat) : (s.trimAbort c).trim.figures = s.trim.figures := by
  cases h : s.trim.active
  · rw [State.trimAbort_idle c h]
  · rw [(State.trimAbort_active c h).1]
    rfl

theorem State.trimZc_figures : (s.trimZc z).trim.figures = s.trim.figures := by
  rcases s.trimZc_cases (z := z) with ⟨c, h⟩ | ⟨_, _, h⟩
  · rw [h, State.trimAbort_figures]
  · rw [h]
    rfl

theorem State.trimResume_figures : s.trimResume.trim.figures = s.trim.figures := by
  unfold State.trimResume
  split
  · rw [State.trRun, if_pos rfl]
    split <;> rfl
  · rfl

theorem State.trimResume_idle (h : s.fw.trimRestart = false ∨ s.fw.trimRestarts = false) : s.trimResume = s := by
  rcases h with h | h <;> simp [State.trimResume, h]

theorem State.trimZc_raised {e : Nat} (he : e ≠ 26) : (s.trimZc z).ev.raised.getLsbD e = s.ev.raised.getLsbD e := by
  rcases s.trimZc_cases (z := z) with ⟨c, h⟩ | ⟨_, _, h⟩
  · rw [h, State.trimAbort_raised c he]
  · rw [h]
    rfl

theorem State.trimResume_ev : s.trimResume.ev = s.ev := by
  unfold State.trimResume
  split
  · rw [State.trRun, if_pos rfl]
    split <;> rfl
  · rfl

theorem State.trimAbort_frame (c : Nat) : s.trimAbort c = { s with
    trim := (s.trimAbort c).trim, fw := (s.trimAbort c).fw, ev := (s.trimAbort c).ev, dom := (s.trimAbort c).dom } := by
  apply State.ext_parts <;> simp

theorem State.trimResume_frame : s.trimResume = { s with
    trim := s.trimResume.trim, fw := s.trimResume.fw, ev := s.trimResume.ev, dom := s.trimResume.dom } := by
  apply State.ext_parts <;> simp

theorem State.trimZc_frame : s.trimZc z = { s with
    trim := (s.trimZc z).trim, fw := (s.trimZc z).fw, ev := (s.trimZc z).ev, dom := (s.trimZc z).dom } := by
  rcases s.trimZc_cases (z := z) with ⟨c, h⟩ | ⟨_, _, h⟩
  · rw [h]
    exact State.trimAbort_frame c
  · rw [h]
    rfl

/-! ## A ZC frame in the core die -/

/-- The frame before the measurement takes it. -/
def State.zcNoted (f : ZcFrame) (s : State) : State :=
  (s.onLink (Link.takeZc f)).when (f.range && !s.link.rangeSeen) (State.raise 6)

def State.takeZc (f : ZcFrame) (s : State) : State :=
  ((s.zcNoted f).trimZc f).when (f.lock && !f.range) State.trimResume

theorem State.zcNoted_frame : s.zcNoted z = { s with
    link := s.link.takeZc z, ev := (s.zcNoted z).ev, dom := (s.zcNoted z).dom } := by
  unfold State.zcNoted
  rw [State.when_raise_frame]
  rfl

theorem State.zcNoted_trim : (s.zcNoted z).trim = s.trim := by rw [State.zcNoted_frame]
theorem State.zcNoted_fw : (s.zcNoted z).fw = s.fw := by rw [State.zcNoted_frame]

theorem State.takeZc_frame : s.takeZc z = { s with
    link := s.link.takeZc z, trim := (s.takeZc z).trim, fw := (s.takeZc z).fw, ev := (s.takeZc z).ev
    dom := (s.takeZc z).dom } := by
  unfold State.takeZc State.when
  split
  · rw [State.trimResume_frame, State.trimZc_frame, State.zcNoted_frame]
  · rw [State.trimZc_frame, State.zcNoted_frame]

theorem State.takeZc_figures : (s.takeZc z).trim.figures = s.trim.figures := by
  have taken : ((s.zcNoted z).trimZc z).trim.figures = s.trim.figures :=
    State.trimZc_figures.trans (congrArg Trim.figures State.zcNoted_trim)
  unfold State.takeZc State.when
  split
  · exact State.trimResume_figures.trans taken
  · exact taken

/-- Without LOCK, or out of range, no measurement starts again. -/
theorem State.takeZc_stops (h : z.lock = false ∨ z.range = true) : s.takeZc z = (s.zcNoted z).trimZc z := by
  rcases h with h | h <;> simp [State.takeZc, h]

theorem State.takeZc_range (hr : z.range = true) (hs : s.link.rangeSeen = false) :
    (s.takeZc z).ev.raised.getLsbD 6 = true := by
  rw [State.takeZc_stops (.inr hr), State.trimZc_raised (by omega), State.zcNoted, State.when_raise_bit _ _ (by omega)]
  simp [hr, hs]

/-- Nor where none is to start again. -/
theorem State.takeZc_held (h : ((s.zcNoted z).trimZc z).fw.trimRestart = false ∨
    ((s.zcNoted z).trimZc z).fw.trimRestarts = false) : s.takeZc z = (s.zcNoted z).trimZc z := by
  rw [State.takeZc]
  unfold State.when
  rw [State.trimResume_idle h, ite_self]

/-! ## LINE_LOSS (R61, R86, R137, R147, R385) -/

/-- A loss that is received for the first time, before its event and what aborts with it. -/
def State.lossNoted (stamp : Word) (s : State) : State :=
  ((s.onLink fun l => { l with
    lossKey := some stamp, lineOk := false, linePresent := false, lossCount := satInc l.lossCount, llsLast := stamp, pkHist := []
    halfPk := none, halfSign := none }).recordLoss stamp).onFw fun f => { f with pfLoss := f.pfLoss || f.pfArmed }

def State.newLoss (stamp : Word) (s : State) : State := ((s.lossNoted stamp).raise 0).trimAbort 3

def State.lineReturned (s : State) : State :=
  ((s.onLink fun l => { l with linePresent := true, lineOk := true }).onFw fun f =>
    { f with pfArmed := true, pfLoss := false }).raise 1

/-! ## Fault and status codes (R50, R66) -/

theorem ldFaultBit_rows : ∀ r ∈ Claims.faultRows, ldFaultBit r.1 = some r.2.1 ∧ isStopCode r.1 = r.2.2 ∧
    (r.1 == 0x0B) = false ∧ r.1 ≠ 0x01 ∧ r.1 ≠ 0x02 := by decide

theorem ldFaultBit_none {code : Byte} (h : ∀ r ∈ Claims.faultRows, r.1 ≠ code) : ldFaultBit code = none := by
  simp only [Claims.faultRows, List.forall_mem_cons] at h
  obtain ⟨h0, h1, h2, h3, h4, h5, h6, h7, -⟩ := h
  unfold ldFaultBit
  split
  case h_9 => rfl
  all_goals bv_omega

/-- The registers after a fault or status code. -/
def Link.takeFault (code : Byte) (l : Link) : Link :=
  { l with
    ldFault := match ldFaultBit code with | some k => l.ldFault ||| (1#8 <<< k) | none => l.ldFault
    ldVldOv := l.ldVldOv || code == 0x0B, goodbye := l.goodbye || code == 0x07 }

theorem Link.takeFault_bit {code : Byte} {k : Nat} (h : ldFaultBit code = some k) (hb : (code == 0x0B) = false) :
    l.takeFault code = { l with ldFault := l.ldFault ||| (1#8 <<< k), goodbye := l.goodbye || code == 0x07 } := by
  simp only [Link.takeFault, h, hb, Bool.or_false]

theorem Link.takeFault_vld : l.takeFault 0x0B = { l with ldVldOv := true } := by
  simp [Link.takeFault, ldFaultBit]

theorem Link.takeFault_none {code : Byte} (h : ldFaultBit code = none) (hb : code ≠ 0x0B) (hg : code ≠ 0x07) :
    l.takeFault code = l := by
  simp only [Link.takeFault, h, beq_eq_false_iff_ne.2 hb, beq_eq_false_iff_ne.2 hg, Bool.or_false]

end Rules

end Sys2Proof.Machine

namespace Sys2Proof.Proofs

open Sys2Proof Sys2Proof.Machine

/-! ## Arrival -/

theorem exec_ldFaultReceived {evt : EvtFrame} (s : State) (h : ¬ (evt.code = 0x01 ∨ evt.code = 0x02)) :
    ∃ f, exec (.ldFaultReceived evt) s = .next (s.upFrame (.evt evt) f) := ⟨_, if_neg h⟩

/-- Each row receives its frame. -/
theorem exec_uplinkRows (s : State) (tlm : TlmFrame) (zc : ZcFrame) (evt : EvtFrame) (tag cause : BitVec 3) (stamp : Word)
    (edge : Nat) : ∀ r ∈ Claims.uplinkRows tlm zc evt tag cause stamp edge, ∃ f, exec r.1 s = .next (s.upFrame r.2 f) := by
  simp only [Claims.uplinkRows, List.forall_mem_append, List.forall_mem_cons]
  refine ⟨⟨⟨_, rfl⟩, ⟨_, rfl⟩, ⟨_, rfl⟩, ⟨_, rfl⟩, ⟨_, rfl⟩, ⟨_, rfl⟩, ⟨_, rfl⟩, List.forall_mem_nil _⟩, ?_⟩
  split
  · exact List.forall_mem_nil _
  · rename_i h
    simpa using exec_ldFaultReceived s h

theorem uplinkFramesArriveInTheirTurn : Claims.UplinkFramesArriveInTheirTurn := by
  unfold Claims.UplinkFramesArriveInTheirTurn
  intro s tlm zc evt tag cause stamp edge r hr taken
  obtain ⟨f, e⟩ := exec_uplinkRows s tlm zc evt tag cause stamp edge r hr
  rw [e]
  exact ⟨next_upFrame_other, next_upFrame_off, next_upFrame_deaf⟩

/-! ## TLM -/

theorem telemetryUpdatesTheRegisters : Claims.TelemetryUpdatesTheRegisters := by
  unfold Claims.TelemetryUpdatesTheRegisters
  intro s f hp hx hf hst gap
  let u := s.onLine fun l => LineDie.send { l with upFlight := none }
  have arrives : exec (.tlmReceived f) s = .next (u.takeTlm f) := congrArg _ (s.upFrame_taken _ _ hp hx hst hf)
  have link := u.takeTlm_link f
  have bit (n : Nat) (hn : n ≠ 15) : (u.takeTlm f).ev.raised.getLsbD n = _ :=
    (State.takeTlm_bit f hn).trans (State.tlmNoted_bit f n)
  have missing : u.link.tlmGap f = gap := rfl
  refine ⟨_, arrives, ?_, ?_, ?_, ?_, ?_, ?_, ?_, ?_, fun e he hm => ?_, fun hup => ?_, ?_, ?_, ?_, ?_, ?_⟩
  · rw [State.takeTlm_frame]
    rfl
  · rw [link]
    rfl
  · rw [link]
    rfl
  · rw [link]
    rfl
  · rw [link]
    rfl
  · rw [link]
    exact satAdd_half _ _
  · rw [bit 4 (by omega), missing]
    simp [u, Bool.and_comm]
  · rw [bit 6 (by omega)]
    simp [u]
  · simp only [List.mem_cons, List.not_mem_nil, or_false, not_or] at hm
    rw [bit e hm.2.2]
    simp [u, hm]
  · rw [State.takeTlm_up (s := u) f hup, State.tlmNoted_link, Link.takeTlm_state, Link.takeTlm_lineOk, State.tlmNoted_line]
    exact ⟨hup, rfl, rfl⟩
  · rw [link, Link.takeTlm, Link.trackPeak_frame]
    rfl
  · rw [link, Link.takeTlm, Link.trackPeak_frame]
    rfl
  · rw [link, Link.takeTlm, Link.trackPeak_frame]
    rfl
  · rw [link, Link.takeTlm, Link.trackPeak_frame]
    rfl
  · rw [link, Link.takeTlm, Link.trackPeak_frame]
    rfl

theorem linePeakIsTracked : Claims.LinePeakIsTracked := by
  unfold Claims.LinePeakIsTracked
  intro l v m
  have opposite (h : l.halfSign = some (!v.msb)) : l.halfSign ≠ some v.msb := by
    rw [h]
    cases v.msb <;> simp
  refine ⟨fun h => if_pos h, fun hs hp hh => (if_neg (by simp [hs])).trans ?_,
    fun hs hp hh => (if_neg (opposite hs)).trans ?_, fun p hs hp => (if_neg (opposite hs)).trans ?_⟩
  · simp [hs, hp, hh]
  · simp [hs, hp, hh, m]
  · simp [hs, hp, m]

theorem zeroCrossingFramesAreTaken : Claims.ZeroCrossingFramesAreTaken := by
  unfold Claims.ZeroCrossingFramesAreTaken
  intro s f hp hx hf hst
  let u := s.onLine fun l => LineDie.send { l with upFlight := none }
  let m := u.zcNoted f
  have mtrim : m.trim = s.trim := State.zcNoted_trim
  have arrives : exec (.zcReceived f) s = .next (u.takeZc f) := congrArg _ (s.upFrame_taken _ _ hp hx hst hf)
  have link : (u.takeZc f).link = s.link.takeZc f := congrArg State.link u.takeZc_frame
  have aborts {c : Nat} (ha : s.trim.active = true) (h : u.takeZc f = m.trimAbort c) :
      (u.takeZc f).trim.run = false ∧ (u.takeZc f).trim.active = false ∧ (u.takeZc f).trim.cause = BitVec.ofNat 3 c ∧
        (u.takeZc f).ev.raised.getLsbD 26 = true := by
    obtain ⟨trim, ev⟩ := State.trimAbort_active (s := m) c (mtrim ▸ ha)
    rw [h, trim]
    exact ⟨rfl, rfl, rfl, ev⟩
  refine ⟨_, arrives, ?_, ?_, ?_, fun hpos => ?_, fun hneg => ?_, fun hr hs => State.takeZc_range hr hs, fun ha => ⟨fun hl => ?_,
    fun hl hr => ?_, fun hl hr hpos q hq hs hi => ?_, fun hl hr hpos q hq hs hi => ?_⟩, ?_⟩
  · rw [State.takeZc_frame]
    rfl
  · rw [State.takeZc_frame]
    rfl
  · rw [link, Link.takeZc_rangeSeen]
  · obtain ⟨p, hlt, taken, next⟩ := Link.takeZc_positive (l := s.link) hpos
    have seq := f.seq.isLt
    have period : (BitVec.ofNat 32 (f.seq.toNat * 2 ^ 24 + p)).toNat = f.seq.toNat * 2 ^ 24 + p := by
      rw [BitVec.toNat_ofNat]
      omega
    rw [link, taken]
    refine ⟨rfl, rfl, ?_, fun hp hs hlt' => ?_⟩
    · simp only [period]
      omega
    · have := next hp hs
      simp only [period]
      omega
  · rw [link, Link.takeZc_negative hneg]
    exact ⟨rfl, rfl, rfl⟩
  · exact aborts ha ((State.takeZc_stops (.inl hl)).trans (State.trimZc_unlocked (mtrim ▸ ha) hl))
  · exact aborts ha ((State.takeZc_stops (.inr hr)).trans (State.trimZc_outOfRange (mtrim ▸ ha) hl hr))
  · have next : m.trimZc f = _ := State.trimZc_next (mtrim ▸ ha) hl hr hpos (mtrim ▸ hq) hs
    have held : u.takeZc f = m.trimZc f := State.takeZc_held (.inl (by
      rw [next]
      exact (congrArg Firmware.trimRestart State.zcNoted_fw).trans hi))
    have trim : (u.takeZc f).trim = { s.trim with
        lastSeq := some f.seq
        prog := if !s.trim.src && s.trim.openRaw.isSome && s.trim.prog.toNat < 2 ^ s.trim.kEff then s.trim.prog + 1
          else s.trim.prog } := by
      rw [held, next, State.onTrim_trim, mtrim]
    rw [trim]
    refine ⟨rfl, rfl, fun h => if_neg ?_, fun hsrc ho hlt => if_pos (by simp [hsrc, ho, hlt])⟩
    rcases h with h | h <;> simp [h]
  · have skipped : m.trimZc f = m.trimAbort 2 := State.trimZc_skipped (mtrim ▸ ha) hl hr hpos (mtrim ▸ hq) hs
    have held : u.takeZc f = m.trimZc f := State.takeZc_held (.inr (by
      rw [show (u.zcNoted f).trimZc f = m.trimAbort 2 from skipped]
      exact (congrArg Firmware.trimRestarts (Ended.trimAbort m 2).fw).trans
        ((congrArg Firmware.trimRestarts State.zcNoted_fw).trans hi)))
    obtain ⟨run, _, cause, ev⟩ := aborts ha (held.trans skipped)
    exact ⟨run, cause, ev⟩
  · have figures := State.takeZc_figures (s := u) (z := f)
    simp only [Trim.figures, Prod.mk.injEq] at figures
    exact figures

theorem lineLossAndReturnAreReceived : Claims.LineLossAndReturnAreReceived := by
  unfold Claims.LineLossAndReturnAreReceived
  intro s stamp hp hx hst taken
  let u := s.onLine fun l => LineDie.send { l with upFlight := none }
  refine ⟨fun hf => ?_, fun hf => ?_⟩
  · have arrives : exec (.lineLossReceived stamp) s = .next (if s.link.lossKey = some stamp then u else u.newLoss stamp) :=
      congrArg _ (s.upFrame_taken _ _ hp hx hst hf)
    refine ⟨fun h => arrives.trans (congrArg _ (if_pos h)), fun h => ⟨u.newLoss stamp, arrives.trans (congrArg _ (if_neg h)), ?_⟩⟩
    let m := (u.lossNoted stamp).raise 0
    have link : (u.newLoss stamp).link = (u.lossNoted stamp).link := by simp [State.newLoss]
    have fw : (u.newLoss stamp).fw = { (u.lossNoted stamp).fw with
        recQ := (u.newLoss stamp).fw.recQ, trimRestart := (u.newLoss stamp).fw.trimRestart } := by
      rw [State.newLoss, (Ended.trimAbort m 3).fw]
      simp [m]
    have trim : m.trim = s.trim := State.raise_trim ..
    refine ⟨?_, ?_, ?_, ?_, ?_, ?_, ?_, ?_, ?_, ?_, ?_, ?_, fun ha => ?_, fun ha => ?_⟩
    · rw [State.newLoss, State.trimAbort_frame, State.raise_frame]
      rfl
    · simp [State.newLoss, State.lossNoted, State.recordLoss, u, taken]
    · rw [State.newLoss, State.trimAbort_raised 3 (by omega)]
      exact State.raise_latched _ 0 (by omega)
    · rw [link]
      rfl
    · rw [link]
      rfl
    · rw [link]
      exact satInc_half _
    · rw [link]
      rfl
    · rw [link]
      rfl
    · rw [link]
      rfl
    · simp [State.newLoss, State.lossNoted, State.recordLoss, u]
    · rw [fw]
      rfl
    · rw [fw]
      rfl
    · obtain ⟨aborted, ev⟩ := State.trimAbort_active (s := m) 3 (trim ▸ ha)
      rw [State.newLoss, aborted]
      exact ⟨rfl, rfl, rfl, ev⟩
    · rw [State.newLoss, State.trimAbort_idle (s := m) 3 (trim ▸ ha), trim]
  · have arrives : exec (.lineReturnReceived stamp) s = .next u.lineReturned := congrArg _ (s.upFrame_taken _ _ hp hx hst hf)
    refine ⟨_, arrives, ?_, State.raise_line .., State.raise_link .., State.raise_fw .., State.raise_latched _ 1 (by omega)⟩
    rw [State.lineReturned, State.raise_frame]
    rfl

theorem faultCodesSetTheirBits : Claims.FaultCodesSetTheirBits := by
  unfold Claims.FaultCodesSetTheirBits
  intro s stamp code hp hx hf hst taken
  let u := s.onLine fun l => LineDie.send { l with upFlight := none }
  have arrives (h : ¬ (code = 0x01 ∨ code = 0x02)) : exec (.ldFaultReceived ⟨code, stamp⟩) s =
      .next (({ u with link := s.link.takeFault code } : State).when (isStopCode code) (State.raise 5)) :=
    (if_neg h).trans (congrArg _ (s.upFrame_taken _ _ hp hx hst hf))
  refine ⟨fun r hr hc => ?_, fun hc => ?_, fun hb h1 h2 hr => ?_, fun h => if_pos h⟩
  · obtain ⟨bit, stop, hb, h1, h2⟩ := ldFaultBit_rows r hr
    rw [hc] at bit stop hb h1 h2
    rw [arrives (not_or.2 ⟨h1, h2⟩), stop, Link.takeFault_bit bit hb]
    rfl
  · subst hc
    rw [arrives (by decide), Link.takeFault_vld]
    rfl
  · have unknown := ldFaultBit_none hr
    simp only [Claims.faultRows, List.forall_mem_cons] at hr
    obtain ⟨h3, h4, h5, h7, h6, h8, -, hA, -⟩ := hr
    have quiet : isStopCode code = false := by
      simpa [isStopCode] using ⟨h3.symm, h4.symm, h5.symm, h6.symm, h8.symm, hA.symm, hb⟩
    rw [arrives (not_or.2 ⟨h1, h2⟩), quiet, Link.takeFault_none unknown hb h7.symm]
    rfl

/-- Settles O18: a frame is taken in its turn; each kind is one change of the link and of what follows from it. -/
theorem uplinkFramesUpdateTheRegisters : Obligations.UplinkFramesUpdateTheRegisters :=
  ⟨uplinkFramesArriveInTheirTurn, telemetryUpdatesTheRegisters, linePeakIsTracked, zeroCrossingFramesAreTaken,
    lineLossAndReturnAreReceived, faultCodesSetTheirBits⟩

end Sys2Proof.Proofs
end

section
/-! PROOFS. What a host's writes of the trim control, the stamp clears, SYSON_ON, LOSS_FRAC, PLIM and CHG_EN do (R29, R86, R96,
R101, R134, R137, R144, R147 to R150, R198). -/

namespace Sys2Proof.Machine

variable (s : State) (p : Port) (v : Byte)

/-! ## Which writes are served -/

/-- A write through a port that works to a page that is ON is the write of its byte, unless a grant refuses it (R191, R198). -/
theorem State.portWrite_granted (a : Nat) (hp : s.portUp p = true) (ha : a < 0x0480) (hon : s.pageOn a = true)
    (hg : s.writeRefused p a = false) : s.portWrite p a [v] = s.writeByte p [] a v :=
  s.portWrite_served p a v hp (by rw [s.judge_write_below p a ha hon, hg]; rfl)

/-- With PWR not ON its pages answer ACC_OFF (R198, R199). -/
theorem State.portWrite_accOff (a : Nat) (hp : s.portUp p = true) (hlo : 0x0380 ≤ a) (hhi : a < 0x0400)
    (hon : s.isOn .pwr = false) : s.portWrite p a [v] = s.accOff p a := by
  have hoff : s.pageOn a = false := by
    rw [State.pageOn, if_neg (by omega), if_neg (by omega), if_pos hhi, hon]
  have off : s.judge p a true = .off := by simp [State.judge, owner_below a (by omega), hoff]
  rw [s.portWrite_one p a v hp, State.xferWrite, off]
  rfl

/-- The pages of PWR are open while it is ON (R197). -/
theorem State.pageOn_pwr (a : Nat) (hlo : 0x0380 ≤ a) (hhi : a < 0x0400) : s.pageOn a = s.isOn .pwr := by
  rw [State.pageOn, if_neg (by omega), if_neg (by omega), if_pos hhi]

/-! ## TR_RUN (R134, R137) -/

/-- TR_RUN is bit 0 of what the host writes; the other bits of the register stand as they were. -/
theorem State.portWrite_trimCtrl (run : Bool) (hp : s.portUp p = true) (hg : s.bin.rtcGrant.getLsbD (portCode p) = true) :
    s.portWrite p 0x0132 [s.trim.ctrl run] = s.trRun run := by
  rw [s.portWrite_served p _ _ hp (s.judge_rtc p _ hg (by decide)), s.writeByte_bin p [] _ _ (by decide) (by decide) (by decide)]
  have bits : ∀ a b c d e : Bool, let x := byteOf [a, b, c, d, e]
      x.getLsbD 0 = a ∧ x.getLsbD 1 = b ∧ x.getLsbD 2 = c ∧ x.getLsbD 3 = d ∧ x.getLsbD 4 = e := by decide
  obtain ⟨run', src, fnom, auto, cont⟩ := bits run s.trim.src s.trim.fnom s.trim.auto s.trim.cont
  change (s.onTrim fun t => { t with
    src := (s.trim.ctrl run).getLsbD 1, fnom := (s.trim.ctrl run).getLsbD 2, auto := (s.trim.ctrl run).getLsbD 3
    cont := (s.trim.ctrl run).getLsbD 4 }).trRun ((s.trim.ctrl run).getLsbD 0) = _
  rw [show s.trim.ctrl run = byteOf [run, s.trim.src, s.trim.fnom, s.trim.auto, s.trim.cont] from rfl, run', src, fnom, auto,
    cont]
  rfl

theorem State.trRun_start_idle (h : s.trim.active = false) : s.trRun true = { s with trim :=
    { s.trim with run := true, active := true, openRaw := none, prog := 0, lastSeq := none, lastPps := none } } := by
  rw [State.trRun, if_pos rfl, if_neg (by simp [h])]
  rfl

theorem State.trRun_start_active (h : s.trim.active = true) : s.trRun true = { s with trim := { s.trim with run := true } } := by
  rw [State.trRun, if_pos rfl, if_pos h]
  rfl

theorem State.trRun_abort_active (h : s.trim.active = true) : s.trRun false = ({ s with trim :=
    { s.trim with run := false, active := false, openRaw := none, cause := 6 } } : State).raise 26 := by
  rw [State.trRun, if_neg (by simp), State.trimAbort, if_pos h]
  rfl

/-! ## The clears of the stamps, and SYSON_ON (R8, R144, R147 to R150) -/

/-- A write of the stamp bits clears each stamp that hardware has not written in this cycle. -/
theorem State.portWrite_stamps (hp : s.portUp p = true) (hg : s.bin.rtcGrant.getLsbD (portCode p) = true) :
    s.portWrite p 0x0148 [v] = { s with bin := s.bin.clearFso v (s.bin.setMask 0x0148) s.cal.stamp } := by
  rw [s.portWrite_served p _ _ hp (s.judge_rtc p _ hg (by decide)), s.writeByte_bin p [] _ _ (by decide) (by decide) (by decide)]
  rfl

theorem BinIo.clearFso_bak (b : BinIo) (now : Byte) (st : BitVec 64) : b.clearFso 0x01 now st =
    if now.getLsbD 0 then { b with fsoBak := st } else { b with fsoBakValid := false, fsoBak := 0 } := rfl

theorem BinIo.clearFso_bat (b : BinIo) (now : Byte) (st : BitVec 64) : b.clearFso 0x02 now st =
    if now.getLsbD 1 then { b with fsoBat := st } else { b with fsoBatValid := false, fsoBat := 0 } := rfl

theorem BinIo.clearFso_ll (b : BinIo) (now : Byte) (st : BitVec 64) : b.clearFso 0x04 now st =
    if now.getLsbD 2 then b else { b with llValid := false, llStamp := 0, llLclk := 0 } := by
  change (if !now.getLsbD 2 then { b with llValid := false, llStamp := 0, llLclk := 0 } else b) = _
  cases now.getLsbD 2 <;> rfl

/-- A write of 1 to STAMPED of an event input; this register needs no grant (R155). -/
theorem State.portWrite_stamped (i : Fin 4) (hp : s.portUp p = true) :
    s.portWrite p (0x0181 + 0x10 * i.val) [0x01] = { s with bin := { s.bin with
      evts := s.bin.evts.set i (s.bin.evts[i].clear 0x01 (s.bin.setMask (0x0181 + 0x10 * i.val)) s.cal.stamp) } } := by
  have ungated : s.writeRefused p (0x0181 + 0x10 * i.val) = false := by
    fin_cases i <;> rfl
  rw [s.portWrite_granted p _ _ hp (by omega) (s.pageOn_low _ (by omega)) ungated]
  fin_cases i <;> rfl

theorem State.portWrite_syson (hp : s.portUp p = true) (hg : s.bin.sysonGrant.getLsbD (portCode p) = true) (on : Bool) :
    s.portWrite p 0x0142 [byteOf [on]] = { s with bin :=
      { s.bin with sysonOn := on && !(s.bin.setMask 0x0142).getLsbD 1 } } := by
  have refused : s.writeRefused p 0x0142 = false := by simp [State.writeRefused, granted, hg]
  rw [s.portWrite_granted p _ _ hp (by decide) (s.pageOn_low _ (by decide)) refused,
    s.writeByte_bin p [] _ _ (by decide) (by decide) (by decide)]
  have bits : ∀ on : Bool, (byteOf [on]).getLsbD 0 = on ∧ (byteOf [on]).getLsbD 1 = false := by decide
  have forced : (s.bin.unset 0x0142 (byteOf [on])).getLsbD 1 = false := by 
    rw [BinIo.unset, BitVec.getLsbD_and, (bits on).2, Bool.false_and]
  change { s with bin := { s.bin with
    sysonOn := (byteOf [on]).getLsbD 0 && !(s.bin.setMask 0x0142).getLsbD 1
    sysonForcedOff := s.bin.sysonForcedOff && !(s.bin.unset 0x0142 (byteOf [on])).getLsbD 1 } } = _
  rw [forced, (bits on).1, Bool.not_false, Bool.and_true]

/-! ## LOSS_FRAC and PLIM (R86) -/

/-- A write of LOSS_FRAC or PLIM while PWR is ON stores the byte, and sends it while downlink frames run. -/
theorem State.portWrite_cfg (hp : s.portUp p = true) (hon : s.isOn .pwr = true) (r : CfgReg) :
    s.portWrite p (match r with | .lossFrac => 0x03C9 | .plim => 0x03CA) [v] = s.cfgStore r v := by
  cases r
  · rw [s.portWrite_granted p v 0x03C9 hp (by decide) ((s.pageOn_pwr _ (by decide) (by decide)).trans hon) rfl]
    rfl
  · rw [s.portWrite_granted p v 0x03CA hp (by decide) ((s.pageOn_pwr _ (by decide) (by decide)).trans hon) rfl]
    rfl

/-- While downlink frames run the limited value is queued; otherwise nothing is. -/
theorem Link.sendCfg_stopped (l : Link) (r : CfgReg) (h : l.downlinkRuns = false) : l.sendCfg r = l := if_neg (by simp [h])

/-- The link with a byte written to LOSS_FRAC or PLIM. -/
def Link.limit (r : CfgReg) (v : Byte) (l : Link) : Link :=
  { l with lossFrac := if r = .lossFrac then v else l.lossFrac, plim := if r = .plim then v else l.plim }

theorem State.cfgStore_limit (r : CfgReg) : s.cfgStore r v = { s with link := (s.link.limit r v).sendCfg r } := by
  cases r <;> rfl

/-- The limited value is queued while downlink frames run, and nothing is queued otherwise (R72, R86). -/
theorem exec_cfgWrite (hp : s.portUp p = true) (hon : s.isOn .pwr = true) (r : CfgReg) :
    (s.link.state = .training ∨ s.link.state = .up → exec (.cfgWrite p r v) s = .next { s with
      link := Link.send { s.link.limit r v with cfgQ := s.link.cfgQ ++ [(r.index, (s.link.limit r v).cfgValue r)] } }) ∧
    (s.link.state = .down ∨ s.link.state = .fault →
      exec (.cfgWrite p r v) s = .next { s with link := s.link.limit r v }) := by
  have write : exec (.cfgWrite p r v) s = .next { s with link := (s.link.limit r v).sendCfg r } :=
    congrArg _ ((s.portWrite_cfg p v hp hon r).trans (s.cfgStore_limit v r))
  have runs : (s.link.limit r v).downlinkRuns = s.link.downlinkRuns := rfl
  refine ⟨fun h => ?_, fun h => ?_⟩
  · rw [write, Link.sendCfg_runs r (by rw [runs, Link.downlinkRuns]; rcases h with h | h <;> rw [h] <;> rfl)]
    rfl
  · rw [write, Link.sendCfg_stopped _ r (by rw [runs, Link.downlinkRuns]; rcases h with h | h <;> rw [h] <;> rfl)]

/-! ## CHG_EN and SR_EN (R29, R96, R101, R115) -/

/-- A write of 0x0382 by a port of the charger's grant while PWR is ON. -/
theorem State.portWrite_chgEn (hp : s.portUp p = true) (hon : s.isOn .pwr = true)
    (hg : s.bin.chgGrant.getLsbD (portCode p) = true) : s.portWrite p 0x0382 [v] = s.chgEnable v := by
  have ungated : s.writeRefused p 0x0382 = false := by simp [State.writeRefused, granted, hg]
  rw [s.portWrite_granted p v _ hp (by decide) ((s.pageOn_pwr _ (by decide) (by decide)).trans hon) ungated]
  rfl

/-- The charger leaves OFF, or goes on, while R96 lets it run. -/
theorem State.chargerGate_runs (h : s.chargerMayRun = true) : s.chargerGate = if s.power.chg = .off then
    { s with power := { s.power with chg := .wait, chswZ := s.dom.padHeld.getLsbD 0, preMs := 0, fastMs := 0 } } else s :=
  if_pos h

/-- It goes to OFF, or stays there, when R96 stops it. -/
theorem State.chargerGate_stops (h : s.chargerMayRun = false) : s.chargerGate = if s.power.chg = .off then s else
    { s with power := { s.power with
      chg := .off, chswZ := true, preMs := 0, fastMs := 0, lowMs := 0, ichgMeas := 0 } } :=
  if_neg (by simp [h])

end Sys2Proof.Machine

namespace Sys2Proof.Proofs

open Sys2Proof Sys2Proof.Machine

theorem trimRunsAndStampClears : Claims.TrimRunsAndStampClears := by
  unfold Claims.TrimRunsAndStampClears
  intro s p hp set
  refine ⟨fun hg => ⟨fun h => ⟨?_, ?_⟩, fun h => ⟨?_, ?_⟩, ?_, ?_, ?_⟩, fun i => ?_, fun hg on => ?_⟩
  · exact congrArg _ ((s.portWrite_trimCtrl p true hp hg).trans (s.trRun_start_idle h))
  · exact congrArg _ ((s.portWrite_trimCtrl p false hp hg).trans (State.trimAbort_idle 6 h))
  · exact congrArg _ ((s.portWrite_trimCtrl p true hp hg).trans (s.trRun_start_active h))
  · exact congrArg _ ((s.portWrite_trimCtrl p false hp hg).trans (s.trRun_abort_active h))
  · change (.next _ : Out) = _
    rw [s.portWrite_stamps p _ hp hg, BinIo.clearFso_ll, apply_ite (fun b => ({ s with bin := b } : State))]
  · change (.next _ : Out) = _
    rw [s.portWrite_stamps p _ hp hg, BinIo.clearFso_bak]
  · change (.next _ : Out) = _
    rw [s.portWrite_stamps p _ hp hg, BinIo.clearFso_bat]
  · exact congrArg _ (s.portWrite_stamped p i hp)
  · exact congrArg _ (s.portWrite_syson p hp hg on)

theorem lineLimitsAndChargerEnable : Claims.LineLimitsAndChargerEnable := by
  unfold Claims.LineLimitsAndChargerEnable
  intro s p v hp
  refine ⟨fun hon => ⟨?_, fun hg => ?_⟩, fun hoff => ?_⟩
  · simp only [List.forall_mem_cons]
    exact ⟨exec_cfgWrite s p v hp hon .lossFrac, exec_cfgWrite s p v hp hon .plim, List.forall_mem_nil _⟩
  · intro q
    have write : exec (.chgEnWrite p v) s = .next (State.chargerGate { s with power := q }) :=
      congrArg _ (s.portWrite_chgEn p v hp hon hg)
    have may : State.chargerMayRun { s with power := q } = (v.getLsbD 0 && s.power.cells != 0) := by
      change (s.isOn .pwr && v.getLsbD 0 && s.power.cells != 0) = _
      rw [hon, Bool.true_and]
    have stops (h : v.getLsbD 0 = false ∨ s.power.cells = 0) : State.chargerMayRun { s with power := q } = false := by
      rw [may]
      rcases h with h | h
      · rw [h, Bool.false_and]
      · rw [h]
        exact Bool.and_false _
    have goes (h : v.getLsbD 0 = true) (hc : s.power.cells ≠ 0) : State.chargerMayRun { s with power := q } = true := by
      rw [may, h, Bool.true_and]
      exact bne_iff_ne.2 hc
    rw [write]
    refine ⟨fun h hc ho => ?_, fun h hc ho => ?_, fun h ho => ?_, fun h ho => ?_⟩
    · rw [State.chargerGate_runs _ (goes h hc), if_pos (show q.chg = .off from ho)]
    · rw [State.chargerGate_runs _ (goes h hc), if_neg (show q.chg ≠ .off from ho)]
    · rw [State.chargerGate_stops _ (stops h), if_neg (show q.chg ≠ .off from ho)]
    · rw [State.chargerGate_stops _ (stops h), if_pos (show q.chg = .off from ho)]
  · simp only [List.forall_mem_cons]
    exact ⟨congrArg _ (s.portWrite_accOff p v _ hp (by decide) (by decide) hoff),
      congrArg _ (s.portWrite_accOff p v _ hp (by decide) (by decide) hoff),
      congrArg _ (s.portWrite_accOff p v _ hp (by decide) (by decide) hoff), List.forall_mem_nil _⟩

/-- Settles O24: each row is the write of one byte, served by its grant. -/
theorem trimStampAndLineWritesFromTheHost : Obligations.TrimStampAndLineWritesFromTheHost := by
  unfold Obligations.TrimStampAndLineWritesFromTheHost
  exact ⟨trimRunsAndStampClears, lineLimitsAndChargerEnable⟩

end Sys2Proof.Proofs
end

section
/-! PROOFS. How a mailbox command is served (R273, R426 to R428), and CONV_CTL, TIME_SET, TIME_SHIFT and TRIM_POLICY (R52, R53,
R126, R127, R130, R131, R443 to R446). -/

namespace Sys2Proof.Machine

/-! ## A request in hand is served -/

section Served
variable {s : State} {b : Fin 4} {cmd : Half} {rq : Request}

theorem State.InHand.serve (h : s.InHand b cmd rq) (f : Request → State → State) : s.serve b cmd f = .next (f rq s) := by
  obtain ⟨cur, cpu, started, code, fresh⟩ := h
  simp [State.serve, cur, cpu, started, code, fresh]

/-- A command that is checked as R273 has it does what `Served` says, when its body past the checks of right, seal and length
does what is said of it. -/
theorem served_of_checked {c : Fin 4 → Instr} {denied sealed_ : Fin 4 → Request → State → Bool} {n : Nat}
    {P : Fin 4 → Request → State → Prop} {bad : Request → Option Nat} {body : Fin 4 → Request → State → State}
    (run : ∀ b s rq, s.InHand b cmd rq → exec (c b) s = .next
      (s.checked b (denied b rq s) (sealed_ b rq s) (rq.payload.length != n) (bad rq) (body b rq)))
    (past : ∀ b s rq, s.InHand b cmd rq → rq.payload.length = n →
      exec (c b) s = .next (s.checked b false false false (bad rq) (body b rq)) → P b rq s) :
    Claims.Served c cmd denied sealed_ n n P := by
  intro b s rq hand
  have run := run b s rq hand
  refine ⟨fun hd => ?_, fun hd hs => ?_, fun hd hs hl => ?_, fun hd hs lo hi => past b s rq hand (by omega) ?_⟩
  · rw [run, hd]
    rfl
  · rw [run, hd, hs]
    rfl
  · have long : (rq.payload.length != n) = true := bne_iff_ne.2 (by omega)
    rw [run, hd, hs, long]
    rfl
  · have fits : (rq.payload.length != n) = false := bne_eq_false_iff_eq.2 (by omega)
    rw [run, hd, hs, fits]

theorem State.checked_bad (k : Nat) (f : State → State) :
    s.checked b false false false (some k) f = s.answer b .badParam [BitVec.ofNat 8 k] := rfl

theorem State.checked_past (f : State → State) : s.checked b false false false none f = f s := rfl

theorem State.unless_holds {c : Bool} (st : Status) (f : State → State) (h : c = true) :
    s.unless b [(c, st)] f = s.answer b st [] := by simp [State.unless, h]

theorem State.unless_past {c : Bool} (st : Status) (f : State → State) (h : c = false) : s.unless b [(c, st)] f = f s := by
  simp [State.unless, h]

/-- A request that waits is the one that was in hand. -/
theorem State.waits_cur (h : (s.berth b).cur = some rq) : (s.waits b).berths.blk[b].cur = some { rq with waiting := true } := by
  change ((s.waits b).berth b).cur = _
  rw [State.waits, State.onBerth_same, Berth.wait, h]
  rfl

/-- Once answered, no request is in hand. -/
theorem State.answer_cur (st : Status) (r : List Byte) : ((s.answer b st r).berth b).cur = none := by
  rw [State.answer]
  split
  · assumption
  · have taken (f : List Byte) : ((s.onBerth b (Berth.accept ‹Request› st f)).berth b).cur = none := by
      rw [State.onBerth_same]
      rfl
    dsimp only
    split
    · exact taken _
    · rw [State.postFrame, State.berth, State.raise_berths, ← State.berth, State.onBerth_same]
      exact taken _

theorem leAt_one (bs : List Byte) (off : Nat) : leAt bs off 1 = (bs.getD off 0).toNat := by
  simp [leAt, slice, leNat]

end Served

/-! ## CONV_CTL (R443) -/

section Converter
variable {s : State} {b : Fin 4} {rq : Request}

/-- The row of an action leaves a request for the other one alone. -/
theorem State.InHand.convCtl_other (h : s.InHand b 0x0302 rq) (a : Nat) (f : Link → Link)
    (other : rq.payload.length = 1 ∧ leAt rq.payload 0 1 < 2 ∧ leAt rq.payload 0 1 ≠ a) : s.convCtl b a f = .next s := by
  rw [State.convCtl, h.serve, if_pos other]

/-- Otherwise it is checked. -/
theorem State.InHand.convCtl_own (h : s.InHand b 0x0302 rq) (a : Nat) (f : Link → Link)
    (own : ¬(rq.payload.length = 1 ∧ leAt rq.payload 0 1 < 2 ∧ leAt rq.payload 0 1 ≠ a)) : s.convCtl b a f = .next
      (s.checked b (s.lacks b 13) false (rq.payload.length != 1) (if 1 < leAt rq.payload 0 1 then some 0 else none) fun s =>
        s.unless b [(!s.isOn .pwr || s.link.state != .up, .notReady)] fun s => (s.onLink f).ok b []) := by
  rw [State.convCtl, h.serve, if_neg own]

end Converter

/-! ## TIME_SET, TIME_SHIFT and TRIM_POLICY (R444 to R446) -/

section Time
variable {s : State} {b : Fin 4} {rq : Request}

/-- The commits that the two codes of CAL_CMD name. -/
theorem State.calCmd_commit (v : Byte) (h : v.toNat = 1 ∨ v.toNat = 2) :
    s.calCmd v = s.commitCmd (if v.toNat = 1 then .setr else .sett) := by
  rcases h with h | h
  · rw [State.calCmd, if_pos (BitVec.eq_of_toNat_eq h), if_pos h]
  · rw [State.calCmd, if_neg (by rintro rfl; simp at h), if_pos (BitVec.eq_of_toNat_eq h), if_neg (by omega)]

theorem State.commitCmd_taken (m : CommitMode) (h : s.cal.stagedOk = true) :
    s.commitCmd m = { s with cal := { s.cal with commit := some m } } := if_pos h

theorem State.commitCmd_rejected (m : CommitMode) (h : s.cal.stagedOk = false) :
    s.commitCmd m = (({ s with cal := { s.cal with calRej := true } } : State).binSet 0x011B 0x04).raise 16 :=
  if_neg (by simp [h])

/-- A request that waits changes nothing but its own berth. -/
theorem State.waits_eq (h : (s.berth b).cur = some rq) : s.waits b = { s with berths := { s.berths with
    blk := s.berths.blk.set b { s.berths.blk[b] with cur := some { rq with waiting := true } } } } := by
  have wait : (s.berth b).wait = { s.berth b with cur := some { rq with waiting := true } } := by
    rw [Berth.wait, h]
    rfl
  change { s with berths := { s.berths with blk := s.berths.blk.set b (s.berth b).wait } } = _
  rw [wait]
  rfl

/-- A write of TR_RUN changes the trim engine and may raise EV26. -/
theorem State.trRun_frame (v : Bool) : s.trRun v = { s with
    trim := (s.trRun v).trim, ev := (s.trRun v).ev, dom := (s.trRun v).dom } := by
  cases h : s.trim.active <;> cases v
  · rw [show s.trRun false = s from State.trimAbort_idle 6 h]
  · rw [s.trRun_start_idle h]
  · rw [s.trRun_abort_active h, State.raise_frame]
  · rw [s.trRun_start_active h]

/-- TR_RUN leaves a measurement running, its settings kept. -/
theorem State.trRun_start : (s.trRun true).trim = { (s.trRun true).trim with
    run := true, active := true, src := s.trim.src, fnom := s.trim.fnom, auto := s.trim.auto, cont := s.trim.cont
    k := s.trim.k, trim := s.trim.trim } := by
  cases h : s.trim.active
  · rw [s.trRun_start_idle h]
  · rw [s.trRun_start_active h, ← h]

/-- Cleared, it leaves none running. -/
theorem State.trRun_abort : (s.trRun false).trim = { (s.trRun false).trim with
    run := s.trim.run && !s.trim.active, active := false, trim := s.trim.trim } := by
  cases h : s.trim.active
  · have idle : s.trim = { s.trim with run := s.trim.run, active := false } := by rw [← h]
    rw [show s.trRun false = s from State.trimAbort_idle 6 h, Bool.not_false, Bool.and_true]
    exact idle
  · rw [s.trRun_abort_active h, State.raise_trim, Bool.not_true, Bool.and_false]

/-! What each command does once its checks are past. -/

/-- The staged registers as TIME_SET writes them. -/
def Cal.staging (p : List Byte) (c : Cal) : Cal :=
  { c with secS := p.getD 1 0, minS := p.getD 2 0, hourS := p.getD 3 0, dayS := p.getD 4 0, monthS := p.getD 5 0
           yearS := p.getD 6 0, centS := p.getD 7 0 }

/-- TIME_SET stages and commits, and waits for the load or answers at once. -/
def State.setTime (b : Fin 4) (p : List Byte) (s : State) : State :=
  if (s.cal.staging p).stagedOk then ((s.onCal (Cal.staging p)).calCmd (p.getD 0 0)).waits b
  else ((s.onCal (Cal.staging p)).calCmd (p.getD 0 0)).answer b .badParam [0xFF]

theorem State.setTime_taken {p : List Byte} (hm : (p.getD 0 0).toNat = 1 ∨ (p.getD 0 0).toNat = 2)
    (ok : (s.cal.staging p).stagedOk = true) : s.setTime b p = State.waits b { s with cal :=
      { s.cal.staging p with commit := some (if (p.getD 0 0).toNat = 1 then .setr else .sett) } } := by
  rw [State.setTime, if_pos ok, State.calCmd_commit _ hm, State.commitCmd_taken (s := s.onCal (Cal.staging p)) _ ok]
  rfl

theorem State.setTime_rejected {p : List Byte} (hm : (p.getD 0 0).toNat = 1 ∨ (p.getD 0 0).toNat = 2)
    (bad : (s.cal.staging p).stagedOk = false) : s.setTime b p = State.answer b .badParam [0xFF]
      ((({ s with cal := { s.cal.staging p with calRej := true } } : State).binSet 0x011B 0x04).raise 16) := by
  rw [State.setTime, if_neg (by simp [bad]), State.calCmd_commit _ hm,
    State.commitCmd_rejected (s := s.onCal (Cal.staging p)) _ bad]
  rfl

theorem State.InHand.timeSet (h : s.InHand b 0x0400 rq) : exec (.timeSet b) s = .next
    (s.checked b (Claims.without 8 b rq s) (Claims.never b rq s) (rq.payload.length != 8)
      (if leAt rq.payload 0 1 = 1 ∨ leAt rq.payload 0 1 = 2 then none else some 0) fun s =>
      s.unless b [(s.cal.busy, .busy)] fun s => s.setTime b rq.payload) := by
  change execTimeSet b s = _
  rw [execTimeSet, h.serve]
  rfl

/-- TRIM_POLICY is applied at once and its image queued. -/
def State.setTrim (b : Fin 4) (p : List Byte) (s : State) : State :=
  ((((s.onFw fun f => { f with trimPolicy := p, trimRestart := false }).applyTrim p).storeWrite b true none
    fun i => { i with trim := some ⟨b, p⟩ }).waits b)

theorem State.applyTrim_off {p : List Byte} (h : (p.getD 0 0).toNat = 0) : s.applyTrim p = s.trRun false := by
  rw [State.applyTrim, leAt_one, if_pos h]

/-- The trim engine with the settings of a policy. -/
def Trim.settings (p : List Byte) (t : Trim) : Trim :=
  { t with src := (p.getD 0 0).toNat == 2, fnom := (p.getD 1 0).getLsbD 0, auto := (p.getD 1 0).getLsbD 1
           cont := (p.getD 1 0).getLsbD 2, k := BitVec.ofNat 5 (min 22 (p.getD 2 0).toNat) }

/-- A policy with a source starts a measurement with its settings, PPS on EVT3 for source 2. -/
theorem State.applyTrim_on {p : List Byte} (h : 0 < (p.getD 0 0).toNat) :
    ∃ bin, s.applyTrim p = State.trRun true { s with trim := s.trim.settings p, bin } := by
  rw [State.applyTrim, leAt_one, leAt_one, if_neg (by omega)]
  dsimp only
  cases hs : (p.getD 0 0).toNat == 2
  · exact ⟨s.bin, by rw [Trim.settings, hs]; rfl⟩
  · exact ⟨_, by rw [Trim.settings, hs]; rfl⟩

theorem State.applyTrim_trim (p : List Byte) : (s.applyTrim p).trim.trim = s.trim.trim := by
  rcases Nat.eq_zero_or_pos (p.getD 0 0).toNat with h | h
  · rw [s.applyTrim_off h, State.trRun_abort]
  · obtain ⟨bin, on⟩ := s.applyTrim_on h
    rw [on, State.trRun_start]
    rfl

/-- A policy changes the trim engine, the event input and the events, and nothing else. -/
theorem State.applyTrim_frame (p : List Byte) : s.applyTrim p = { s with
    trim := (s.applyTrim p).trim, bin := (s.applyTrim p).bin, ev := (s.applyTrim p).ev, dom := (s.applyTrim p).dom } := by
  rcases Nat.eq_zero_or_pos (p.getD 0 0).toNat with h | h
  · rw [s.applyTrim_off h, s.trRun_frame]
  · obtain ⟨bin, on⟩ := s.applyTrim_on h
    rw [on, State.trRun_frame]

theorem State.InHand.trimPolicy (h : s.InHand b 0x0402 rq) : exec (.trimPolicy b) s = .next
    (s.checked b (Claims.without 8 b rq s) (Claims.never b rq s) (rq.payload.length != 3) (trimBad rq.payload) fun s =>
      s.unless b [(s.flashHeld b, .resourceHeld)] fun s => s.setTrim b rq.payload) := by
  change execTrimPolicy b s = _
  rw [execTrimPolicy, h.serve]
  rfl

end Time

end Sys2Proof.Machine

namespace Sys2Proof.Proofs

open Sys2Proof Sys2Proof.Machine

theorem theConverterIsStoppedAndRestarted : Claims.TheConverterIsStoppedAndRestarted := by
  unfold Claims.TheConverterIsStoppedAndRestarted
  intro b s rq hand held up
  have lacks : s.lacks b 13 = !held := rfl
  have notUp : (!s.isOn .pwr || s.link.state != .up) = !up := by
    rw [Bool.not_and]
    rfl
  have one (v : Byte) (h : rq.payload = [v]) : rq.payload.length = 1 ∧ leAt rq.payload 0 1 = v.toNat := by
    rw [h, leAt_one]
    exact ⟨rfl, rfl⟩
  -- a request of the row's own action, past the length and the action
  have own (a : Nat) (f : Link → Link) (ha : a < 2) (h : rq.payload = [BitVec.ofNat 8 a]) : s.convCtl b a f = .next
      (if held then if up then (s.onLink f).answer b .ok [] else s.answer b .notReady [] else s.answer b .denied []) := by
    obtain ⟨len, val⟩ := one _ h
    have val : leAt rq.payload 0 1 = a := by
      rw [val, BitVec.toNat_ofNat]
      omega
    have len : (rq.payload.length != 1) = false := bne_eq_false_iff_eq.2 len
    rw [hand.convCtl_own a f (by simp [val]), lacks, len, val, if_neg (by omega)]
    cases hheld : held
    · rfl
    · rw [Bool.not_true, State.checked_past]
      cases hup : up
      · rw [State.unless_holds _ _ (by rw [notUp, hup]; rfl)]
        rfl
      · rw [State.unless_past _ _ (by rw [notUp, hup]; rfl)]
        rfl
  refine ⟨fun h => ?_, fun h => ?_, fun h hh => ?_, fun h hh hu => ?_, fun h hh hu => ?_, fun h hh => ?_, fun h hh hu => ?_,
    fun h hh hu => ?_, fun hh hv hl => ?_, fun hh hl => ?_⟩
  · obtain ⟨len, val⟩ := one _ h
    exact hand.convCtl_other 0 _ ⟨len, by rw [val]; decide, by rw [val]; decide⟩
  · obtain ⟨len, val⟩ := one _ h
    exact hand.convCtl_other 1 _ ⟨len, by rw [val]; decide, by rw [val]; decide⟩
  · exact (own 0 _ (by decide) h).trans (by rw [hh]; rfl)
  · exact (own 0 _ (by decide) h).trans (by rw [hh, hu]; rfl)
  · exact (own 0 _ (by decide) h).trans (by rw [hh, hu]; rfl)
  · exact (own 1 _ (by decide) h).trans (by rw [hh]; rfl)
  · exact (own 1 _ (by decide) h).trans (by rw [hh, hu]; rfl)
  · exact (own 1 _ (by decide) h).trans (by rw [hh, hu]; rfl)
  · rw [← leAt_one] at hv
    have len : (rq.payload.length != 1) = false := bne_eq_false_iff_eq.2 hl
    refine (hand.convCtl_own 0 _ (by omega)).trans ?_
    rw [lacks, hh, len, if_pos (by omega)]
    rfl
  · have len : (rq.payload.length != 1) = true := bne_iff_ne.2 hl
    refine (hand.convCtl_own 0 _ fun h => hl h.1).trans ?_
    rw [lacks, hh, len]
    rfl

theorem timeAndTrimAreCommanded : Claims.TimeAndTrimAreCommanded := by
  unfold Claims.TimeAndTrimAreCommanded
  refine ⟨served_of_checked (fun b s rq hand => hand.timeSet) fun b s rq hand len run => ?_,
    served_of_checked (bad := fun _ => none) (fun b s rq hand => hand.serve _) fun b s rq hand len run => ?_,
    served_of_checked (fun b s rq hand => hand.trimPolicy) fun b s rq hand len run => ?_⟩
  · intro p mode staged
    rw [leAt_one] at run
    have fits (h : mode = 1 ∨ mode = 2) : exec (.timeSet b) s =
        .next (s.unless b [(s.cal.busy, .busy)] fun s => s.setTime b p) := by
      rw [run, if_pos h]
      rfl
    refine ⟨fun h1 h2 => ?_, fun hm hb => ?_, fun hm hc hs => ⟨fun ok => ?_, fun bad => ?_⟩⟩
    · rw [run, if_neg (fun h => h.elim h1 h2)]
      rfl
    · rw [fits hm, State.unless_holds _ _ (by simpa [Cal.busy] using hb)]
    · refine ⟨_, (fits hm).trans (congrArg _ ((State.unless_past _ _ (by simp [Cal.busy, hc, hs])).trans
        (State.setTime_taken hm ok))), ?_⟩
      exact ⟨rfl, State.waits_cur hand.cur, rfl, rfl, rfl, rfl, rfl, rfl⟩
    · refine ⟨_, (fits hm).trans (congrArg _ ((State.unless_past _ _ (by simp [Cal.busy, hc, hs])).trans
        (State.setTime_rejected hm bad))), ?_⟩
      simp only [State.answer_cal, State.answer_log, State.answer_trim, State.raise_cal, State.raise_log, State.raise_trim]
      exact ⟨hc, rfl, rfl, State.answer_cur _ _, rfl, rfl⟩
  · refine ⟨fun hb => ?_, fun hc hs => ?_⟩
    · rw [run, State.checked_past, State.unless_holds _ _ (by simpa [Cal.busy] using hb)]
    · rw [run, State.checked_past, State.unless_past _ _ (by simp [Cal.busy, hc, hs]), State.shiftCmd_taken _ _ hs hc,
        State.waits_eq (s := s.onCal _) hand.cur]
      rfl
  · intro p src
    have fits (h0 : src ≤ 2) (h1 : p.getD 1 0 &&& 0xF0 = 0) : exec (.trimPolicy b) s =
        .next (s.unless b [(s.flashHeld b, .resourceHeld)] fun s => s.setTrim b p) := by
      rw [run, trimBad, leAt_one, if_neg (Nat.not_lt.2 h0), if_neg (by simpa using h1)]
      rfl
    refine ⟨fun h0 => ?_, fun h0 h1 => ?_, fun h0 h1 held => ?_, fun h0 h1 free => ?_⟩
    · rw [run, trimBad, leAt_one, if_pos h0]
      rfl
    · rw [run, trimBad, leAt_one, if_neg (Nat.not_lt.2 h0), if_pos (bne_iff_ne.2 h1)]
      rfl
    · rw [fits h0 h1, State.unless_holds _ _ held]
    · refine ⟨_, (fits h0 h1).trans (congrArg _ (State.unless_past _ _ free)), ?_⟩
      let u : State := { s with fw := { s.fw with trimPolicy := p, trimRestart := false } }
      have set : s.setTrim b p = State.waits b (State.storeWrite b true none (fun i => { i with trim := some ⟨b, p⟩ })
          { u with trim := (u.applyTrim p).trim, bin := (u.applyTrim p).bin, ev := (u.applyTrim p).ev
                   dom := (u.applyTrim p).dom }) := by
        rw [← u.applyTrim_frame p]
        rfl
      rw [set]
      refine ⟨rfl, State.waits_cur hand.cur, rfl, fun off => ?_, fun on => ?_, u.applyTrim_trim p, ?_, rfl, rfl, rfl, rfl, rfl⟩
      · change (u.applyTrim p).trim.active = false ∧ (s.trim.active = true → (u.applyTrim p).trim.run = false)
        rw [u.applyTrim_off off, State.trRun_abort]
        exact ⟨rfl, fun ha => by simp [show u.trim = s.trim from rfl, ha]⟩
      · change (u.applyTrim p).trim.run = true ∧ (u.applyTrim p).trim.active = true ∧ (u.applyTrim p).trim.src = _ ∧
          (u.applyTrim p).trim.fnom = _ ∧ (u.applyTrim p).trim.auto = _ ∧ (u.applyTrim p).trim.cont = _ ∧
          (u.applyTrim p).trim.k.toNat = _
        obtain ⟨bin, started⟩ := u.applyTrim_on on
        rw [started, State.trRun_start]
        exact ⟨rfl, rfl, rfl, rfl, rfl, rfl, Nat.mod_eq_of_lt (by omega)⟩
      · change (List.drop s.fw.storeQ.length (s.fw.storeQ ++ [_])).map _ = _
        rw [List.drop_left]
        rfl

/-- Settles O56: CONV_CTL by its action, and the three commands of time and trim past their checks. -/
theorem converterTimeAndTrimAreCommanded : Obligations.ConverterTimeAndTrimAreCommanded :=
  ⟨theConverterIsStoppedAndRestarted, timeAndTrimAreCommanded⟩

end Sys2Proof.Proofs
end

section
/-! PROOFS. The active charter and BIND (R246, R255, R260): every shared operation but the few that put a charter in force leaves
them alone, said once for each. -/

namespace Sys2Proof.Machine

/-- The active charter, and the bindings in force. -/
def State.bindings (s : State) : Charter × Byte := (s.fw.charter, s.dom.bind)

variable (x : State)

/-! ## Updates of one part. In parentheses, `rfl` leaves `simp` a rewrite rule, which it may use in a side condition. -/

@[simp] theorem State.onLine_bindings (f : LineDie → LineDie) : (x.onLine f).bindings = x.bindings := (rfl)
@[simp] theorem State.onLink_bindings (f : Link → Link) : (x.onLink f).bindings = x.bindings := (rfl)
@[simp] theorem State.onPower_bindings (f : Power → Power) : (x.onPower f).bindings = x.bindings := (rfl)
@[simp] theorem State.onCal_bindings (f : Cal → Cal) : (x.onCal f).bindings = x.bindings := (rfl)
@[simp] theorem State.onTrim_bindings (f : Trim → Trim) : (x.onTrim f).bindings = x.bindings := (rfl)
@[simp] theorem State.onBin_bindings (f : BinIo → BinIo) : (x.onBin f).bindings = x.bindings := (rfl)
@[simp] theorem State.onSpi_bindings (f : Spi → Spi) : (x.onSpi f).bindings = x.bindings := (rfl)
@[simp] theorem State.onTw_bindings (f : Tw → Tw) : (x.onTw f).bindings = x.bindings := (rfl)
@[simp] theorem State.onEv_bindings (f : Events → Events) : (x.onEv f).bindings = x.bindings := (rfl)
@[simp] theorem State.onBerths_bindings (f : Berths → Berths) : (x.onBerths f).bindings = x.bindings := (rfl)
@[simp] theorem State.onBerth_bindings (b : Fin 4) (f : Berth → Berth) : (x.onBerth b f).bindings = x.bindings := (rfl)
@[simp] theorem State.onFlash_bindings (f : Flash → Flash) : (x.onFlash f).bindings = x.bindings := (rfl)
@[simp] theorem State.onLog_bindings (f : Log → Log) : (x.onLog f).bindings = x.bindings := (rfl)
@[simp] theorem State.onGauge_bindings (f : Gauge → Gauge) : (x.onGauge f).bindings = x.bindings := (rfl)

@[simp] theorem State.onFw_bindings (f : Firmware → Firmware) (h : ∀ w, (f w).charter = w.charter) :
    (x.onFw f).bindings = x.bindings := congrArg (·, x.dom.bind) (h x.fw)

@[simp] theorem State.onDom_bindings (f : Domains → Domains) (h : ∀ d, (f d).bind = d.bind) :
    (x.onDom f).bindings = x.bindings := congrArg (x.fw.charter, ·) (h x.dom)

@[simp] theorem State.when_bindings (c : Bool) (f : State → State) (h : ∀ y, (f y).bindings = y.bindings) :
    (x.when c f).bindings = x.bindings := x.when_keeps State.bindings c f (h x)

@[simp] theorem ite_bindings (c : Prop) [Decidable c] (a b : State) :
    (if c then a else b).bindings = if c then a.bindings else b.bindings := apply_ite State.bindings c a b

@[simp] theorem foldl_bindings {α : Type} (f : State → α → State) (h : ∀ y a, (f y a).bindings = y.bindings) (as : List α) :
    (as.foldl f x).bindings = x.bindings := by
  induction as generalizing x with
  | nil => rfl
  | cons a as ih => exact (ih _).trans (h x a)

@[simp] theorem Domains.allOff_bind (k : Bool) (c : BitVec 4) (x : Domains) : (x.allOff k c).bind = x.bind := (rfl)
@[simp] theorem Domains.set_bind (x : Domains) (d : Domain) (v : DomSt) : (x.set d v).bind = x.bind := by cases d <;> rfl

/-! ## Domains, wakes and events -/

@[simp] theorem State.startOn_bindings (d : Domain) : (x.startOn d).bindings = x.bindings := by
  refine x.onDom_bindings _ fun v => ?_
  dsimp only
  split
  case h_2 => rfl
  all_goals exact Domains.set_bind ..

@[simp] theorem State.bringOn_bindings (d : Domain) : (x.bringOn d).bindings = x.bindings := by
  cases d <;> simp [State.bringOn]

@[simp] theorem State.startWanted_bindings : x.startWanted.bindings = x.bindings :=
  foldl_bindings x _ (fun y d => by simp) _

@[simp] theorem State.need_bindings (d : Domain) : (x.need d).bindings = x.bindings := by simp [State.need]

@[simp] theorem State.wake_bindings (k : Nat) (ds : List Domain) : (x.wake k ds).bindings = x.bindings := by
  simp [State.wake]

@[simp] theorem State.raise_bindings (e : Nat) : (x.raise e).bindings = x.bindings := by
  unfold State.raise State.when
  split <;> simp

@[simp] theorem State.raiseWhenHif_bindings (e : Nat) : (x.raiseWhenHif e).bindings = x.bindings := by
  simp [State.raiseWhenHif]

@[simp] theorem State.sysonAuto_bindings (k : Nat) : (x.sysonAuto k).bindings = x.bindings := (rfl)
@[simp] theorem State.stampFso_bindings (w : Fso) : (x.stampFso w).bindings = x.bindings := (rfl)
@[simp] theorem State.binSet_bindings (a : Nat) (m : Byte) : (x.binSet a m).bindings = x.bindings := (rfl)
@[simp] theorem State.chargerFollows_bindings : x.chargerFollows.bindings = x.bindings := (rfl)
@[simp] theorem State.closeWindow_bindings : x.closeWindow.bindings = x.bindings := (rfl)
@[simp] theorem State.logWrite_bindings (k b : Byte) (st : BitVec 64) (d : List Byte) :
    (x.logWrite k b st d).bindings = x.bindings := (rfl)

/-! ## Records -/

@[simp] theorem State.putRecord_bindings (r : Rec) : (x.putRecord r).bindings = x.bindings := by simp [State.putRecord]

@[simp] theorem State.record_bindings (b : Fin 4) (st : BitVec 64) (t p f : Byte) (d : List Byte) :
    (x.record b st t p f d).bindings = x.bindings := by simp [State.record]

@[simp] theorem State.flushRecords_bindings : x.flushRecords.bindings = x.bindings := by simp [State.flushRecords]

@[simp] theorem State.fill_bindings (fs : List (Nat × Option (List Byte))) : (x.fill fs).2.bindings = x.bindings := by
  unfold State.fill
  dsimp only
  split <;> rfl

@[simp] theorem State.gaugeRecord_bindings (k : Nat) (t : Byte) (c : Bool) (d : List Byte) :
    (x.gaugeRecord k t c d).bindings = x.bindings := by
  unfold State.gaugeRecord
  split <;> simp

@[simp] theorem State.learnDisq_bindings (c : Nat) : (x.learnDisq c).bindings = x.bindings := by
  unfold State.learnDisq
  split <;> simp

/-! ## The ends of a measurement and of the link, and domains that leave ON -/

@[simp] theorem State.trimAbort_bindings (c : Nat) : (x.trimAbort c).bindings = x.bindings := by simp [State.trimAbort]

@[simp] theorem State.linkLeavesUp_bindings : x.linkLeavesUp.bindings = x.bindings := by simp [State.linkLeavesUp]

@[simp] theorem State.beginEntry_bindings (d : Domain) (w : Low) : (x.beginEntry d w).bindings = x.bindings := by
  cases d <;> simp [State.beginEntry, padBit]

@[simp] theorem State.defer_bindings (d : Domain) (w : Low) : (x.defer d w).bindings = x.bindings := by simp [State.defer]

@[simp] theorem State.tryEntry_bindings (d : Domain) (w : Low) : (x.tryEntry d w).bindings = x.bindings := by
  unfold State.tryEntry
  split
  · simp
  · split
    · split <;> simp
    · simp

@[simp] theorem State.requestEntry_bindings (d : Domain) (w : Low) : (x.requestEntry d w).bindings = x.bindings := by
  simp [State.requestEntry]

@[simp] theorem State.lose_bindings (d : Domain) : (x.lose d).bindings = x.bindings := by
  cases d <;> simp [State.lose]

@[simp] theorem State.freeSeqs_bindings : x.freeSeqs.bindings = x.bindings := (rfl)

@[simp] theorem State.resetSwitched_bindings (c : BitVec 4) : (x.resetSwitched c).bindings = x.bindings := by
  simp [State.resetSwitched]

/-! ## Answers, the calendar and the trim -/

@[simp] theorem State.postFrame_bindings (b : Fin 4) (fr : List Byte) : (x.postFrame b fr).bindings = x.bindings := by
  simp [State.postFrame]

@[simp] theorem State.answer_bindings (b : Fin 4) (st : Status) (r : List Byte) : (x.answer b st r).bindings = x.bindings := by
  unfold State.answer
  split <;> simp

@[simp] theorem State.answerTime_bindings : x.answerTime.bindings = x.bindings :=
  foldl_bindings x _ (fun y d => by simp) _

@[simp] theorem State.commitCmd_bindings (m : CommitMode) : (x.commitCmd m).bindings = x.bindings := by simp [State.commitCmd]
@[simp] theorem State.calCmd_bindings (v : Byte) : (x.calCmd v).bindings = x.bindings := by simp [State.calCmd]
@[simp] theorem State.shiftCmd_bindings (v : Half) : (x.shiftCmd v).bindings = x.bindings := by simp [State.shiftCmd]
@[simp] theorem State.ck32_bindings : x.ck32.bindings = x.bindings := by simp [State.ck32]
@[simp] theorem State.edgeOf_bindings (ks : List EdgeKind) : (x.edgeOf ks).bindings = x.bindings := by simp [State.edgeOf]

@[simp] theorem State.trRun_bindings (v : Bool) : (x.trRun v).bindings = x.bindings := by
  cases v <;> simp [State.trRun]

@[simp] theorem State.trimResume_bindings : x.trimResume.bindings = x.bindings := by simp [State.trimResume]

/-! ## Accesses of a host -/

@[simp] theorem State.violation_bindings (p : Port) (n : Fin 4) (a k : Nat) : (x.violation p n a k).bindings = x.bindings := by
  simp [State.violation]

@[simp] theorem State.accOff_bindings (p : Port) (a : Nat) : (x.accOff p a).bindings = x.bindings := by simp [State.accOff]

@[simp] theorem State.ringAccept_bindings (n : Fin 4) : (x.ringAccept n).bindings = x.bindings := by simp [State.ringAccept]

@[simp] theorem State.ring_bindings (p : Port) (n : Fin 4) : (x.ring p n).bindings = x.bindings := by simp [State.ring]

@[simp] theorem State.setKeep_bindings (p : Port) (v : BitVec 3) : (x.setKeep p v).bindings = x.bindings := by
  cases p <;> simp [State.setKeep]

@[simp] theorem State.chargerGate_bindings : x.chargerGate.bindings = x.bindings := by simp [State.chargerGate]

@[simp] theorem State.writeBin_bindings (a : Nat) (v : Byte) : (x.writeBin a v).bindings = x.bindings := by
  simp [State.writeBin]

@[simp] theorem State.writeDom_bindings (p : Port) (a : Nat) (v : Byte) : (x.writeDom p a v).bindings = x.bindings := by
  simp [State.writeDom]

@[simp] theorem State.writePower_bindings (a : Nat) (v : Byte) : (x.writePower a v).bindings = x.bindings := by
  simp [State.writePower, State.chgEnable]

@[simp] theorem State.writeLink_bindings (a : Nat) (v : Byte) : (x.writeLink a v).bindings = x.bindings := by
  simp [State.writeLink, State.cfgStore]

@[simp] theorem State.writeHif_bindings (a : Nat) (v : Byte) : (x.writeHif a v).bindings = x.bindings := by
  simp [State.writeHif, State.pendClear, State.ienWrite]

@[simp] theorem State.writeMem_bindings (n : Fin 4) (a : Nat) (v : Byte) : (x.writeMem n a v).bindings = x.bindings := by
  simp [State.writeMem]

@[simp] theorem State.writeWide_bindings (b v : Nat) : (x.writeWide b v).bindings = x.bindings := by
  unfold State.writeWide
  split <;> simp

@[simp] theorem State.writeByte_bindings (p : Port) (w : List (Nat × Byte)) (a : Nat) (v : Byte) :
    (x.writeByte p w a v).bindings = x.bindings := by
  unfold State.writeByte
  split
  · simp
  · split
    · simp
    · cases owner a <;> simp

@[simp] theorem State.refuse_bindings (y : Xfer) (a k : Nat) (v : Verdict) : (x.refuse y a k v).2.bindings = x.bindings := by
  unfold State.refuse
  repeat' split
  all_goals simp

@[simp] theorem State.xferWrite_bindings (y : Xfer) (a : Nat) (v : Byte) : (x.xferWrite y a v).2.bindings = x.bindings := by
  unfold State.xferWrite
  split <;> simp

@[simp] theorem State.rcClear_bindings (b v : Nat) : (x.rcClear b v).bindings = x.bindings := by
  unfold State.rcClear
  extract_lets
  split
  case h_10 => simp
  all_goals rfl

@[simp] theorem State.rcDone_bindings (y : Xfer) (b n : Nat) : (x.rcDone y b n).2.bindings = x.bindings := by
  unfold State.rcDone
  split
  · rfl
  · dsimp only
    split <;> simp

@[simp] theorem State.xferRead_bindings (y : Xfer) (a : Nat) (c : Bool) : (x.xferRead y a c).2.2.bindings = x.bindings := by
  unfold State.xferRead
  split
  · split
    · rfl
    · cases c <;> simp
    · rfl
  · rfl
  · simp

@[simp] theorem State.xferWrites_bindings (y : Xfer) (a : Nat) (vs : List Byte) : (x.xferWrites y a vs).2.bindings = x.bindings := by
  induction vs generalizing x y a with
  | nil => rfl
  | cons v vs ih => exact (ih ..).trans (x.xferWrite_bindings y a v)

@[simp] theorem State.xferReads_bindings (y : Xfer) (a n : Nat) : (x.xferReads y a n).2.2.bindings = x.bindings := by
  induction n generalizing x y a with
  | zero => rfl
  | succ n ih => exact (ih ..).trans (x.xferRead_bindings y a true)

@[simp] theorem State.portWrite_bindings (p : Port) (a : Nat) (bs : List Byte) : (x.portWrite p a bs).bindings = x.bindings := by
  simp [State.portWrite, State.hostWrite]

end Sys2Proof.Machine
end

section
/-! PROOFS. The active charter and BIND, continued: the operations of the ports, the link, the Log engine, the gauge and the
mailboxes (R246, R255, R260). -/

namespace Sys2Proof.Machine

variable (x : State)

/-! ## Transfers on SPI and transactions on two wires -/

@[simp] theorem State.putXfer_bindings (f : Xfer) : (x.putXfer f).bindings = x.bindings := (rfl)

@[simp] theorem State.endXfer_bindings (k : Fin 8) : (x.endXfer k).bindings = x.bindings := by
  unfold State.endXfer
  split <;> simp

@[simp] theorem State.csClash_bindings (k : Fin 8) : (x.csClash k).bindings = x.bindings := by simp [State.csClash]

@[simp] theorem State.twStat_bindings (k : Nat) : (x.twStat k).bindings = x.bindings := (rfl)

@[simp] theorem State.twProto_bindings (c : BitVec 3) : (x.twProto c).bindings = x.bindings := by simp [State.twProto]

@[simp] theorem State.twPecErr_bindings : x.twPecErr.bindings = x.bindings := by simp [State.twPecErr]

@[simp] theorem State.twPecMiss_bindings : x.twPecMiss.bindings = x.bindings := by simp [State.twPecMiss]

@[simp] theorem State.sbsFail_bindings (c : BitVec 3) : (x.sbsFail c).bindings = x.bindings := by simp [State.sbsFail]

@[simp] theorem State.probeOk_bindings (d : List Byte) : (x.probeOk d).bindings = x.bindings := by
  unfold State.probeOk
  split <;> simp

@[simp] theorem State.probeFail_bindings (c : BitVec 3) : (x.probeFail c).bindings = x.bindings := by
  unfold State.probeFail
  split <;> simp

/-! ## The line die and the link -/

@[simp] theorem State.whileRunning_bindings (f : LineDie → LineDie) :
    (x.whileRunning f).bindings = x.bindings := by simp [State.whileRunning]

@[simp] theorem State.downFrame_bindings (fr : DownFrame) (f : LineDie → LineDie) :
    (x.downFrame fr f).bindings = x.bindings := by simp [State.downFrame]

@[simp] theorem State.uplinkSeen_bindings : x.uplinkSeen.bindings = x.bindings := by simp [State.uplinkSeen]

@[simp] theorem State.linkGoes_bindings (l : LinkState) : (x.linkGoes l).bindings = x.bindings := by simp [State.linkGoes]

@[simp] theorem State.linkFault_bindings : x.linkFault.bindings = x.bindings := by simp [State.linkFault]

@[simp] theorem State.countDiscard_bindings (n : Nat) :
    (x.countDiscard n).bindings = x.bindings := by simp [State.countDiscard]

@[simp] theorem State.linkUp_bindings : x.linkUp.bindings = x.bindings := by simp [State.linkUp]

@[simp] theorem State.recordLoss_bindings (w : Word) : (x.recordLoss w).bindings = x.bindings := (rfl)

@[simp] theorem State.trimZc_bindings (f : ZcFrame) : (x.trimZc f).bindings = x.bindings := by
  unfold State.trimZc
  cases x.trim.lastSeq <;> simp

/-! ## Sources, the charger and the power key -/

@[simp] theorem State.sourceChange_bindings (o n : Option Source) :
    (x.sourceChange o n).bindings = x.bindings := by simp [State.sourceChange]

@[simp] theorem State.chgEnter_bindings (c : ChgState) : (x.chgEnter c).bindings = x.bindings := by simp [State.chgEnter]

@[simp] theorem State.pressed_bindings (k : Nat) (l : Bool) :
    (x.pressed k l).bindings = x.bindings := by simp [State.pressed]

/-! ## The Log engine -/

@[simp] theorem State.onPath_bindings (p : Path) (f : PathSt → PathSt) : (x.onPath p f).bindings = x.bindings := (rfl)

@[simp] theorem State.pathRecord_bindings (p : Path) (st : BitVec 64) (t r : Byte) (fs : List (Nat × Option (List Byte))) :
    (x.pathRecord p st t r fs).bindings = x.bindings := by
  unfold State.pathRecord
  split <;> simp

@[simp] theorem State.memUsed_bindings : x.memUsed.bindings = x.bindings :=
  foldl_bindings x _ (fun y n => by simp) _

@[simp] theorem State.charge_bindings (b : Option (Fin 4)) (n : Nat) : (x.charge b n).bindings = x.bindings := by
  unfold State.charge
  split <;> simp

@[simp] theorem State.startSounding_bindings (p : Path) :
    (x.startSounding p).bindings = x.bindings := by simp [State.startSounding]

@[simp] theorem State.startLearn_bindings (p : Path) : (x.startLearn p).bindings = x.bindings := (rfl)

@[simp] theorem State.startNext_bindings : x.startNext.bindings = x.bindings := by
  unfold State.startNext
  cases x.learnReady <;> simp

@[simp] theorem State.storeWrite_bindings (b : Fin 4) (a : Bool) (e : Option (Fin 4)) (f : StoreImage → StoreImage) :
    (x.storeWrite b a e f).bindings = x.bindings := (rfl)

@[simp] theorem State.totalsEntry_bindings (k : Byte) (p : Path) : (x.totalsEntry k p).bindings = x.bindings := by
  unfold State.totalsEntry
  split <;> simp

@[simp] theorem State.saveTotals_bindings (k : Byte) : (x.saveTotals k).bindings = x.bindings := by simp [State.saveTotals]

@[simp] theorem State.onShot_bindings (f : Shot → Shot) : (x.onShot f).bindings = x.bindings := (rfl)

@[simp] theorem State.flowRecords_bindings (y : Sounding) (r : FlowRes) (q : HeatRes) (a b : Bool) :
    (x.flowRecords y r q a b).bindings = x.bindings := by simp [State.flowRecords]

@[simp] theorem State.flowResult_bindings (y : Sounding) (r : FlowRes) :
    (x.flowResult y r).bindings = x.bindings := by simp [State.flowResult]

@[simp] theorem State.finishSounding_bindings (y : Sounding) :
    (x.finishSounding y).bindings = x.bindings := by simp [State.finishSounding]

@[simp] theorem State.finishPair_bindings : x.finishPair.bindings = x.bindings := by simp [State.finishPair]

@[simp] theorem State.endShot_bindings (r : ShotResult) (w : List (BitVec 14)) : (x.endShot r w).bindings = x.bindings := by
  unfold State.endShot
  split <;> simp

@[simp] theorem State.grantLocally_bindings (e : Nat) (a : BitVec 3) (n : BitVec 13) :
    (x.grantLocally e a n).bindings = x.bindings := by simp [State.grantLocally]

@[simp] theorem State.calEnds_bindings (p : Path) (o : CalOutcome) :
    (x.calEnds p o).bindings = x.bindings := by simp [State.calEnds]

@[simp] theorem State.leewayEnds_bindings (c : Calibration) (a : Bool) :
    (x.leewayEnds c a).bindings = x.bindings := by simp [State.leewayEnds]

@[simp] theorem State.rtdComplete_bindings (r : RtdSet) :
    (x.rtdComplete r).bindings = x.bindings := by
  unfold State.rtdComplete
  refine (State.when_bindings _ _ _ fun y => y.raise_bindings 76).trans ((State.raise_bindings _ 75).trans
    ((foldl_bindings _ _ (fun y a => ?_) _).trans (State.onLog_bindings ..)))
  dsimp only
  split <;> simp

@[simp] theorem State.rtdEnds_bindings (r : RtdSet) (c : Fin 5) (rest : List (Fin 5)) (k : Option Nat) :
    (x.rtdEnds r c rest k).bindings = x.bindings := by simp [State.rtdEnds]

/-! ## Domains that reach ON, resets and handlers -/

@[simp] theorem State.takeZone_bindings : x.takeZone.bindings = x.bindings := by simp [State.takeZone]

@[simp] theorem State.restoreHif_bindings : x.restoreHif.bindings = x.bindings := by
  unfold State.restoreHif
  split <;> simp

@[simp] theorem State.sysReset_bindings : x.sysReset.bindings = x.bindings := by simp [State.sysReset]

@[simp] theorem State.raiseLate_bindings : x.raiseLate.bindings = x.bindings := by simp [State.raiseLate]

@[simp] theorem State.reached_bindings (d : Domain) (o : Low) (v : Nat) :
    (x.reached d o v).bindings = x.bindings := by cases d <;> simp [State.reached]

@[simp] theorem State.fwReset_bindings (c : BitVec 4) : (x.fwReset c).bindings = x.bindings := by simp [State.fwReset]

@[simp] theorem State.beforeWait_bindings : x.beforeWait.bindings = x.bindings := by simp [State.beforeWait]

@[simp] theorem State.handled_bindings : x.handled.bindings = x.bindings := by simp [State.handled]

/-! ## The gauge -/

@[simp] theorem State.enterLevel_bindings (k : Nat) (a : Bool) :
    (x.enterLevel k a).bindings = x.bindings := by simp [State.enterLevel]

@[simp] theorem State.socLevels_bindings : x.socLevels.bindings = x.bindings :=
  foldl_bindings x _ (fun y n => by simp) _

@[simp] theorem State.cellLevels_bindings : x.cellLevels.bindings = x.bindings :=
  foldl_bindings x _ (fun y n => by simp) _

@[simp] theorem State.eocCheck_bindings : x.eocCheck.bindings = x.bindings := by simp [State.eocCheck]

@[simp] theorem State.takeReading_bindings (n sum rts : Nat) :
    (x.takeReading n sum rts).bindings = x.bindings := by simp [State.takeReading]

@[simp] theorem State.zoneResult_bindings (k : Int) : (x.zoneResult k).bindings = x.bindings := by simp [State.zoneResult]

@[simp] theorem State.closeLearn_bindings (a b : Int) :
    (x.closeLearn a b).bindings = x.bindings := by
  unfold State.closeLearn
  dsimp only
  split <;> simp

@[simp] theorem State.learnFix_bindings : x.learnFix.bindings = x.bindings := by simp [State.learnFix]

@[simp] theorem State.gaugeConfig_bindings (p : List Byte) :
    (x.gaugeConfig p).bindings = x.bindings := by simp [State.gaugeConfig]

@[simp] theorem State.gaugeRestore_bindings (p : List Byte) :
    (x.gaugeRestore p).bindings = x.bindings := by simp [State.gaugeRestore]

/-! ## Firmware and the mailboxes -/

@[simp] theorem State.writeSpare_bindings (c : Charter) :
    (x.writeSpare c).bindings = x.bindings := by simp [State.writeSpare]

@[simp] theorem State.newEpoch_bindings (n : Fin 4) : (x.newEpoch n).bindings = x.bindings := by simp [State.newEpoch]

@[simp] theorem State.macAdvance_bindings (n : Fin 4) : (x.macAdvance n).bindings = x.bindings := by simp [State.macAdvance]

@[simp] theorem State.eraseLog_bindings (n : Fin 4) : (x.eraseLog n).bindings = x.bindings := by simp [State.eraseLog]

@[simp] theorem State.applyTrim_bindings (p : List Byte) : (x.applyTrim p).bindings = x.bindings := by simp [State.applyTrim]

@[simp] theorem State.answerWaiter_bindings (c : Half) (r : List Byte) : (x.answerWaiter c r).bindings = x.bindings := by
  unfold State.answerWaiter
  split <;> simp

@[simp] theorem State.answerTotals_bindings : x.answerTotals.bindings = x.bindings := by
  unfold State.answerTotals
  dsimp only
  split
  · rfl
  · split <;> simp

@[simp] theorem State.hold_bindings (n : Fin 4) (rq : Request) : (x.hold n rq).bindings = x.bindings := (rfl)

@[simp] theorem State.macLockout_bindings (n : Fin 4) : (x.macLockout n).bindings = x.bindings := by simp [State.macLockout]

@[simp] theorem State.macFail_bindings (n : Fin 4) (c : Bool) :
    (x.macFail n c).bindings = x.bindings := by simp [State.macFail]

@[simp] theorem State.takeChecked_bindings (n : Fin 4) (rq : Request) (mac : List Byte) :
    (x.takeChecked n rq mac).bindings = x.bindings := by simp [State.takeChecked]

@[simp] theorem State.checkRequest_bindings (n : Fin 4) (bytes : List Byte) :
    (x.checkRequest n bytes).bindings = x.bindings := by
  unfold State.checkRequest
  dsimp only
  split
  · simp
  · split <;> simp

@[simp] theorem State.ok_bindings (b : Fin 4) (r : List Byte) : (x.ok b r).bindings = x.bindings := by simp [State.ok]

@[simp] theorem State.waits_bindings (b : Fin 4) : (x.waits b).bindings = x.bindings := (rfl)

@[simp] theorem State.onCtl_bindings (f : HifSave → HifSave) : (x.onCtl f).bindings = x.bindings := by simp [State.onCtl]

@[simp] theorem State.writesFlash_bindings (b : Fin 4) : (x.writesFlash b).bindings = x.bindings :=
  foldl_bindings x _ (fun y n => by simp) _

@[simp] theorem State.commitCharter_bindings (b : Fin 4) (es : Vector Entry 4) :
    (x.commitCharter b es).bindings = x.bindings := by simp [State.commitCharter]

@[simp] theorem State.abortCal_bindings (n : Fin 4) : (x.abortCal n).bindings = x.bindings := by
  unfold State.abortCal
  split
  · split
    · split <;> simp
    · rfl
  · rfl

@[simp] theorem State.holdDomains_bindings (v : BitVec 3) :
    (x.holdDomains v).bindings = x.bindings := by simp [State.holdDomains]

@[simp] theorem State.acceptPath_bindings (b : Fin 4) (y : Path) (p : PathSt) (f : PathItems → PathItems) :
    (x.acceptPath b y p f).bindings = x.bindings := by simp [State.acceptPath]

@[simp] theorem State.probeStart_bindings (b : Fin 4) (w : Bool) (n a c : Nat) (d : List Byte) :
    (x.probeStart b w n a c d).bindings = x.bindings := by simp [State.probeStart]

end Sys2Proof.Machine
end

section
/-! PROOFS. What a command keeps: the bounds and the counters of `Keeps`, with the active charter and BIND. Here the frame of
these proofs, and the commands of the Binnacle, the domains, the line die and the link, in the order of the model's files. -/

namespace Sys2Proof.Machine

/-- `t` keeps the bounds of the line die, the calendar, the Binnacle's registers, the flash and the gauge, LOSS_COUNT from
falling, AUDIT_CTR, the active charter, and the bindings in force. -/
structure Kept (s t : State) : Prop where
  line : s.line.ok → t.line.ok
  cal : s.cal.ok → t.cal.ok
  bin : s.bin.ok → t.bin.ok
  flash : s.flash.ok → t.flash.ok
  gauge : s.gauge.ok → t.gauge.ok
  loss : s.link.lossCount.toNat ≤ t.link.lossCount.toNat
  audit : t.flash.auditCtr = s.flash.auditCtr
  bound : t.bindings = s.bindings

/-- Every state that the outcome goes on in has the property. -/
def Yields (P : State → Prop) (o : Out) : Prop := ∀ t, o = .next t → P t

section Frame
variable {s t u : State} {P : State → Prop}

/-- What `Keeps` holds of; the bindings follow from the rules of `State.bindings`. -/
theorem Kept.of (k : Keeps s t) (b : t.bindings = s.bindings) : Kept s t :=
  ⟨k.line, k.cal, k.bin, k.flash, k.gauge, k.loss, k.audit, b⟩

theorem Kept.refl (s : State) : Kept s s := .of (.refl s) (by simp)

theorem Kept.trans (h : Kept s t) (k : Kept t u) : Kept s u :=
  ⟨k.line ∘ h.line, k.cal ∘ h.cal, k.bin ∘ h.bin, k.flash ∘ h.flash, k.gauge ∘ h.gauge, Nat.le_trans h.loss k.loss,
   k.audit.trans h.audit, k.bound.trans h.bound⟩

/-- A change of the domains that leaves BIND, whatever it does to their order. -/
theorem Kept.onDom (h : Kept s t) (f : Domains → Domains) (hf : ∀ d, (f d).bind = d.bind) : Kept s (t.onDom f) :=
  ⟨h.line, h.cal, h.bin, h.flash, h.gauge, h.loss, h.audit, (t.onDom_bindings f hf).trans h.bound⟩

theorem Kept.ite {c : Prop} [Decidable c] {a b : State} (ha : Kept s a) (hb : Kept s b) : Kept s (if c then a else b) := by
  split
  · exact ha
  · exact hb

theorem Kept.when (h : Kept s t) (c : Bool) (f : State → State) (hf : Kept t (f t)) : Kept s (t.when c f) :=
  .ite (h.trans hf) h

theorem Yields.next (h : P t) : Yields P (.next t) := fun _ e => Host.Outcome.next.inj e ▸ h

theorem Yields.ite {c : Prop} [Decidable c] {a b : Out} (ha : Yields P a) (hb : Yields P b) : Yields P (if c then a else b) := by
  split
  · exact ha
  · exact hb

/-- A command that does something on a condition, and nothing otherwise. -/
theorem Yields.guard {c : Prop} [Decidable c] (h : c → Kept s t) : Yields (Kept s) (if c then .next t else .next s) := by
  split
  · exact .next (h ‹c›)
  · exact .next (.refl s)

/-- A write through a port. -/
theorem Kept.portWrite (s : State) (p : Port) (a : Nat) (bs : List Byte) : Kept s (s.portWrite p a bs) :=
  .of ((Keeps.refl s).portWrite p a bs) (by simp)

/-- A change of the line die. -/
theorem Kept.whileRunning (s : State) {f : LineDie → LineDie} (hf : ∀ l, l.ok → (f l).ok) : Kept s (s.whileRunning f) :=
  .of ((Keeps.refl s).whileRunning f hf) (by simp)

theorem Kept.downFrame (s : State) (fr : DownFrame) {f : LineDie → LineDie} (hf : ∀ l, l.ok → (f l).ok) :
    Kept s (s.downFrame fr f) :=
  .of ((Keeps.refl s).downFrame fr f hf) (by simp)

end Frame

/-! ## The Binnacle -/

section Binnacle
variable (s : State)

theorem prescalerCount_kept (key : Bool) : Yields (Kept s) (execPrescalerCount key s) :=
  .guard fun _ => .of ((Keeps.refl s).ck32.onBin _ fun _ i => by exact i) (by simp)

theorem edge_kept (ks : List EdgeKind) : Kept s (s.edgeOf ks) := .of ((Keeps.refl s).edgeOf ks) (by simp)

theorem trimCycleStart_kept : Yields (Kept s) (execTrimCycleStart s) := .guard fun _ => .of ((Keeps.refl s).onTrim _) (by simp)

theorem xtalFail_kept : Yields (Kept s) (execXtalFail s) :=
  .ite (.next (.refl s)) (.next (.of
    (((((Keeps.refl s).onCal _ fun _ i => by exact i).binSet _ _).raise 18).trimAbort 5) (by simp)))

theorem xtalRecover_kept : Kept s (s.onCal fun c => { c with onLrc := false }).trimResume :=
  .of ((Keeps.refl s).onCal _ fun _ i => by exact i).trimResume (by simp)

theorem trimMeasOpen_kept : Yields (Kept s) (execTrimMeasOpen s) := .guard fun _ => .of ((Keeps.refl s).onTrim _) (by simp)

theorem trimMeasDone_kept : Yields (Kept s) (execTrimMeasDone s) := by
  unfold execTrimMeasDone
  split
  · exact .guard fun _ => .of ((((Keeps.refl s).onTrim _).when _ _ ((Keeps.refl _).binSet _ _)).raise 25) (by simp)
  · exact .next (.refl s)

theorem ppsEdge_kept : Yields (Kept s) (execPpsEdge s) := by
  unfold execPpsEdge
  split
  · split
    · exact .ite (.next (.of ((Keeps.refl s).trimAbort 4).trimResume (by simp))) (.next (.of ((Keeps.refl s).onTrim _) (by simp)))
    · exact .next (.of ((Keeps.refl s).onTrim _) (by simp))
  · exact .next (.refl s)

theorem wakeTick_kept : Yields (Kept s) (execWakeTick s) :=
  .guard fun _ => .of (((((Keeps.refl s).onCal _ fun _ i => by exact i).raise 19).wake 1 _).sysonAuto 2) (by simp)

/-- An event input that changes with its PPS bit as it was. -/
theorem Keeps.setEvt {s t : State} (h : Keeps s t) (i : Fin 4) (f : BinIo → EventInput) (g : BinIo → BinIo)
    (hf : ∀ b, (f b).pps = b.evts[i].pps) (hg : ∀ b, b.ok → (g b).ok) :
    Keeps s (t.onBin fun b => g { b with evts := b.evts.set i (f b) }) :=
  h.onBin _ fun b ok => hg _ (BinIo.setEvt_ok b i _ (fun hi => (hf b).trans (ok.2 i hi)) ok)

theorem evtCount_kept (i : Fin 4) (rising : Bool) : Kept s (s.evtCount i rising) := by
  have put (f : EventInput → EventInput) (m : Byte) (hf : ∀ e, (f e).pps = e.pps) : Keeps s (s.onBin fun b =>
      BinIo.mark (0x0181 + 0x10 * i.val) m
        { b with evts := b.evts.set i (f b.evts[i]), evtNow := b.evtNow ||| evtBit i rising }) :=
    (Keeps.refl s).setEvt i (fun b => f b.evts[i])
      (fun b => BinIo.mark _ _ { b with evtNow := b.evtNow ||| evtBit i rising }) (fun b => hf _) fun _ ok => ok
  unfold State.evtCount
  dsimp only
  split
  · exact .of ((((put (fun e => { e with level := rising, count := satInc e.count, ovr := true }) _
      fun _ => rfl).raise _).raise 24).wake _ _) (by simp)
  · exact .of ((((put (fun e => { e with level := rising, count := satInc e.count, stamped := true, first := s.cal.stamp }) _
      fun _ => rfl).raise _).wake _ _).sysonAuto 4) (by simp)

theorem evtEdge_kept (i : Fin 4) (rising : Bool) (n : Nat) : Yields (Kept s) (execEvtEdge i rising n s) := by
  have level : Keeps s (s.onBin fun b => { b with evts := b.evts.set i { b.evts[i] with level := rising } }) :=
    (Keeps.refl s).setEvt i (fun b => { b.evts[i] with level := rising }) (fun b => b) (fun _ => rfl) fun _ ok => ok
  exact .ite (.next (.refl s)) (.ite (.next (.of level (by simp))) (.next (evtCount_kept s i rising)))

theorem pwrkeyShort_kept (ms : Nat) : Yields (Kept s) (execPwrkeyShort ms s) :=
  .next ((Kept.refl s).when _ _ (.of ((Keeps.refl s).pressed 0 false) (by simp)))

theorem pwrkeyLong_kept (ms : Nat) : Yields (Kept s) (execPwrkeyLong ms s) :=
  .next ((Kept.refl s).when _ _ (.of (((Keeps.refl s).pressed 1 true).sysonAuto 0) (by simp)))

theorem pwrkeyHardoff_kept (ms : Nat) : Yields (Kept s) (execPwrkeyHardoff ms s) :=
  .guard fun _ => .of ((((Keeps.refl s).pressed 2 true).onBin _ fun _ i => by exact i).binSet _ _) (by simp)

theorem cmpTrip_kept (c : Fin 4) (mv n : Nat) : Yields (Kept s) (execCmpTrip c mv n s) :=
  .ite (.next (.refl s)) (.next (.when (.of ((Keeps.refl s).onBin _ fun _ i => by exact i) (by simp)) _ _
    (.of ((((Keeps.refl _).binSet _ _).raise _).wake _ _ |>.sysonAuto 5) (by simp))))

theorem awakeHigh_kept (n : Nat) : Yields (Kept s) (execAwakeHigh n s) :=
  .next ((Kept.refl s).when _ _ (.of (((Keeps.refl s).wake 11 _).sysonAuto 1) (by simp)))

theorem binPorRelease_kept : Yields (Kept s) (execBinPorRelease s) :=
  .guard fun _ => .of (((Keeps.refl s).onBin _ fun _ i => by exact i).onDom _ fun _ i => by exact i) (by simp)

end Binnacle

/-! ## The domains and the resets -/

section Domains
variable (s : State)

theorem idleTimerExpire_kept (d : Domain) (n : Nat) : Yields (Kept s) (execIdleTimerExpire d n s) :=
  .ite (.next (.refl s)) (.next (.of ((Keeps.refl s).requestEntry d _) (by simp)))

theorem waitInstruction_kept (ts : List (Domain × Low)) : Yields (Kept s) (execWaitInstruction ts s) := by
  have wait : Kept s (s.when (ts.any fun t => t.1 == .cpu) State.beforeWait) :=
    (Kept.refl s).when _ _ (.of (Keeps.refl s).beforeWait (by simp))
  have enter (u : State) : Kept u (ts.foldl (fun s t => s.requestEntry t.1 t.2) u) :=
    .of ((Keeps.refl u).foldl _ (fun t x => (Keeps.refl t).requestEntry _ _) ts) (by simp)
  exact .ite (.ite (.next (wait.trans (.of (Keeps.refl _).handled (by simp)))) (.next (wait.trans (enter _)))) (.next (.refl s))

theorem deferredEntry_kept (d : Domain) : Yields (Kept s) (execDeferredEntry d s) := by
  unfold execDeferredEntry
  split
  · exact .guard fun on => .of ((Keeps.refl s).tryEntry d _ (by simpa [State.isOn] using on)) (by simp)
  · exact .next (.refl s)

theorem domainEntryDone_kept (d : Domain) : Yields (Kept s) (execDomainEntryDone d s) := by
  have finish (st : PdState) (w : Bool) (u : State) : Kept u (u.onDom fun x => x.set d { st, wanted := w }).startWanted :=
    ((Kept.refl u).onDom _ fun x => Domains.set_bind x d _).trans (.of (Keeps.refl _).startWanted (by simp))
  unfold execDomainEntryDone
  extract_lets v fin
  split
  · exact .ite (.next (.refl s)) (.next ((Kept.of ((Keeps.refl s).lose d) (by simp)).trans (finish _ _ _)))
  · exact .next (finish _ _ s)
  · exact .next (.refl s)

theorem domainOnDone_kept (d : Domain) (v : Nat) : Yields (Kept s) (execDomainOnDone d v s) := by
  have set (st : PdState) : Kept s (s.onDom fun x => x.set d { st }) := (Kept.refl s).onDom _ fun x => Domains.set_bind x d _
  unfold execDomainOnDone
  split
  · exact .ite (.next (.refl s)) (.ite (.next (set _))
      (.next ((set .on).trans (.of ((Keeps.refl _).reached d _ v).startWanted (by simp)))))
  · exact .next (.refl s)

theorem cpuResetRelease_kept : Yields (Kept s) (execCpuResetRelease s) := by
  unfold execCpuResetRelease
  split
  · exact .next (((Kept.refl s).onDom _ fun _ => by exact rfl).trans (.of (Keeps.refl _).startWanted (by simp)))
  · exact .next (.refl s)

theorem padHoldRelease_kept (d : Domain) : Yields (Kept s) (execPadHoldRelease d s) := by
  unfold execPadHoldRelease
  split
  · refine .guard fun _ => .when (.of ?_ (by simp)) _ _ (.of ((Keeps.refl _).onPower _) (by simp))
    exact ((Keeps.refl s).when _ _ (Keeps.refl s).restoreHif).onDom _ fun _ i => by exact i
  · exact .next (.refl s)

theorem xo16StartFail_kept : Yields (Kept s) (execXo16StartFail s) :=
  .next (.of (((Keeps.refl s).onDom _ fun _ i => by exact i).raise 81) (by simp))

theorem pllcLock_kept : Yields (Kept s) (execPllcLock s) :=
  .guard fun _ => .of ((Keeps.refl s).onDom _ fun _ i => by exact i) (by simp)

theorem brownOutReset_kept : Yields (Kept s) (execBrownOutReset s) :=
  .ite (.next (.of ((Keeps.refl s).onDom _ fun _ i => by exact i) (by simp)))
    (.next (.of (((Keeps.refl s).onDom _ fun _ i => by exact i).resetSwitched _) (by simp)))

theorem fwReset_kept (c : BitVec 4) : Yields (Kept s) (if s.isOn .cpu then .next (s.fwReset c) else .next s) :=
  .guard fun _ => .of ((Keeps.refl s).fwReset c) (by simp)

theorem resetRelease_kept : Yields (Kept s) (execResetRelease s) := by
  have up : Kept s (s.onDom fun d => { d with vsysUp := true, nrstLow := false }) := (Kept.refl s).onDom _ fun _ => rfl
  unfold execResetRelease
  dsimp only
  split
  · exact .next ((up.onDom _ fun _ => by exact rfl).trans (.of (Keeps.refl _).startWanted (by simp)))
  · exact .next (up.trans (.of (Keeps.refl _).startWanted (by simp)))

theorem fwtimerExpire_kept : Yields (Kept s) (execFwtimerExpire s) :=
  .guard fun _ => .of (((Keeps.refl s).onDom _ fun _ i => by exact i).wake 19 _) (by simp)

theorem eventDeliver_kept : Yields (Kept s) (execEventDeliver s) := .guard fun _ => .of ((Keeps.refl s).onEv _) (by simp)

end Domains

/-! ## The line die -/

section LineDie
variable (s : State)

/-- What leaves the TLM queue keeps its bound. -/
theorem LineDie.ok_of_eq {l k : LineDie} (h : k.tlmQ = l.tlmQ) (i : l.ok) : k.ok :=
  LineDie.ok_of_le (congrArg List.length h).le i

theorem lineDieStart_kept (hvin : Nat) (w : Word) : Yields (Kept s) (execLineDieStart hvin w s) := by
  refine .ite (.next (.refl s)) (.next (.of ((Keeps.refl s).onLine _ fun l _ => ?_) (by simp)))
  dsimp only
  split
  · exact LineDie.ok_of_le (LineDie.stopFor_tlm _ _ _ _) (Nat.zero_le 8)
  · exact LineDie.ok_of_eq (LineDie.resume_tlm _) (Nat.zero_le 8)

theorem brownIn_kept : Yields (Kept s) (execBrownIn s) := by
  refine .next (.whileRunning s fun l i => ?_)
  split
  · exact LineDie.ok_of_eq (LineDie.resume_tlm _) i
  · exact LineDie.ok_of_eq (LineDie.lift_tlm _ _ _) i

theorem softStartEnd_kept : Yields (Kept s) (execSoftStartEnd s) := .next (.whileRunning s fun _ i => i)

theorem lineDieStop_kept : Yields (Kept s) (execLineDieStop s) := .next (.whileRunning s fun _ _ => Nat.zero_le 8)

theorem goodbyeSend_kept (w : Word) : Yields (Kept s) (execGoodbyeSend w s) :=
  .next (.whileRunning s fun _ i => LineDie.ok_of_le (LineDie.pushEvt_tlm _ _ _) i)

theorem regRun_kept (d : BitVec 12) : Yields (Kept s) (execRegRun d s) :=
  .next (.downFrame s _ fun _ i => LineDie.ok_of_le (LineDie.regulate_tlm d _) i)

theorem regOverride_kept (d : BitVec 12) (w : Word) : Yields (Kept s) (execRegOverride d w s) :=
  .next (.downFrame s _ fun _ i => LineDie.ok_of_le ((LineDie.endQuiet_tlm _ _ _).trans (LineDie.regulate_tlm d _)) i)

theorem regSoftStop_kept (w : Word) : Yields (Kept s) (execRegSoftStop w s) := by
  unfold execRegSoftStop
  split
  · refine .next (.downFrame s _ fun l i => ?_)
    have heard : l.heardReg.tlmQ.length ≤ l.tlmQ.length := LineDie.heard_tlm l
    dsimp only
    split
    · exact LineDie.ok_of_le ((LineDie.pushEvt_tlm _ _ _).trans heard) i
    · exact LineDie.ok_of_le heard i
  · exact .next (.refl s)

theorem downlinkTimeout_kept (w : Word) : Yields (Kept s) (execDownlinkTimeout w s) := by
  refine .next (.whileRunning s fun l i => ?_)
  split
  · exact i
  · exact i

theorem stopRestartTimeout_kept : Yields (Kept s) (execStopRestartTimeout s) := by
  refine .next (.whileRunning s fun l i => ?_)
  split
  · exact LineDie.ok_of_eq (LineDie.unhold_tlm _) i
  · exact i

theorem stopSymbolReceived_kept (w : Word) : Yields (Kept s) (execStopSymbolReceived w s) :=
  .guard fun _ => .of (((Keeps.refl s).onLink _ fun l => by rw [Link.send_loss]).whileRunning _
    fun _ i => by exact LineDie.ok_of_le ((LineDie.endQuiet_tlm _ _ _).trans (LineDie.pushEvt_tlm _ _ _)) i) (by simp)

theorem cfgReceived_kept (k : BitVec 4) (v : BitVec 12) : Yields (Kept s) (execCfgReceived k v s) := by
  refine .next (.downFrame s _ fun l i => ?_)
  have heard : l.heard.ok := LineDie.ok_of_le (LineDie.heard_tlm l) i
  split <;> exact heard

/-- A stop for a cause, on a condition. -/
theorem stopFor_kept (c : StopCause) (k : Byte) (w : Word) (on : LineDie → Bool) :
    Kept s (s.whileRunning fun l => if on l then l.stopFor c k w else l) := by
  refine .whileRunning s fun l i => ?_
  split
  · exact LineDie.ok_of_le (LineDie.stopFor_tlm _ _ _ _) i
  · exact i

theorem stopsAlways_kept (c : StopCause) (k : Byte) (w : Word) : Kept s (s.whileRunning fun l => l.stopFor c k w) :=
  .whileRunning s fun _ i => LineDie.ok_of_le (LineDie.stopFor_tlm _ _ _ _) i

theorem lift_kept (cs : List StopCause) (owed : Bool) : Kept s (s.whileRunning fun l => l.lift cs owed) :=
  .whileRunning s fun _ i => LineDie.ok_of_eq (LineDie.lift_tlm _ _ _) i

theorem overloadStop_kept (w : Word) (mw : Nat) : Yields (Kept s) (execOverloadStop w mw s) :=
  .next (stopFor_kept s .overload 0x06 w fun l => l.switching && decide (l.powerLimit ≤ mw))

theorem zeroCrossing_kept (w : Word) (v v' : BitVec 18) (peak : Nat) : Yields (Kept s) (execZeroCrossing w v v' peak s) :=
  .ite (.next (.whileRunning s fun _ i => LineDie.ok_of_le (LineDie.pushZc_tlm _ _ _ _) i))
    (.guard fun _ => .whileRunning s fun _ i => LineDie.ok_of_le (LineDie.pushZc_tlm _ _ _ _) i)

/-- An EVT frame, on a condition and after another change that leaves the TLM queue. -/
theorem pushEvt_kept (f : LineDie → LineDie) (hf : ∀ l, (f l).tlmQ = l.tlmQ) (c : LineDie → Bool) (k : Byte) (w : Word) :
    Kept s (s.whileRunning fun l => if c l then (f l).pushEvt k w else l) := by
  refine .whileRunning s fun l i => ?_
  split
  · exact LineDie.ok_of_le ((LineDie.pushEvt_tlm _ _ _).trans (congrArg List.length (hf l)).le) i
  · exact i

theorem lineLossDeclare_kept (w : Word) (v : BitVec 18) (now : Word) : Yields (Kept s) (execLineLossDeclare w v now s) :=
  .next (pushEvt_kept s (fun l => { l with
    present := false, periods := [], peaks := [], lastPos := none, lossRefs := [], negSeen := false, halfOk := false
    retCycles := 0, lossRepeat := some (w, 3) }) (fun _ => rfl)
    (fun l => l.present && l.qualifies w v && decide (l.lossWindow w ≤ (now - w).toNat)) 0x01 w)

theorem lineLossRepeat_kept : Yields (Kept s) (execLineLossRepeat s) := by
  refine .next (.whileRunning s fun l i => ?_)
  split
  · exact LineDie.ok_of_le (LineDie.pushEvt_tlm _ _ _) i
  · exact i

theorem dcModeEntry_kept (now : Word) (v : BitVec 18) : Yields (Kept s) (execDcModeEntry now v s) := by
  refine .next (.whileRunning s fun l i => ?_)
  split
  · exact i
  · exact i

theorem dcLineReturn_kept (w : Word) : Yields (Kept s) (execDcLineReturn w s) :=
  .next (pushEvt_kept s (fun l => { l with present := true }) (fun _ => rfl) (fun l => l.dc && !l.present) 0x02 w)

theorem lineReturnDeclare_kept : Yields (Kept s) (execLineReturnDeclare s) := by
  refine .next (.whileRunning s fun l i => ?_)
  split
  · split
    · exact LineDie.ok_of_le (LineDie.pushEvt_tlm _ _ _) i
    · exact i
  · exact i

/-- The ninth TLM frame is not queued (R69). -/
theorem tlmProduce_kept (v : BitVec 12) (h : BitVec 10) (t : BitVec 8) (k : BitVec 9) :
    Yields (Kept s) (execTlmProduce v h t k s) := by
  refine .next (.whileRunning s fun l i => ?_)
  split
  · exact i
  · refine LineDie.ok_of_le (LineDie.send_tlm _) ?_
    change (if 8 ≤ l.tlmQ.length then l.tlmQ else l.tlmQ ++ [_]).length ≤ 8
    split
    · exact i
    · rw [List.length_append]
      exact Nat.not_le.1 ‹_›

theorem quietReceived_kept (q : BitVec 3) (n : BitVec 13) (w : Word) : Yields (Kept s) (execQuietReceived q n w s) := by
  refine .next (.downFrame s _ fun l i => ?_)
  have heard := LineDie.heard_tlm l
  dsimp only
  split
  · exact LineDie.ok_of_le ((LineDie.pushQa_tlm _ _ _ _ _).trans heard) i
  · exact LineDie.ok_of_le heard i

theorem ldQuietOpen_kept (w : Word) : Yields (Kept s) (execLdQuietOpen w s) := by
  refine .next (.whileRunning s fun l i => ?_)
  split
  · split
    · exact i
    · exact LineDie.ok_of_le (LineDie.pushQa_tlm _ _ _ _ _) i
  · exact i

theorem ldQuietGuardEnd_kept (now : Word) : Yields (Kept s) (execLdQuietGuardEnd now s) := by
  refine .next (.whileRunning s fun l i => ?_)
  split
  · exact i
  · exact i

theorem endQuiet_kept (c : BitVec 3) (w : Word) : Kept s (s.whileRunning fun l => l.endQuiet c w) :=
  .whileRunning s fun _ i => LineDie.ok_of_le (LineDie.endQuiet_tlm _ _ _) i

end LineDie

/-! ## The link -/

section Link
variable (s : State)

/-- The effect of an uplink frame on the core die. -/
theorem Kept.upFrame (fr : UpFrame) {f : State → State} (hf : ∀ u, Kept u (f u)) : Kept s (s.upFrame fr f) := by
  have gone : Kept s (s.onLine fun l => { l with upFlight := none }.send) :=
    .of ((Keeps.refl s).onLine _ fun l i => LineDie.ok_of_le (LineDie.send_tlm _) i) (by simp)
  have seen := gone.trans (.of (Keeps.refl _).uplinkSeen (by simp))
  exact .ite (.ite (seen.trans (hf _)) (.ite seen gone)) (.refl s)

/-- A change of the core endpoint that leaves LOSS_COUNT. -/
theorem Kept.onLink (f : Link → Link) (hf : ∀ l, (f l).lossCount = l.lossCount) : Kept s (s.onLink f) :=
  .of ((Keeps.refl s).onLink f fun l => by rw [hf l]) (by simp)

theorem regFrameDue_kept (d : BitVec 12) : Yields (Kept s) (execRegFrameDue d s) :=
  .guard fun _ => .onLink s _ fun _ => Link.send_loss _

theorem vauxOvervoltage_kept : Yields (Kept s) (execVauxOvervoltage s) := .guard fun _ => .onLink s _ fun _ => by exact rfl

theorem vauxRecover_kept : Yields (Kept s) (execVauxRecover s) := by
  refine .next (.onLink s _ fun l => ?_)
  split
  · rfl
  · rfl

theorem frameDiscard_kept (d : LinkDir) (bits : List Bool) (n : Nat) : Yields (Kept s) (execFrameDiscard d bits n s) := by
  refine .guard fun _ => .when ?_ _ _ (.of ((Keeps.refl _).countDiscard n) (by simp))
  cases d
  case up => exact .of ((Keeps.refl s).onLine _ fun l i => by exact LineDie.ok_of_le (LineDie.send_tlm _) i) (by simp)
  case down => exact .onLink s _ fun _ => by exact Link.send_loss _

theorem takeTlm_kept (f : TlmFrame) : Kept s (s.takeTlm f) := by
  have noted : Kept s (s.onLink (Link.takeTlm f)) := .onLink s _ fun l => by rw [Link.takeTlm, Link.trackPeak_frame]
  rw [State.takeTlm_eq]
  exact Kept.when (Kept.when (Kept.when noted _ _ (.of ((Keeps.refl _).raise 4) (by simp))) _ _
    (.of ((Keeps.refl _).raise 6) (by simp))) _ _
    (.of (Keeps.refl _).linkUp (by simp))

theorem Link.takeZc_loss (f : ZcFrame) (l : Link) : (l.takeZc f).lossCount = l.lossCount := by
  unfold Link.takeZc
  dsimp only
  split
  · rfl
  · rfl

theorem zcReceived_kept (f : ZcFrame) : Yields (Kept s) (execZcReceived f s) := by
  refine .next (.upFrame s _ fun u => ?_)
  have taken : Kept u (u.onLink (Link.takeZc f)) := .onLink u _ (Link.takeZc_loss f)
  exact Kept.when ((Kept.when taken _ _ (.of ((Keeps.refl _).raise 6) (by simp))).trans
    (.of ((Keeps.refl _).trimZc f) (by simp))) _ _
    (.of (Keeps.refl _).trimResume (by simp))

theorem lineLossReceived_kept (w : Word) : Yields (Kept s) (execLineLossReceived w s) := by
  refine .next (.upFrame s _ fun u => .ite (.refl u) (.of ((Keeps.raise (Keeps.onFw (Keeps.recordLoss
    ((Keeps.refl u).onLink _ fun l => ?_) w) _) 0).trimAbort 3) (by simp)))
  change l.lossCount.toNat ≤ (satInc l.lossCount).toNat
  rw [satInc_half]
  exact Nat.le_min.2 ⟨Nat.lt_succ_iff.1 l.lossCount.isLt, Nat.le_succ _⟩

theorem lineReturnReceived_kept (w : Word) : Yields (Kept s) (execLineReturnReceived w s) :=
  .next (.upFrame s _ fun u => .of ((((Keeps.refl u).onLink _ fun _ => by exact Nat.le_refl _).onFw _).raise 1) (by simp))

theorem ldFaultReceived_kept (f : EvtFrame) : Yields (Kept s) (execLdFaultReceived f s) :=
  .ite (.next (.refl s)) (.next (.upFrame s _ fun u => .when (.onLink u _ fun _ => by exact rfl) _ _
    (.of ((Keeps.refl _).raise 5) (by simp))))

theorem beaconBurst_kept : Yields (Kept s) (execBeaconBurst s) := .guard fun _ => .of (Keeps.refl s).uplinkSeen (by simp)

theorem linkUplinkTimeout_kept : Yields (Kept s) (execLinkUplinkTimeout s) := by
  unfold execLinkUplinkTimeout
  split
  · split
    · exact .next (.ite (.of ((Keeps.refl s).linkGoes .down) (by simp)) (.of (Keeps.refl s).linkFault (by simp)))
    · exact .next (.of ((Keeps.refl s).linkGoes .down) (by simp))
    · exact .next (.refl s)
  · exact .next (.refl s)

theorem linkFaultReset_kept : Yields (Kept s) (execLinkFaultReset s) :=
  .guard fun _ => .of (((Keeps.refl s).resetSwitched 0x7).onDom _ fun _ i => by exact i) (by simp)

theorem beaconQualified_kept : Yields (Kept s) (execBeaconQualified s) :=
  .guard fun _ => .of ((((Keeps.refl s).onDom _ fun _ i => by exact i).wake 0 _).sysonAuto 3) (by simp)

theorem beaconDetectorClear_kept : Yields (Kept s) (execBeaconDetectorClear s) :=
  .next (.of ((Keeps.refl s).onDom _ fun _ i => by exact i) (by simp))

theorem qaOpenReceived_kept (q : BitVec 3) (w : Word) (n : Nat) : Yields (Kept s) (execQaOpenReceived q w n s) := by
  refine .next (.upFrame s _ fun u => .trans (.onLink u _ fun l => ?_) (.of (Keeps.refl _).chargerFollows (by simp)))
  split
  · rfl
  · rfl

theorem qaEndReceived_kept (q c : BitVec 3) (w : Word) : Yields (Kept s) (execQaEndReceived q c w s) :=
  .next (.upFrame s _ fun u => .onLink u _ fun _ => by exact rfl)

theorem qaRefusedReceived_kept (q c : BitVec 3) (w : Word) : Yields (Kept s) (execQaRefusedReceived q c w s) :=
  .next (.upFrame s _ fun u => .trans (.onLink u _ fun _ => by exact rfl)
    (.of ((Keeps.refl _).onLog _).chargerFollows (by simp)))

theorem coreQuietClose_kept (n : Nat) : Yields (Kept s) (execCoreQuietClose n s) := by
  unfold execCoreQuietClose
  split
  · exact .next (.ite (.of (Keeps.refl s).closeWindow (by simp)) (.refl s))
  · exact .next (.refl s)

theorem qwDroopOverride_kept (n v : Nat) : Yields (Kept s) (execQwDroopOverride n v s) := by
  unfold execQwDroopOverride
  split
  · exact .guard fun _ => .trans (.onLink s _ fun _ => by exact rfl) (.of ((Keeps.refl _).raise 2) (by simp))
  · exact .next (.refl s)

end Link

end Sys2Proof.Machine
end

section
/-! PROOFS. What the commands of the Log engine, the gauge and firmware keep, in the order of the model's files. -/

namespace Sys2Proof.Machine

/-! ## The Log engine -/

section Log
variable (s : State)

theorem soundingDue_kept (p : Path) : Yields (Kept s) (execSoundingDue p s) := by
  unfold execSoundingDue
  extract_lets t step drop running u v
  have ku : Kept s u := .of ((Keeps.refl s).onPath p _) (by simp +zetaDelta)
  have kv : Kept s v := ku.when _ _ (.of ((Keeps.refl u).onPath p _) (by simp))
  exact .ite (.ite (.next kv) (.ite (.next (kv.trans (.of (Keeps.refl v).startNext (by simp))))
    (.next (kv.trans (.of ((Keeps.refl v).bringOn .log) (by simp)))))) (.next (.refl s))

theorem soundingDelayedStart_kept (p : Path) : Yields (Kept s) (execSoundingDelayedStart p s) :=
  .guard fun _ => .of ((Keeps.refl s).startSounding p) (by simp)

theorem shotQuietRequest_kept (n : Nat) (w : Word) : Yields (Kept s) (execShotQuietRequest n w s) := by
  unfold execShotQuietRequest
  split
  · exact .next (.refl s)
  · extract_lets tag len u
    have ku : Kept s u := .of (((Keeps.refl s).onShot _).onLog _) (by simp +zetaDelta)
    exact .ite (.ite (.next (ku.trans (.of ((Keeps.refl u).grantLocally _ _ _) (by simp))))
      (.ite (.next ((ku.trans (.onLink u _ fun _ => by exact Link.send_loss _)).trans
        (.of (Keeps.refl _).chargerFollows (by simp))))
        (.next ku))) (.next (.refl s))

theorem shotFire_kept (n : Nat) (w : Word) (v : Nat) (l : Option Nat) : Yields (Kept s) (execShotFire n w v l s) := by
  unfold execShotFire
  split
  · exact .next (.refl s)
  · extract_lets stamp raw u base launch v
    have ku : Kept s u := .of ((Keeps.refl s).onLog _) (by simp +zetaDelta)
    have kv : Kept s v := ku.trans (.of (((Keeps.refl u).onShot _).onLog _) (by simp +zetaDelta))
    exact .ite (.ite (.next (ku.trans (.of ((Keeps.refl u).endShot _ _) (by simp))))
      (.next (kv.trans (.of ((Keeps.refl v).charge _ _) (by simp)))))
      (.next (.refl s))

theorem driveOvercurrent_kept (n ma : Nat) : Yields (Kept s) (execDriveOvercurrent n ma s) := by
  unfold execDriveOvercurrent
  split
  · split
    · exact .guard fun _ => .of (((Keeps.refl s).onLog _).endShot _ _) (by simp)
    · exact .next (.refl s)
  · exact .next (.refl s)

theorem captureOpen_kept (n : Nat) : Yields (Kept s) (execCaptureOpen n s) := by
  unfold execCaptureOpen
  split
  · exact .next (.refl s)
  · split
    · exact .next (.refl s)
    · extract_lets u base stop
      have ku : Kept s u := .of ((Keeps.refl s).onLog _) (by simp +zetaDelta)
      have stopped (c : Nat) : Yields (Kept s) (stop c) := .next (ku.trans (.of ((Keeps.refl u).endShot _ _) (by simp)))
      refine .ite (.ite (stopped 3) ?_) (.next (.refl s))
      split
      · exact .ite (.next (ku.trans (.of ((Keeps.refl u).onShot _) (by simp)))) (stopped 4)
      · exact stopped 4

theorem captureClose_kept (ws : List (BitVec 14)) : Yields (Kept s) (execCaptureClose ws s) := by
  unfold execCaptureClose
  split
  · exact .next (.refl s)
  · split
    · exact .next (.refl s)
    · exact .guard fun _ => .of (((Keeps.refl s).charge _ _).endShot _ _) (by simp)

theorem flowQuietExpire_kept (p : Path) : Yields (Kept s) (execFlowQuietExpire p s) :=
  .guard fun _ => .of (((Keeps.refl s).onPath p _).raise 74) (by simp)

theorem holdExpire_kept (p : Path) : Yields (Kept s) (execHoldExpire p s) :=
  .guard fun _ => .of (((Keeps.refl s).onPath p _).raise 72) (by simp)

theorem rtdSetStale_kept (p : Path) : Yields (Kept s) (execRtdSetStale p s) := .next (.of ((Keeps.refl s).onPath p _) (by simp))

theorem arrivalLearnDone_kept : Yields (Kept s) (execArrivalLearnDone s) := by
  unfold execArrivalLearnDone
  split
  · refine .ite ?_ (.next (.refl s))
    extract_lets found ds valid bad u
    have ku : Kept s u := .of ((Keeps.refl s).calEnds _ _) (by simp +zetaDelta)
    split
    · exact .next (ku.trans (.of (Keeps.refl u).startNext (by simp)))
    · exact .next (ku.trans (.of (((Keeps.refl u).onPath _ _).storeWrite _ _ _ _).startNext (by simp)))
  · exact .next (.refl s)

theorem leewayCalDone_kept : Yields (Kept s) (execLeewayCalDone s) := by
  unfold execLeewayCalDone
  split
  · exact .guard fun _ => .of ((Keeps.refl s).leewayEnds _ _) (by simp)
  · exact .next (.refl s)

theorem rtdSetDue_kept : Yields (Kept s) (execRtdSetDue s) := by
  unfold execRtdSetDue
  extract_lets ins now u
  have ku : Kept s u := .of ((Keeps.refl s).onLog _) (by simp +zetaDelta)
  exact .ite (.ite (.next ku) (.next (ku.trans (.of ((Keeps.refl u).bringOn .log) (by simp))))) (.next (.refl s))

theorem rtdConversionStart_kept : Yields (Kept s) (execRtdConversionStart s) := by
  unfold execRtdConversionStart
  split
  · exact .next (.refl s)
  · split
    · exact .next (.refl s)
    · exact .guard fun _ => .of ((((Keeps.refl s).onPath _ _).onPath _ _).onLog _) (by simp)

theorem rtdConversionDone_kept (n : Nat) : Yields (Kept s) (execRtdConversionDone n s) := by
  unfold execRtdConversionDone
  split
  · split
    · exact .guard fun _ => .of ((Keeps.refl s).rtdEnds _ _ _ _) (by simp)
    · exact .next (.refl s)
  · exact .next (.refl s)

theorem rtdDischargeTimeout_kept : Yields (Kept s) (execRtdDischargeTimeout s) := by
  unfold execRtdDischargeTimeout
  split
  · split
    · exact .guard fun _ => .of ((Keeps.refl s).rtdEnds _ _ _ _) (by simp)
    · exact .next (.refl s)
  · exact .next (.refl s)

theorem totalsPeriodicSave_kept : Yields (Kept s) (execTotalsPeriodicSave s) :=
  .guard fun _ => .of ((Keeps.refl s).saveTotals _) (by simp)

theorem powerfailSave_kept : Yields (Kept s) (execPowerfailSave s) :=
  .guard fun _ => .of (((Keeps.refl s).saveTotals _).onFw _) (by simp)

theorem logQuotaWindow_kept : Yields (Kept s) (execLogQuotaWindow s) := by
  refine .next (.trans (t := (List.finRange 4).foldl (fun t b => t.onBerth b _) s) (.of ?_ ?_)
    (.of (Keeps.refl _).startNext (by simp)))
  · exact Keeps.foldl _ (fun t b => (Keeps.refl t).onBerth b _ fun _ i => by exact i) _ (.refl s)
  · exact foldl_bindings s _ (fun t b => t.onBerth_bindings b _) _

end Log

/-! ## The gauge -/

section Gauge
variable (s : State)

theorem gaugeConversionEnd_kept (i : Int) : Yields (Kept s) (execGaugeConversionEnd i s) := by
  unfold execGaugeConversionEnd
  extract_lets hit a quiet opens b c d e f
  refine .guard fun _ => ?_
  have ka : Kept s a := .of ((Keeps.refl s).onGauge _ fun g _ => Gauge.add_ok i g) (by simp +zetaDelta)
  have kb : Kept s b := ka.trans (.of ((Keeps.refl a).onGauge _ fun g ok =>
    Gauge.ok_of_acc g _ ((Gauge.learnStep_acc _ _).trans (Gauge.rest_acc _ _)) ok) (by simp +zetaDelta))
  have kc : Kept s c := kb.when _ _ (.of ((Keeps.refl b).learnDisq 1) (by simp))
  have kd : Kept s d := kc.when _ _ (.of ((Keeps.refl c).learnDisq 10) (by simp))
  have ke : Kept s e := kd.when _ _ (.of ((Keeps.refl d).learnDisq 11) (by simp))
  have kf : Kept s f := ke.trans (.of ((Keeps.refl e).onGauge _ fun g ok =>
    Gauge.ok_of_acc g _ (by split <;> rfl) ok) (by simp +zetaDelta))
  exact kf.trans (.of ((Keeps.refl f).socLevels.eocCheck.onGauge _ fun g ok =>
    Gauge.ok_of_acc g _ (Gauge.leaveLevels_acc g) ok) (by simp))

theorem restWindowComplete_kept : Yields (Kept s) (execRestWindowComplete s) := by
  unfold execRestWindowComplete
  split
  · exact .guard fun _ => .of ((Keeps.refl s).onGauge _ fun _ i => by exact i) (by simp)
  · exact .next (.refl s)

theorem gaugeTelemetry_kept (v : BitVec 14) (n : Nat) : Yields (Kept s) (execGaugeTelemetry v n s) := by
  unfold execGaugeTelemetry
  extract_lets a b c d g
  refine .guard fun _ => ?_
  have kc : Kept s c :=
    .of ((((Keeps.refl s).takeReading 1 _ n).zoneResult _).onGauge _ fun _ i => by exact i) (by simp +zetaDelta)
  have kd : Kept s d := kc.trans (.of ((Keeps.refl c).cellLevels.onGauge _ fun g ok =>
    Gauge.ok_of_acc g _ (Gauge.leaveLevels_acc g) ok) (by simp +zetaDelta))
  exact kd.trans (.of ((Keeps.refl d).gaugeRecord _ _ _ _) (by simp))

theorem fixAttempt_kept (ws : List (BitVec 14)) (n : Nat) : Yields (Kept s) (execFixAttempt ws n s) := by
  have fixed (u : State) (f : Gauge → Gauge) (hf : ∀ g, (f g).acc = g.acc) : Kept u (u.onGauge f) :=
    .of ((Keeps.refl u).onGauge f fun g ok => Gauge.ok_of_acc g _ (hf g) ok) (by simp)
  unfold execFixAttempt
  split
  · dsimp only
    refine .next (.trans ?_ (.of ((Keeps.refl _).gaugeRecord _ _ _ _) (by simp)))
    refine .trans ?_ (.of ((Keeps.refl _).fill _) (by simp))
    have read : Kept s (s.takeReading 16 (ws.map BitVec.toNat).sum n) := .of ((Keeps.refl s).takeReading _ _ _) (by simp)
    split
    · exact read.trans (fixed _ _ fun _ => by exact rfl)
    · refine .trans ?_ (.of ((Keeps.refl _).learnFix.raise 82) (by simp))
      exact read.trans (((fixed _ _ fun _ => by exact rfl).trans (fixed _ _ fun _ => by exact rfl)).trans
        (fixed _ _ fun _ => by exact rfl))
  · exact .next (.refl s)

theorem learnAgeExpire_kept : Yields (Kept s) (execLearnAgeExpire s) := .guard fun _ => .of ((Keeps.refl s).learnDisq 9) (by simp)

end Gauge

/-! ## Firmware -/

section Firmware
variable (s : State)

theorem dieTemp_kept : Kept s (s.raise 95) := .of ((Keeps.refl s).raise 95) (by simp)
theorem flashEcc_kept : Kept s (s.raise 94) := .of ((Keeps.refl s).raise 94) (by simp)

theorem firmwareRequestReset_kept : Yields (Kept s) (execFirmwareRequestReset s) :=
  .guard fun _ => .of ((Keeps.refl s).resetSwitched _) (by simp)

theorem fwProbationEnd_kept : Yields (Kept s) (execFwProbationEnd s) :=
  .guard fun _ =>
    .of ((((Keeps.refl s).onFlash _ (fun _ i => by exact i) fun _ => by exact rfl).onFw _).logWrite _ _ _ _) (by simp)

theorem firmwareTakeRequest_kept (b : Fin 4) : Yields (Kept s) (execFirmwareTakeRequest b s) :=
  .guard fun _ => .of ((((Keeps.refl s).onDom _ fun _ i => by exact i).onFw _).checkRequest b _) (by simp)

theorem macLockExpire_kept (b : Fin 4) : Yields (Kept s) (execMacLockExpire b s) :=
  .next (.of ((Keeps.refl s).onBerth b _ fun _ i => by exact i) (by simp))

/-- A start of firmware keeps all but the charter and the bindings, which it puts in force. -/
theorem firmwareStart_keeps : Yields (Keeps s) (execFirmwareStart s) := by
  unfold execFirmwareStart
  split
  · extract_lets cold a b beacon c d e f
    have ka : Keeps s a := .ite (Keeps.refl s).coldLoad (Keeps.refl s).applyCharter.loadStore
    have kb : Keeps s b := ka.loadTrim.onFw _
    have kc : Keeps s c := kb.onDom _ fun _ i => by exact i
    have kd : Keeps s d := kc.when _ _ ((Keeps.refl c).bringOn .pwr)
    have ke : Keeps s e := kd.when _ _ ((Keeps.refl d).bringOn .memM)
    have kf : Keeps s f := ke.when _ _ (Keeps.refl e).restoreHif
    exact .next (kf.memUsed.sysReset.flushRecords.when _ _ (Keeps.refl _).trimResume)
  · exact .next (.refl s)

theorem State.replaceCharter_bind (n : Fin 4) (e : Entry) : (s.replaceCharter n e).dom.bind = s.dom.bind :=
  (congrArg Prod.snd
    (s.writeSpare_bindings { serial := s.fw.charter.serial + 1, entries := s.fw.charter.entries.set n e }) :)

theorem State.unsealBerth_bind (n : Fin 4) : (s.unsealBerth n).dom.bind = s.dom.bind := s.replaceCharter_bind n _

theorem State.afterEntry_bind (e : LogEntry) : (s.afterEntry e).dom.bind = s.dom.bind := by
  have bind {t u : State} (h : u.bindings = t.bindings) : u.dom.bind = t.dom.bind := congrArg Prod.snd h
  unfold State.afterEntry
  extract_lets n u
  have hu : u.dom.bind = s.dom.bind := bind (by simp +zetaDelta)
  split
  · refine Eq.trans (bind (State.answerWaiter_bindings _ _ _)) (Eq.trans (bind (State.raise_bindings _ 88)) ?_)
    exact (State.replaceCharter_bind u _ _).trans hu
  · refine Eq.trans (bind ?_) hu
    split
    · simp
    · split <;> simp

/-- A durable entry may put a charter in force; it leaves BIND. -/
theorem logbookEntryDurable_keeps : Yields (fun t => Keeps s t ∧ t.dom.bind = s.dom.bind) (execLogbookEntryDurable s) := by
  unfold execLogbookEntryDurable
  split
  · exact .next ⟨.refl s, rfl⟩
  · refine .next ⟨((((Keeps.refl s).onFw _).bookAdd _).afterEntry _).answerTotals, ?_⟩
    exact (congrArg Prod.snd (State.answerTotals_bindings _)).trans (State.afterEntry_bind _ _)

theorem configStoreDurable_keeps : Yields (fun t => Keeps s t ∧ t.dom.bind = s.dom.bind) (execConfigStoreDurable s) := by
  unfold execConfigStoreDurable
  split
  · exact .next ⟨.refl s, rfl⟩
  · extract_lets u v
    have ku : Keeps s u := ((Keeps.refl s).onFw _).saveStore _
    have kv : Keeps s v := ku.when _ _ ((Keeps.refl u).answer _ _ _)
    have hv : v.dom.bind = s.dom.bind := congrArg Prod.snd (show v.bindings = s.bindings by simp +zetaDelta)
    split
    case h_1 n _ => exact .next ⟨(kv.unsealBerth n).logWrite _ _ _ _, (v.unsealBerth_bind n).trans hv⟩
    case h_2 => exact .next ⟨kv, hv⟩

end Firmware

end Sys2Proof.Machine
end

section
/-! PROOFS. What the mailbox commands keep, in the order of their codes. -/

namespace Sys2Proof.Machine

/-! ## The frame of a mailbox command -/

section Frame
variable {s t : State}

theorem Kept.answer (h : Kept s t) (b : Fin 4) (st : Status) (r : List Byte) : Kept s (t.answer b st r) :=
  h.trans (.of ((Keeps.refl t).answer b st r) (by simp))

theorem Kept.ok (h : Kept s t) (b : Fin 4) (r : List Byte) : Kept s (t.ok b r) := h.answer b .ok r

theorem Kept.waits (h : Kept s t) (b : Fin 4) : Kept s (t.waits b) := h.trans (.of ((Keeps.refl t).waits b) (by simp))

/-- A refusal of checks 8 and 9 is an answer, and what is past them is the command's own (R273). -/
theorem State.checked_of {P : State → Prop} {b : Fin 4} {d i l : Bool} {bad : Option Nat} {f : State → State}
    (ha : ∀ st r, P (s.answer b st r)) (hf : P (f s)) : P (s.checked b d i l bad f) := by
  unfold State.checked
  split
  · exact ha _ _
  · split
    · exact ha _ _
    · split
      · exact ha _ _
      · split
        · exact ha _ _
        · exact hf

/-- So is a refusal of check 10. -/
theorem State.unless_of {P : State → Prop} {b : Fin 4} {cs : List (Bool × Status)} {f : State → State}
    (ha : ∀ st r, P (s.answer b st r)) (hf : P (f s)) : P (s.unless b cs f) := by
  unfold State.unless
  split
  · exact ha _ _
  · exact hf

theorem Kept.checked {b : Fin 4} {d i l : Bool} {bad : Option Nat} {f : State → State} (hf : Kept s (f s)) :
    Kept s (s.checked b d i l bad f) := State.checked_of (fun st r => (Kept.refl s).answer b st r) hf

theorem Kept.unless {b : Fin 4} {cs : List (Bool × Status)} {f : State → State} (hf : Kept s (f s)) :
    Kept s (s.unless b cs f) := State.unless_of (fun st r => (Kept.refl s).answer b st r) hf

/-- Without its request in hand a row does nothing. -/
theorem Yields.serve_of {P : State → Prop} {b : Fin 4} {cmd : Half} {f : Request → State → State} (h : P s)
    (hf : ∀ rq, P (f rq s)) : Yields P (s.serve b cmd f) := by
  unfold State.serve
  split
  · exact .ite (.next (hf _)) (.next h)
  · exact .next h

theorem Yields.serve {b : Fin 4} {cmd : Half} {f : Request → State → State} (hf : ∀ rq, Kept s (f rq s)) :
    Yields (Kept s) (s.serve b cmd f) := Yields.serve_of (.refl s) hf

theorem Yields.pathCmd {b : Fin 4} {cmd : Half} {need : Bool} {sealed_ : Request → State → Bool} {len : Nat}
    {bad : List Byte → Option Nat} {f : Path → Request → State → State} (hf : ∀ x rq, Kept s (f x rq s)) :
    Yields (Kept s) (s.pathCmd b cmd need sealed_ len bad f) := by
  refine .serve fun rq => .checked ?_
  split
  · exact hf _ rq
  · exact .refl s

theorem Yields.pathRead (s : State) (b : Fin 4) (cmd : Half) (f : Path → State → List Byte) :
    Yields (Kept s) (s.pathRead b cmd f) := .pathCmd fun _ _ => (Kept.refl s).ok b _

theorem Kept.openRead (s : State) (b : Fin 4) (rq : Request) (r : State → List Byte) : Kept s (s.openRead b rq r) :=
  .checked ((Kept.refl s).ok b _)

end Frame

/-! ## System, routing and the logbook (0x01xx) -/

section Commands
variable (s : State) (b : Fin 4)

theorem reset_kept : Yields (Kept s) (execReset b s) :=
  .serve fun _ => .checked (.of ((((Keeps.refl s).saveTotals _).waits b).onFw _).answerTotals (by simp))

theorem routeSet_kept : Yields (Kept s) (execRouteSet b s) :=
  .serve fun _ => .checked (.ok (.of (((Keeps.refl s).need .hif).onCtl _) (by simp)) b _)

theorem logRead_kept : Yields (Kept s) (execLogRead b s) := .serve fun _ => .checked (.ok (.refl s) b _)

/-! ## Charters and seals (0x02xx) -/

theorem charterRead_kept : Yields (Kept s) (execCharterRead b s) := by
  refine .serve fun rq => .checked ?_
  split
  · exact .answer (.refl s) b _ _
  · exact .ok (.refl s) b _

theorem charterStage_kept : Yields (Kept s) (execCharterStage b s) := by
  refine .serve fun rq => .checked ?_
  extract_lets st old put
  have staged (key : List Byte) (inc : BitVec 4) (parts : List (Fin 4 × List Byte)) : Kept s (put key inc parts) :=
    .of (((Keeps.refl s).onFw _).ok b _) (by simp +zetaDelta)
  split
  · exact staged _ _ _
  · exact staged _ _ _
  · split
    · exact .answer (.refl s) b _ _
    · exact .ite (.answer (.refl s) b _ _) (staged _ _ _)

theorem charterCommit_kept : Yields (Kept s) (execCharterCommit b s) := by
  refine .serve fun rq => .checked ?_
  split
  · exact .answer (.refl s) b _ _
  · exact .ite (.answer (.refl s) b _ _) (.ite (.answer (.refl s) b _ _)
      (.unless (.of ((Keeps.refl s).commitCharter b _) (by simp))))

theorem charterDiscard_kept : Yields (Kept s) (execCharterDiscard b s) :=
  .serve fun _ => .checked (.ok (.of ((Keeps.refl s).onFw _) (by simp)) b _)

theorem seal_kept : Yields (Kept s) (execSeal b s) :=
  .serve fun _ => .checked (.ite (.of ((Keeps.refl s).macFail b _) (by simp))
    (.unless (.waits (.of ((Keeps.refl s).logWrite _ _ _ _) (by simp)) b)))

/-- `t` keeps what `Kept` says, but for a new AUDIT_CTR. -/
def KeptButAudit (s t : State) : Prop := ∃ n, Kept { s with flash := { s.flash with auditCtr := n } } t

/-- UNSEAL alone changes AUDIT_CTR (R260), and then keeps what the others keep. -/
theorem unseal_kept : Yields (KeptButAudit s) (execUnseal b s) := by
  have answered (st : Status) (r : List Byte) : KeptButAudit s (s.answer b st r) :=
    ⟨s.flash.auditCtr, (Kept.refl s).answer b st r⟩
  refine Yields.serve_of ⟨s.flash.auditCtr, .refl s⟩ fun rq => State.checked_of answered (State.unless_of answered ?_)
  let u : State := { s with flash := { s.flash with auditCtr := s.flash.auditCtr + 1 } }
  exact ⟨s.flash.auditCtr + 1, Kept.waits (s := u) (.of (((Keeps.refl u).logWrite _ _ _ _).abortCal _) (by simp)) b⟩

/-! ## Policies, the converter, time and trim (0x03xx, 0x04xx) -/

theorem pdPolicy_kept : Yields (Kept s) (execPdPolicy b s) :=
  .serve fun _ => .checked (.ok (.of ((((Keeps.refl s).onDom _ fun _ i => by exact i).onBerth b _ fun _ i => by exact i).holdDomains
    _) (by simp)) b _)

theorem wakePolicy_kept : Yields (Kept s) (execWakePolicy b s) :=
  .serve fun _ => .checked (.ok (.of
    ((((((Keeps.refl s).need .hif).onDom _ fun _ i => by exact i).onEv _).onEv _).onFw _) (by simp)) b _)

theorem policyGet_kept : Yields (Kept s) (execPolicyGet b s) := .serve fun _ => .checked (.ok (.refl s) b _)

theorem convCtl_kept (a : Nat) (f : Link → Link) (hf : ∀ l, (f l).lossCount = l.lossCount) : Yields (Kept s) (s.convCtl b a f) :=
  .serve fun _ => .ite (.refl s) (.checked (.unless (.ok (.onLink s f hf) b _)))

/-- The staged time is written only while no commit is pending, so a pending commit stands for a time that passed (R127). -/
theorem timeSet_kept : Yields (Kept s) (execTimeSet b s) := by
  refine .serve fun rq => .checked ?_
  unfold State.unless
  split
  case h_1 => exact .answer (.refl s) b _ _
  case h_2 free =>
    have idle : s.cal.commit.isSome = false ∧ s.cal.shift.isSome = false := by simpa [Cal.busy] using free
    have staged : Keeps s (s.onCal (Cal.staging rq.payload)) :=
      { Keeps.refl s with cal := fun i => ⟨i.1, fun h => absurd (idle.1.symm.trans h) Bool.false_ne_true⟩ }
    exact .ite (.waits (.of (staged.calCmd _) (by simp)) b) (.answer (.of (staged.calCmd _) (by simp)) b _ _)

theorem timeShift_kept : Yields (Kept s) (execTimeShift b s) :=
  .serve fun _ => .checked (.unless (.waits (.of ((Keeps.refl s).shiftCmd _) (by simp)) b))

theorem trimPolicy_kept : Yields (Kept s) (execTrimPolicy b s) :=
  .serve fun _ => .checked (.unless (.waits (.of ((((Keeps.refl s).onFw _).applyTrim _).storeWrite _ _ _ _) (by simp)) b))

theorem trimGet_kept : Yields (Kept s) (execTrimGet b s) := .serve fun _ => .checked (.ok (.refl s) b _)

/-! ## The gauge (0x05xx) -/

theorem gaugeCfgWrite_kept : Yields (Kept s) (execGaugeCfgWrite b s) :=
  .serve fun _ => .checked (.unless (.ok (.of ((Keeps.refl s).gaugeConfig _) (by simp)) b _))

theorem gaugeCfgRead_kept : Yields (Kept s) (execGaugeCfgRead b s) := .serve fun _ => .checked (.unless (.ok (.refl s) b _))

theorem Gauge.writeProfile_acc (p : List Byte) (g : Gauge) : (g.writeProfile p).acc = g.acc := by
  simp only [Gauge.writeProfile, apply_ite Gauge.acc, ite_self]

theorem gaugeProfile_kept : Yields (Kept s) (execGaugeProfile b s) :=
  .serve fun _ => .checked (.unless (.ok (.of ((Keeps.refl s).onGauge _ fun g i =>
    Gauge.ok_of_acc g _ (Gauge.writeProfile_acc _ g) i) (by simp)) b _))

theorem gaugeSave_kept : Yields (Kept s) (execGaugeSave b s) :=
  .serve fun _ => .checked (.unless (.ok (.of ((Keeps.refl s).onGauge _ fun _ i => by exact i) (by simp)) b _))

theorem gaugeRestore_kept : Yields (Kept s) (execGaugeRestore b s) := by
  refine .serve fun _ => .checked (.unless ?_)
  split
  · exact .answer (.refl s) b _ _
  · exact .ok (.of ((Keeps.refl s).gaugeRestore _) (by simp)) b _

/-! ## The paths (0x06xx) -/

/-- An accepted write of a path's item. -/
theorem Kept.acceptPath {s : State} {b : Fin 4} {cs : List (Bool × Status)} (x : Path) (p : PathSt)
    (f : PathItems → PathItems) : Kept s (s.unless b cs (State.acceptPath b x p f)) :=
  .unless (.of ((Keeps.refl s).acceptPath b x p f) (by simp))

theorem acqWrite_kept : Yields (Kept s) (execAcqWrite b s) := .pathCmd fun _ _ => .acceptPath _ _ _

theorem flowWrite_kept : Yields (Kept s) (execFlowWrite b s) := by
  refine .serve fun _ => .checked ?_
  split
  · exact .refl s
  · exact .acceptPath _ _ _

theorem rtdWrite_kept : Yields (Kept s) (execRtdWrite b s) :=
  .serve fun _ => .checked (.unless (.waits (.of (((Keeps.refl s).onLog _).storeWrite _ _ _ _) (by simp)) b))

theorem rtdRead_kept : Yields (Kept s) (execRtdRead b s) := .serve fun _ => .checked (.ok (.refl s) b _)

theorem cardWrite_kept : Yields (Kept s) (execCardWrite b s) := .pathCmd fun _ _ => .acceptPath _ _ _
theorem fluidWrite_kept : Yields (Kept s) (execFluidWrite b s) := .pathCmd fun _ _ => .acceptPath _ _ _

theorem pathPorts_kept : Yields (Kept s) (execPathPorts b s) :=
  .pathCmd fun _ _ => .ite (.answer (.refl s) b _ _) (.acceptPath _ _ _)

theorem arrivalLearn_kept : Yields (Kept s) (execArrivalLearn b s) :=
  .pathCmd fun _ _ => .unless (.ok (.of (((Keeps.refl s).onLog _).need .log).startNext (by simp)) b _)

theorem leewayCal_kept : Yields (Kept s) (execLeewayCal b s) :=
  .pathCmd fun x _ => .unless (.ok (.of ((((Keeps.refl s).onLog _).onPath x _).need .log) (by simp)) b _)

theorem calResult_kept : Yields (Kept s) (execCalResult b s) := by
  refine .pathCmd fun _ _ => .ite (.answer (.refl s) b _ _) ?_
  split
  · exact .answer (.refl s) b _ _
  · exact .answer (.refl s) b _ _

theorem totalsRead_kept : Yields (Kept s) (execTotalsRead b s) :=
  .pathCmd fun _ _ => .ok (.of ((Keeps.refl s).need .memM) (by simp)) b _

theorem totalsReset_kept : Yields (Kept s) (execTotalsReset b s) :=
  .pathCmd fun x _ => .unless (.waits (.of ((((Keeps.refl s).need .memM).onPath x _).totalsEntry _ x) (by simp)) b)

/-! ## The fluid (0x07xx) -/

theorem w2w_kept : Yields (Kept s) (execW2w b s) := by
  refine .pathCmd fun _ _ => ?_
  have awake : Kept s (s.need .memM) := .of ((Keeps.refl s).need .memM) (by simp)
  dsimp only
  split
  · refine .ite (awake.answer b _ _) (.ok (awake.when _ _ ?_) b _)
    exact .of ((Keeps.refl _).record _ _ _ _ _ _) (by simp)
  · exact awake.answer b _ _

theorem fluidProps_kept : Yields (Kept s) (execFluidProps b s) := by
  refine .pathCmd fun _ _ => ?_
  dsimp only
  split
  · exact .answer (.refl s) b _ _
  · exact .ok (.refl s) b _

/-! ## Firmware and the probe (0x08xx, 0x09xx) -/

/-- A change of the inactive bank touches neither the logbook nor AUDIT_CTR. -/
theorem Keeps.onInactive {s t : State} (h : Keeps s t) (g : Bank → Bank) : Keeps s (t.onFlash (Flash.onInactive g)) := by
  refine h.onFlash _ (fun f i => ?_) fun f => ?_
  all_goals
    unfold Flash.onInactive
    split
  · exact i
  · exact i
  · rfl
  · rfl

theorem fwBegin_kept : Yields (Kept s) (execFwBegin b s) :=
  .serve fun _ => .checked (.unless (.ok (.of (((((Keeps.refl s).onInactive _).onFw _).writesFlash b).raise 90) (by simp)) b _))

theorem fwData_kept : Yields (Kept s) (execFwData b s) := by
  refine .serve fun _ => .checked ?_
  split
  · exact .answer (.refl s) b _ _
  · exact .ite (.answer (.refl s) b _ _) (.unless (.ok (.of ((((Keeps.refl s).onFw _).writesFlash b).raise 90) (by simp)) b _))

theorem fwVerify_kept : Yields (Kept s) (execFwVerify b s) := by
  refine .serve fun _ => .checked ?_
  split
  · exact .answer (.refl s) b _ _
  · exact .ite (.answer (.refl s) b _ _) (.ok (.of ((((Keeps.refl s).onInactive _).onFw _).raise 90) (by simp)) b _)

theorem fwActivate_kept : Yields (Kept s) (execFwActivate b s) := by
  have next : Keeps s (s.onFlash fun f => { f with nextB := !f.activeB }) :=
    (Keeps.refl s).onFlash _ (fun _ i => i) fun _ => rfl
  exact .serve fun _ => .checked (.ite (.of ((((next.saveTotals 0x01).raise 90).ok b _).onFw _) (by simp))
    (.answer (.refl s) b _ _))

theorem fwInfo_kept : Yields (Kept s) (execFwInfo b s) := .serve fun _ => .checked (.ok (.refl s) b _)

theorem probeCfg_kept : Yields (Kept s) (execProbeCfg b s) :=
  .serve fun _ => .checked (.ok (.of (((Keeps.refl s).need .hif).onTw _) (by simp)) b _)

theorem probeRead_kept : Yields (Kept s) (execProbeRead b s) :=
  .serve fun _ => .checked (.unless (.of ((Keeps.refl s).probeStart b _ _ _ _ _) (by simp)))

theorem probeWrite_kept : Yields (Kept s) (execProbeWrite b s) :=
  .serve fun _ => .checked (.unless (.of ((Keeps.refl s).probeStart b _ _ _ _ _) (by simp)))

end Commands

end Sys2Proof.Machine
end

section
/-! PROOFS. What the commands of the sources and the charger, of SPI, of the two wires and of the probe keep. -/

namespace Sys2Proof.Machine

/-! ## Straps, VDDIO and nRST, the sources and the charger -/

section Power
variable (s : State)

theorem addrStrapLatch_kept (mv : Nat) : Yields (Kept s) (execAddrStrapLatch mv s) :=
  .guard fun _ => .of (((Keeps.refl s).onTw _).onBin _ fun _ i => by exact i) (by simp)

theorem vddioLoss_kept : Yields (Kept s) (execVddioLoss s) := .next (.of ((Keeps.refl s).onSpi _) (by simp))

theorem vddioReturn_kept : Yields (Kept s) (execVddioReturn s) := .next (.of ((Keeps.refl s).onSpi _) (by simp))

theorem nrstReset_kept : Yields (Kept s) (execNrstReset s) :=
  .ite (.next (.refl s)) (.next (.of
    ((((Keeps.refl s).onSpi _).onTw _).resetSwitched _ |>.onDom _ fun _ i => by exact i) (by simp)))

theorem sourceValid_kept (x : Source) (mv : Nat) : Yields (Kept s) (execSourceValid x mv s) :=
  .guard fun _ => .of ((Keeps.refl s).onPower _) (by simp)

theorem sourceInvalid_kept (x : Source) (mv : Nat) : Yields (Kept s) (execSourceInvalid x mv s) := by
  refine .ite (.next (Kept.when (Kept.when (.of ((Keeps.refl s).onPower _) (by simp)) _ _ (.of ?_ (by simp))) _ _
    (.of ?_ (by simp))))
    (.next (.of ((Keeps.refl s).onPower _) (by simp)))
  · exact ((Keeps.refl _).onPower _).raise 12
  · exact (Keeps.refl _).sourceChange _ none

theorem sourceSwitchClose_kept : Yields (Kept s) (execSourceSwitchClose s) := by
  unfold execSourceSwitchClose
  split
  · exact .ite (.next (.refl s)) (.next (.of ((Keeps.refl s).sourceChange _ _) (by simp)))
  · exact .next (.refl s)

theorem srTurnOn_kept (v : Nat) : Yields (Kept s) (execSrTurnOn v s) := .next (.of ((Keeps.refl s).onPower _) (by simp))

theorem srTurnOff_kept : Yields (Kept s) (execSrTurnOff s) := .next (.of ((Keeps.refl s).onPower _) (by simp))

theorem srMaxOnTime_kept : Yields (Kept s) (execSrMaxOnTime s) := .next (.of ((Keeps.refl s).onPower _) (by simp))

theorem chgStateTest_kept (vb vs : Nat) (i : Half) : Yields (Kept s) (execChgStateTest vb vs i s) := by
  refine .ite (.next ?_) (.next (.of (Keeps.refl s).chargerGate (by simp)))
  exact Kept.trans (Kept.when (.of ((Keeps.refl s).onPower _) (by simp)) _ _ (.of ((Keeps.refl _).onPower _) (by simp)))
    (.of ((Keeps.refl _).chgEnter _) (by simp))

theorem chgTermination_kept : Yields (Kept s) (execChgTermination s) := .guard fun _ => .of ((Keeps.refl s).chgEnter _) (by simp)

theorem chgSafetyTimerExpire_kept (t : ChgTimer) : Yields (Kept s) (execChgSafetyTimerExpire t s) := by
  cases t
  case pre => exact .guard fun _ => .of (((Keeps.refl s).onPower _).chgEnter _) (by simp)
  case fast => exact .guard fun _ => .of (((Keeps.refl s).onPower _).chgEnter _) (by simp)

theorem chgOvercurrent_kept : Yields (Kept s) (execChgOvercurrent s) :=
  .guard fun _ => .of (((Keeps.refl s).onPower _).raise 10) (by simp)

theorem chgOvertemp_kept : Yields (Kept s) (execChgOvertemp s) :=
  .guard fun _ => .of (((Keeps.refl s).onPower _).raise 10) (by simp)

theorem chgOvertempResume_kept : Yields (Kept s) (execChgOvertempResume s) := .next (.of ((Keeps.refl s).onPower _) (by simp))

theorem vaonToVbak_kept : Yields (Kept s) (execVaonToVbak s) :=
  .ite (.next (.refl s)) (.next (.trans (Kept.when (.of ((Keeps.refl s).onPower _) (by simp)) _ _
    (.of ((Keeps.refl _).stampFso _) (by simp)))
    (.of ((Keeps.refl _).learnDisq 6) (by simp))))

theorem vaonToVsys_kept : Yields (Kept s) (execVaonToVsys s) := by
  refine .guard fun _ => ?_
  exact Kept.trans (Kept.when (.of ((Keeps.refl s).onPower _) (by simp)) _ _
    (.of (((Keeps.refl _).onPower _).raise 14) (by simp)))
    (.of ((Keeps.refl _).onDom _ fun _ i => by exact i).startWanted (by simp))

theorem vbakCheck_kept (mv : Nat) : Yields (Kept s) (execVbakCheck mv s) :=
  .guard fun _ => .of (((Keeps.refl s).onPower _).raise 13) (by simp)

end Power

/-! ## SPI -/

section Spi
variable (s : State)

/-- A command in the middle of a transfer. -/
theorem Kept.withXfer {f : Xfer → State → State} (hf : ∀ x, Kept s (f x s)) : Kept s (s.withXfer f) := by
  unfold State.withXfer
  split
  · exact hf _
  · exact .refl s

theorem spiCsFall_kept (second sck : Bool) : Yields (Kept s) (execSpiCsFall second sck s) := by
  have low : Keeps s (s.onSpi (Spi.setCs second true)) := (Keeps.refl s).onSpi _
  have same : (s.onSpi (Spi.setCs second true)).bindings = s.bindings := s.onSpi_bindings _
  refine .ite (.next (.refl s)) (.ite (.next (.of (low.onSpi _) (by simp)))
    (.ite (.next (.of low (by simp))) (.ite (.next (.of ?_ (by simp))) (.next (.of ?_ (by simp))))))
  · exact low.csClash 0
  · exact low.putXfer _

theorem spiLive_kept : Yields (Kept s) (execSpiLive s) :=
  .next (.withXfer s fun _ => .ite (.refl s) (.of ((Keeps.refl s).putXfer _) (by simp)))

theorem spiWriteByte_kept (a : Half) (b : Byte) : Yields (Kept s) (execSpiWriteByte a b s) :=
  .next (.withXfer s fun _ => .ite (.of (((Keeps.refl s).xferWrite _ _ _).putXfer _) (by simp)) (.refl s))

theorem spiReadByte_kept (a : Half) (c : Bool) : Yields (Kept s) (execSpiReadByte a c s) :=
  .next (.withXfer s fun _ => .ite (.of (((Keeps.refl s).xferRead _ _ _).putXfer _) (by simp)) (.refl s))

theorem spiRing_kept (n : Fin 4) : Yields (Kept s) (execSpiRing n s) :=
  .next (.withXfer s fun _ => .ite (.of (((Keeps.refl s).putXfer _).ring _ n) (by simp)) (.refl s))

theorem spiBadOpcode_kept (op : Byte) : Yields (Kept s) (execSpiBadOpcode op s) :=
  .next (.withXfer s fun _ => .ite (.of ((((Keeps.refl s).putXfer _).onSpi _).raise 42) (by simp)) (.refl s))

theorem spiCsRise_kept (second : Bool) (k : Fin 8) : Yields (Kept s) (execSpiCsRise second k s) := by
  refine .next ?_
  exact Kept.trans (.ite (.of ((Keeps.refl s).endXfer k) (by simp)) (.refl s)) (.of ((Keeps.refl _).onSpi _) (by simp))

theorem spiCsClash_kept (k : Fin 8) : Yields (Kept s) (execSpiCsClash k s) :=
  .guard fun _ => .of (((Keeps.refl s).csClash k).onSpi _) (by simp)

end Spi

/-! ## The two wires -/

section TwoWire
variable (s : State)

/-- The rest of a transaction. -/
theorem Kept.transaction (r : Bool) {f : State → State} (hf : Kept s (f s)) : Kept s (s.transaction r f) := by
  unfold State.transaction
  split
  · exact .ite hf (.refl s)
  · exact .of ((Keeps.refl s).onTw _) (by simp)
  · exact .refl s

theorem Kept.twProto (c : BitVec 3) : Kept s (s.twProto c) := .of ((Keeps.refl s).twProto c) (by simp)

/-- The end of a write-only transaction. -/
theorem Kept.twWriteEnd (code : Byte) (bs : List Byte) (n : Nat) (p : Bool) {f : State → State} (hf : Kept s (f s)) :
    Kept s (s.twWriteEnd code bs n p f) := by
  have done : Kept s ((f s).onTw (Tw.done [] true)) := hf.trans (.of ((Keeps.refl _).onTw _) (by simp))
  unfold State.twWriteEnd
  split
  · exact .ite (.twProto s 6) (.ite (.of (Keeps.refl s).twPecMiss (by simp)) done)
  · exact .ite (.of (Keeps.refl s).twPecErr (by simp)) (.ite done (.twProto s 5))

theorem twServe_kept (a n : Nat) (c : Bool) : Kept s (s.twServe a n c).2 := by
  have first (n : Nat) : Kept s (s.xferReads { port := .tw } a n).2.2 :=
    .of ((Keeps.refl s).xferReads _ _ _) (s.xferReads_bindings _ _ _)
  unfold State.twServe
  split
  · exact first n
  · exact (first (n - 1)).trans (.of ((Keeps.refl _).xferRead _ _ _) (by simp))

theorem twBlock_kept (head count : List Byte) (a len n : Nat) (c : Bool) : Kept s (s.twBlock head count a len n c) :=
  (twServe_kept s a _ _).trans (.of ((Keeps.refl _).onTw _) (State.onTw_bindings ..))

/-- The read phase of a command without bytes of its own. -/
theorem Kept.twRead (code : Byte) (extra : List Byte) (n : Nat) {f : State → State} (hf : Kept s (f s)) :
    Kept s (s.twRead code extra n f) :=
  .transaction s _ (.ite (.twWriteEnd s _ _ _ _ (.refl s)) (.ite hf (.twProto s 5)))

theorem twRingWrite_kept (bs : List Byte) : Kept s (s.twRingWrite bs) := by
  unfold State.twRingWrite
  split
  · exact .twProto s 6
  · exact .ite (.twProto s 3) (.twWriteEnd s _ _ _ _ (.of ((Keeps.refl s).ring .tw _) (by simp)))

theorem twMailWrite_kept (bs : List Byte) : Kept s (s.twMailWrite bs) := by
  unfold State.twMailWrite
  split
  · exact .twProto s 6
  · refine .ite (.twProto s 2) ?_
    split
    · exact .twProto s 6
    · refine .ite (.twProto s 3) ?_
      split
      · exact .twProto s 6
      · exact .ite (.twProto s 4) (.twWriteEnd s _ _ _ _ (.of ((Keeps.refl s).xferWrites _ _ _) (by simp)))

theorem twCall_kept (bs : List Byte) (n : Nat) (c : Bool) : Kept s (s.twCall bs n c) := by
  unfold State.twCall
  split
  · exact .twProto s 6
  · refine .ite (.twProto s 2) ?_
    split
    · exact .twProto s 6
    · refine .ite (.twProto s 3) ?_
      split
      · exact .ite (.twProto s 2) (.ite (.twProto s 4) (.ite (.twWriteEnd s _ _ _ _ (.refl s))
          (.ite (.twProto s 5) (twBlock_kept s _ _ _ _ _ _))))
      · exact .twProto s 6

theorem twPtrWrite_kept (bs : List Byte) : Kept s (s.twPtrWrite bs) :=
  .ite (.twProto s 7) (.twWriteEnd s _ _ _ _ (.of ((Keeps.refl s).onTw _) (by simp)))

theorem twPtrData_kept (bs : List Byte) : Kept s (s.twPtrData bs) := by
  unfold State.twPtrData
  split
  · exact .twProto s 6
  · exact .ite (.twProto s 2) (.twWriteEnd s _ _ _ _ (.of (((Keeps.refl s).xferWrites _ _ _).onTw _) (by simp)))

theorem twWrite_kept (code : Byte) (bs : List Byte) : Kept s (s.twWrite code bs) :=
  .ite (twRingWrite_kept s bs) (.ite (twMailWrite_kept s bs) (.ite (twCall_kept s bs _ _) (.ite (twPtrWrite_kept s bs)
    (.ite (twPtrData_kept s bs) (.ite (.twWriteEnd s _ _ _ _ (.refl s)) (.twProto s 1))))))

theorem twReceiveByte_kept (n : Nat) : Yields (Kept s) (execTwReceiveByte n s) :=
  .next (.transaction s _ (.of ((Keeps.refl s).onTw _) (by simp)))

theorem twReadByte_kept (extra : List Byte) (n : Nat) : Yields (Kept s) (execTwReadByte extra n s) :=
  .next (.twRead s _ extra n (.of ((Keeps.refl s).onTw _) (by simp)))

theorem twReadWord_kept (extra : List Byte) (n : Nat) : Yields (Kept s) (execTwReadWord extra n s) :=
  .next (.twRead s _ extra n (.of ((Keeps.refl s).onTw _) (by simp)))

theorem twFixedRead_kept (k : Fin 8) (extra : List Byte) (n : Nat) (c : Bool) : Yields (Kept s) (execTwFixedRead k extra n c s) :=
  .next (.twRead s _ extra n (twBlock_kept s _ _ _ _ _ _))

theorem twRing_kept (bs : List Byte) : Yields (Kept s) (execTwRing bs s) := .next (.transaction s _ (twRingWrite_kept s bs))

theorem twBlockWrite_kept (code : Byte) (bs : List Byte) : Yields (Kept s) (execTwBlockWrite code bs s) :=
  .next (.transaction s _ (twWrite_kept s code bs))

theorem twProcessCall_kept (bs : List Byte) (n : Nat) (c : Bool) : Yields (Kept s) (execTwProcessCall bs n c s) :=
  .next (.transaction s _ (twCall_kept s bs n c))

theorem twPointerWrite_kept (bs : List Byte) : Yields (Kept s) (execTwPointerWrite bs s) :=
  .next (.transaction s _ (twPtrWrite_kept s bs))

theorem twPtrBlockWrite_kept (bs : List Byte) : Yields (Kept s) (execTwPtrBlockWrite bs s) :=
  .next (.transaction s _ (twPtrData_kept s bs))

theorem twPtrBlockRead_kept (n : Nat) (c : Bool) : Yields (Kept s) (execTwPtrBlockRead n c s) :=
  .next (.transaction s _ ((twBlock_kept s _ _ _ _ n c).trans (.of ((Keeps.refl _).onTw _) (by simp))))

theorem twAddressMatch_kept (addr : BitVec 7) (read : Bool) : Yields (Kept s) (execTwAddressMatch addr read s) := by
  have called : Keeps s (s.onTw fun t => { t with
      busy := true, hscl := true, hsda := true, startHeld := false, readFirst := read, sent := [], phase := .idle
      acked := false }) :=
    (Keeps.refl s).onTw _
  exact .ite (.next (.refl s)) (.ite (.next (.of called (by simp))) (.ite (.next (.of ((called.wake 16 _).onTw _) (by simp)))
    (.ite (.next (.of ((called.wake 16 _).onTw _) (by simp)))
      (.next (.of ((((called.wake 16 _).onTw _).onTw _).raise 43) (by simp))))))

theorem twAsyncTakeover_kept : Yields (Kept s) (execTwAsyncTakeover s) := .guard fun _ => .of ((Keeps.refl s).onTw _) (by simp)

theorem twWakeFail_kept : Yields (Kept s) (execTwWakeFail s) :=
  .guard fun _ => .of ((((Keeps.refl s).onTw _).onTw _).raiseWhenHif 37) (by simp)

theorem twArbLost_kept (a : Option Byte) : Yields (Kept s) (execTwArbLost a s) := by
  have lost : Keeps s (s.onTw fun t => { t with arbCnt := satInc t.arbCnt, sbsActive := false, busy := true }) :=
    (Keeps.refl s).onTw _
  unfold execTwArbLost
  split
  · dsimp only
    split
    · exact .next (.of ((lost.onTw _).wake 16 _) (by simp))
    · exact .next (.ite (.of (lost.sbsFail 3) (by simp)) (.of (lost.onTw _) (by simp)))
  · exact .next (.refl s)

theorem twArbSr_kept : Yields (Kept s) (execTwArbSr s) :=
  .guard fun _ => .of (((((Keeps.refl s).onTw _).onTw _).raise 36).sbsFail 4) (by simp)

theorem twClockLowTimeout_kept : Yields (Kept s) (execTwClockLowTimeout s) := by
  refine .ite (.next (.refl s)) (.next (Kept.when (.of ((((Keeps.refl s).onTw _).onTw _).raise 34) (by simp)) _ _
    (.of ?_ (by simp))))
  exact (Keeps.refl _).sbsFail 5

theorem twStuckTimeout_kept : Yields (Kept s) (execTwStuckTimeout s) :=
  .ite (.next (.refl s)) (.next (.of ((((Keeps.refl s).onTw _).onTw _).raise 35) (by simp)))

theorem twBusRecovery_kept (r : Option (Fin 9)) : Yields (Kept s) (execTwBusRecovery r s) := by
  cases r
  case none => exact .guard fun _ => .of ((Keeps.refl s).sbsFail 6) (by simp)
  case some => exact .guard fun _ => .of (((Keeps.refl s).onTw _).raise 46) (by simp)

/-! ## The gauge's battery reads and the probe -/

theorem sbsReadDue_kept : Yields (Kept s) (execSbsReadDue s) := .guard fun _ => .of ((Keeps.refl s).onTw _) (by simp)

theorem sbsBusFree_kept : Yields (Kept s) (execSbsBusFree s) := by
  have free : Keeps s (s.onTw fun t => { t with phase := .idle, busy := false, hscl := true, hsda := true }) :=
    (Keeps.refl s).onTw _
  exact .ite (.ite (.next (.ite (.of (free.onTw _) (by simp)) (.of (free.onTw _) (by simp)))) (.next (.of free (by simp))))
    (.next (.refl s))

theorem sbsReadComplete_kept (how : BusEnd) (ws : List Half) : Yields (Kept s) (execSbsReadComplete how ws s) := by
  have ended : Keeps s (s.onTw fun t => { t with sbsActive := false, sbsTries := 0, busy := false }) := (Keeps.refl s).onTw _
  refine .ite ?_ (.next (.refl s))
  extract_lets pec u record good
  have good_kept : Kept s (good u) := .of ((ended.gaugeRecord _ _ _ _).raise 45) (by simp +zetaDelta)
  cases how
  case ok => exact .next good_kept
  case addrNack => exact .next (.of (ended.sbsFail 1) (by simp +zetaDelta))
  case dataNack => exact .next (.of (ended.sbsFail 2) (by simp +zetaDelta))
  case pec => exact .next (.ite (.of (ended.sbsFail 7) (by simp +zetaDelta)) good_kept)

theorem probeFail_kept (c : BitVec 3) : Kept s (s.probeFail c) := .of ((Keeps.refl s).probeFail c) (by simp)

theorem probeOk_kept (d : List Byte) : Kept s (s.probeOk d) := .of ((Keeps.refl s).probeOk d) (by simp)

theorem probeTransferDone_kept (how : BusEnd) (bs : List Byte) : Yields (Kept s) (execProbeTransferDone how bs s) := by
  refine .ite ?_ (.next (.refl s))
  split
  · exact .next (probeFail_kept s 1)
  · exact .next (probeFail_kept s 2)
  · split
    · exact .ite (.next (.refl s)) (.ite (.next (.of ((Keeps.refl s).onTw _) (by simp))) (.next (probeOk_kept s _)))
    · exact .next (.refl s)

theorem probeWritePoll_kept (acked : Bool) : Yields (Kept s) (execProbeWritePoll acked s) := .guard fun _ => probeOk_kept s []

theorem probePollTimeout_kept : Yields (Kept s) (execProbePollTimeout s) := .guard fun _ => probeFail_kept s 3

theorem probeBusConflict_kept : Yields (Kept s) (execProbeBusConflict s) := .guard fun _ => probeFail_kept s 6

theorem probeTimeout_kept (stuck recovered : Bool) : Yields (Kept s) (execProbeTimeout stuck recovered s) :=
  .ite (.next (.refl s)) (.ite (.next (probeFail_kept s 4)) (.ite (.next (.refl s))
    (.ite (.next (.of (((Keeps.refl s).onTw _).raise 46) (by simp)))
      (.next (.of (((Keeps.refl s).onTw _).probeFail 5) (by simp))))))

end TwoWire

end Sys2Proof.Machine
end

section
/-! PROOFS. O7 and O8: every command's effect on the bounds, the counters, the active charter and the bindings. -/

namespace Sys2Proof.Machine

/-- What a power-on reset of the Binnacle leaves of `s` (R111, R177). -/
def State.afterPor (s : State) : State :=
  { State.reset with
    line := s.line, flash := s.flash, free := s.free, pending := s.pending
    power := { onVbak := s.power.onVbak }
    dom := { vsysUp := s.dom.vsysUp && !s.power.onVbak }
    bin := { held := true }
    spi := { vddio := s.spi.vddio, csA := s.spi.csA, csB := s.spi.csB, deafA := s.spi.csA, deafB := s.spi.csB }
    tw := { hscl := s.tw.hscl, hsda := s.tw.hsda } }

/-- The effects that a command can have: all but five keep the bounds, the counters, the charter and the bindings (R86, R246,
R247, R252, R260). -/
inductive Effect (s : State) : Instr → State → Prop
  | kept {c : Instr} {t : State} : Kept s t → Effect s c t
  | unsealed {b : Fin 4} {t : State} : KeptButAudit s t → Effect s (.unseal b) t
  | durable {c : Instr} {t : State} : c = .logbookEntryDurable ∨ c = .configStoreDurable →
      Keeps s t ∧ t.dom.bind = s.dom.bind → Effect s c t
  | started {t : State} : Keeps s t → Effect s .firmwareStart t
  | reset : Effect s .binPowerOnReset s.afterPor

theorem Yields.kept {s : State} {c : Instr} {o : Out} (h : Yields (Kept s) o) : Yields (Effect s c) o :=
  fun t e => .kept (h t e)

/-- Each command by the lemma about its own definition. -/
theorem exec_effect (s : State) : ∀ c, Yields (Effect s c) (exec c s)
  | .registerWrite .. => .kept (.next (.portWrite s _ _ _))
  | .addrStrapLatch .. => .kept (addrStrapLatch_kept s _)
  | .vddioLoss => .kept (vddioLoss_kept s)
  | .nrstReset => .kept (nrstReset_kept s)
  | .lineDieStart .. => .kept (lineDieStart_kept s _ _)
  | .brownIn => .kept (brownIn_kept s)
  | .softStartEnd => .kept (softStartEnd_kept s)
  | .lineDieStop => .kept (lineDieStop_kept s)
  | .goodbyeSend .. => .kept (goodbyeSend_kept s _)
  | .regFrameDue .. => .kept (regFrameDue_kept s _)
  | .regRun .. => .kept (regRun_kept s _)
  | .regOverride .. => .kept (regOverride_kept s _ _)
  | .regSoftStop .. => .kept (regSoftStop_kept s _)
  | .frameDiscard .. => .kept (frameDiscard_kept s _ _ _)
  | .downlinkTimeout .. => .kept (downlinkTimeout_kept s _)
  | .stopRestartTimeout => .kept (stopRestartTimeout_kept s)
  | .stopSymbolReceived .. => .kept (stopSymbolReceived_kept s _)
  | .hvinBrownOut .. => .kept (.next (stopFor_kept s _ _ _ LineDie.begun))
  | .hvinOvervoltage .. => .kept (.next (stopsAlways_kept s _ _ _))
  | .hvinOvResume => .kept (.next (lift_kept s _ _))
  | .switchShortCircuit .. => .kept (.next (stopFor_kept s _ _ _ LineDie.switching))
  | .overloadStop .. => .kept (overloadStop_kept s _ _)
  | .faultRestart => .kept (.next (lift_kept s _ _))
  | .overtempStop .. => .kept (.next (stopsAlways_kept s _ _ _))
  | .overtempResume => .kept (.next (lift_kept s _ _))
  | .vldOvLatch .. => .kept (.next (stopsAlways_kept s _ _ _))
  | .vauxOvervoltage => .kept (vauxOvervoltage_kept s)
  | .vauxRecover => .kept (vauxRecover_kept s)
  | .zeroCrossing .. => .kept (zeroCrossing_kept s _ _ _ _)
  | .lineLossDeclare .. => .kept (lineLossDeclare_kept s _ _ _)
  | .lineLossRepeat => .kept (lineLossRepeat_kept s)
  | .dcModeEntry .. => .kept (dcModeEntry_kept s _ _)
  | .dcLineReturn .. => .kept (dcLineReturn_kept s _)
  | .lineReturnDeclare => .kept (lineReturnDeclare_kept s)
  | .tlmProduce .. => .kept (tlmProduce_kept s _ _ _ _)
  | .tlmReceived .. => .kept (.next (.upFrame s _ fun u => takeTlm_kept u _))
  | .zcReceived .. => .kept (zcReceived_kept s _)
  | .lineLossReceived .. => .kept (lineLossReceived_kept s _)
  | .lineReturnReceived .. => .kept (lineReturnReceived_kept s _)
  | .ldFaultReceived .. => .kept (ldFaultReceived_kept s _)
  | .beaconBurst => .kept (beaconBurst_kept s)
  | .linkUplinkTimeout => .kept (linkUplinkTimeout_kept s)
  | .linkFaultReset => .kept (linkFaultReset_kept s)
  | .beaconQualified => .kept (beaconQualified_kept s)
  | .beaconDetectorClear => .kept (beaconDetectorClear_kept s)
  | .cfgWrite .. => .kept (.next (.portWrite s _ _ _))
  | .cfgReceived .. => .kept (cfgReceived_kept s _ _)
  | .quietReceived .. => .kept (quietReceived_kept s _ _ _)
  | .ldQuietOpen .. => .kept (ldQuietOpen_kept s _)
  | .ldQuietGuardEnd .. => .kept (ldQuietGuardEnd_kept s _)
  | .ldQuietEnd .. => .kept (.next (endQuiet_kept s _ _))
  | .ldQuietVldEnd .. => .kept (.next (endQuiet_kept s _ _))
  | .qaOpenReceived .. => .kept (qaOpenReceived_kept s _ _ _)
  | .qaEndReceived .. => .kept (qaEndReceived_kept s _ _ _)
  | .qaRefusedReceived .. => .kept (qaRefusedReceived_kept s _ _ _)
  | .coreQuietClose .. => .kept (coreQuietClose_kept s _)
  | .qwDroopOverride .. => .kept (qwDroopOverride_kept s _ _)
  | .sourceValid .. => .kept (sourceValid_kept s _ _)
  | .sourceInvalid .. => .kept (sourceInvalid_kept s _ _)
  | .sourceSwitchClose => .kept (sourceSwitchClose_kept s)
  | .srTurnOn .. => .kept (srTurnOn_kept s _)
  | .srTurnOff => .kept (srTurnOff_kept s)
  | .srMaxOnTime => .kept (srMaxOnTime_kept s)
  | .chgEnWrite .. => .kept (.next (.portWrite s _ _ _))
  | .chgStateTest .. => .kept (chgStateTest_kept s _ _ _)
  | .chgTermination => .kept (chgTermination_kept s)
  | .chgSafetyTimerExpire .. => .kept (chgSafetyTimerExpire_kept s _)
  | .chgOvercurrent => .kept (chgOvercurrent_kept s)
  | .chgOvertemp => .kept (chgOvertemp_kept s)
  | .chgOvertempResume => .kept (chgOvertempResume_kept s)
  | .vaonToVbak => .kept (vaonToVbak_kept s)
  | .vaonToVsys => .kept (vaonToVsys_kept s)
  | .binPowerOnReset => .next (t := s.afterPor) Effect.reset
  | .vbakCheck .. => .kept (vbakCheck_kept s _)
  | .secondsTick => .kept (.next (edge_kept s _))
  | .calCmdSetr .. => .kept (.next (.portWrite s _ _ _))
  | .calCmdSett .. => .kept (.next (.portWrite s _ _ _))
  | .calCmdCancel .. => .kept (.next (.portWrite s _ _ _))
  | .setrLoad => .kept (.next (edge_kept s _))
  | .shiftWrite .. => .kept (.next (.portWrite s _ _ _))
  | .trimCycleStart => .kept (trimCycleStart_kept s)
  | .trimCorrection => .kept (.next (edge_kept s _))
  | .xtalFail => .kept (xtalFail_kept s)
  | .xtalRecover => .kept (.next (xtalRecover_kept s))
  | .trRunStart .. => .kept (.next (.portWrite s _ _ _))
  | .trRunAbort .. => .kept (.next (.portWrite s _ _ _))
  | .trimMeasOpen => .kept (trimMeasOpen_kept s)
  | .trimMeasDone => .kept (trimMeasDone_kept s)
  | .wakeTick => .kept (wakeTick_kept s)
  | .evtEdge .. => .kept (evtEdge_kept s _ _ _)
  | .ppsEdge => .kept (ppsEdge_kept s)
  | .stampedClear .. => .kept (.next (.portWrite s _ _ _))
  | .llValidClear .. => .kept (.next (.portWrite s _ _ _))
  | .fsoValidClear .. => .kept (.next (.portWrite s _ _ _))
  | .sysonOnWrite .. => .kept (.next (.portWrite s _ _ _))
  | .pwrkeyShort .. => .kept (pwrkeyShort_kept s _)
  | .pwrkeyLong .. => .kept (pwrkeyLong_kept s _)
  | .pwrkeyHardoff .. => .kept (pwrkeyHardoff_kept s _)
  | .cmpTrip .. => .kept (cmpTrip_kept s _ _ _)
  | .awakeHigh .. => .kept (awakeHigh_kept s _)
  | .idleTimerExpire .. => .kept (idleTimerExpire_kept s _ _)
  | .waitInstruction .. => .kept (waitInstruction_kept s _)
  | .deferredEntry .. => .kept (deferredEntry_kept s _)
  | .domainEntryDone .. => .kept (domainEntryDone_kept s _)
  | .domainOnDone .. => .kept (domainOnDone_kept s _ _)
  | .cpuResetRelease => .kept (cpuResetRelease_kept s)
  | .padHoldRelease .. => .kept (padHoldRelease_kept s _)
  | .xo16StartFail => .kept (xo16StartFail_kept s)
  | .brownOutReset => .kept (brownOutReset_kept s)
  | .watchdogReset => .kept (fwReset_kept s _)
  | .lockupReset => .kept (fwReset_kept s _)
  | .resetRelease => .kept (resetRelease_kept s)
  | .keepWrite .. => .kept (.next (.portWrite s _ _ _))
  | .ringWrite .. => .kept (.next (.portWrite s _ _ _))
  | .fwtimerExpire => .kept (fwtimerExpire_kept s)
  | .spiCsFall .. => .kept (spiCsFall_kept s _ _)
  | .spiLive => .kept (spiLive_kept s)
  | .spiWriteByte .. => .kept (spiWriteByte_kept s _ _)
  | .spiReadByte .. => .kept (spiReadByte_kept s _ _)
  | .spiRing .. => .kept (spiRing_kept s _)
  | .spiBadOpcode .. => .kept (spiBadOpcode_kept s _)
  | .spiCsRise .. => .kept (spiCsRise_kept s _ _)
  | .spiCsClash .. => .kept (spiCsClash_kept s _)
  | .twAddressMatch .. => .kept (twAddressMatch_kept s _ _)
  | .twAsyncTakeover => .kept (twAsyncTakeover_kept s)
  | .twWakeFail => .kept (twWakeFail_kept s)
  | .twReceiveByte .. => .kept (twReceiveByte_kept s _)
  | .twReadByte .. => .kept (twReadByte_kept s _ _)
  | .twReadWord .. => .kept (twReadWord_kept s _ _)
  | .twFixedRead .. => .kept (twFixedRead_kept s _ _ _ _)
  | .twRing .. => .kept (twRing_kept s _)
  | .twBlockWrite .. => .kept (twBlockWrite_kept s _ _)
  | .twProcessCall .. => .kept (twProcessCall_kept s _ _ _)
  | .twPointerWrite .. => .kept (twPointerWrite_kept s _)
  | .twPtrBlockWrite .. => .kept (twPtrBlockWrite_kept s _)
  | .twPtrBlockRead .. => .kept (twPtrBlockRead_kept s _ _)
  | .twClockLowTimeout => .kept (twClockLowTimeout_kept s)
  | .twStuckTimeout => .kept (twStuckTimeout_kept s)
  | .twBusRecovery .. => .kept (twBusRecovery_kept s _)
  | .sbsReadDue => .kept (sbsReadDue_kept s)
  | .sbsBusFree => .kept (sbsBusFree_kept s)
  | .twArbLost .. => .kept (twArbLost_kept s _)
  | .twArbSr => .kept (twArbSr_kept s)
  | .sbsReadComplete .. => .kept (sbsReadComplete_kept s _ _)
  | .probeTransferDone .. => .kept (probeTransferDone_kept s _ _)
  | .probeWritePoll .. => .kept (probeWritePoll_kept s _)
  | .probePollTimeout => .kept (probePollTimeout_kept s)
  | .probeBusConflict => .kept (probeBusConflict_kept s)
  | .probeTimeout .. => .kept (probeTimeout_kept s _ _)
  | .firmwareStart => fun t e => .started (firmwareStart_keeps s t e)
  | .firmwareTakeRequest .. => .kept (firmwareTakeRequest_kept s _)
  | .macLockExpire .. => .kept (macLockExpire_kept s _)
  | .ringRdWrite .. => .kept (.next (.portWrite s _ _ _))
  | .firmwareRequestReset => .kept (firmwareRequestReset_kept s)
  | .fwProbationEnd => .kept (fwProbationEnd_kept s)
  | .logbookEntryDurable => fun t e => .durable (.inl rfl) (logbookEntryDurable_keeps s t e)
  | .configStoreDurable => fun t e => .durable (.inr rfl) (configStoreDurable_keeps s t e)
  | .logQuotaWindow => .kept (logQuotaWindow_kept s)
  | .eventDeliver => .kept (eventDeliver_kept s)
  | .pendClear .. => .kept (.next (.portWrite s _ _ _))
  | .soundingDue .. => .kept (soundingDue_kept s _)
  | .soundingDelayedStart .. => .kept (soundingDelayedStart_kept s _)
  | .shotQuietRequest .. => .kept (shotQuietRequest_kept s _ _)
  | .shotFire .. => .kept (shotFire_kept s _ _ _ _)
  | .driveOvercurrent .. => .kept (driveOvercurrent_kept s _ _)
  | .captureOpen .. => .kept (captureOpen_kept s _)
  | .captureClose .. => .kept (captureClose_kept s _)
  | .flowQuietExpire .. => .kept (flowQuietExpire_kept s _)
  | .holdExpire .. => .kept (holdExpire_kept s _)
  | .arrivalLearnDone => .kept (arrivalLearnDone_kept s)
  | .leewayCalDone => .kept (leewayCalDone_kept s)
  | .rtdSetDue => .kept (rtdSetDue_kept s)
  | .rtdConversionStart => .kept (rtdConversionStart_kept s)
  | .rtdConversionDone .. => .kept (rtdConversionDone_kept s _)
  | .rtdDischargeTimeout => .kept (rtdDischargeTimeout_kept s)
  | .rtdSetStale .. => .kept (rtdSetStale_kept s _)
  | .totalsPeriodicSave => .kept (totalsPeriodicSave_kept s)
  | .powerfailSave => .kept (powerfailSave_kept s)
  | .gaugeConversionEnd .. => .kept (gaugeConversionEnd_kept s _)
  | .restWindowComplete => .kept (restWindowComplete_kept s)
  | .gaugeTelemetry .. => .kept (gaugeTelemetry_kept s _ _)
  | .fixAttempt .. => .kept (fixAttempt_kept s _ _)
  | .learnAgeExpire => .kept (learnAgeExpire_kept s)
  | .nop .. => .kept (.serve fun rq => .openRead s _ rq _)
  | .version .. => .kept (.serve fun rq => .openRead s _ rq _)
  | .status .. => .kept (.serve fun rq => .openRead s _ rq _)
  | .reset .. => .kept (reset_kept s _)
  | .routeSet .. => .kept (routeSet_kept s _)
  | .routeGet .. => .kept (.serve fun rq => .openRead s _ rq _)
  | .logRead .. => .kept (logRead_kept s _)
  | .charterRead .. => .kept (charterRead_kept s _)
  | .charterStage .. => .kept (charterStage_kept s _)
  | .charterCommit .. => .kept (charterCommit_kept s _)
  | .charterDiscard .. => .kept (charterDiscard_kept s _)
  | .seal .. => .kept (seal_kept s _)
  | .unseal .. => fun t e => .unsealed (unseal_kept s _ t e)
  | .pdPolicy .. => .kept (pdPolicy_kept s _)
  | .wakePolicy .. => .kept (wakePolicy_kept s _)
  | .convCtlStop .. => .kept (convCtl_kept s _ _ _ fun _ => rfl)
  | .convCtlRestart .. => .kept (convCtl_kept s _ _ _ fun _ => rfl)
  | .policyGet .. => .kept (policyGet_kept s _)
  | .timeSet .. => .kept (timeSet_kept s _)
  | .timeShift .. => .kept (timeShift_kept s _)
  | .trimPolicy .. => .kept (trimPolicy_kept s _)
  | .trimGet .. => .kept (trimGet_kept s _)
  | .gaugeCfgWrite .. => .kept (gaugeCfgWrite_kept s _)
  | .gaugeCfgRead .. => .kept (gaugeCfgRead_kept s _)
  | .gaugeProfile .. => .kept (gaugeProfile_kept s _)
  | .gaugeSave .. => .kept (gaugeSave_kept s _)
  | .gaugeRestore .. => .kept (gaugeRestore_kept s _)
  | .acqWrite .. => .kept (acqWrite_kept s _)
  | .acqRead .. => .kept (.pathRead s _ _ _)
  | .flowWrite .. => .kept (flowWrite_kept s _)
  | .flowRead .. => .kept (.pathRead s _ _ _)
  | .rtdWrite .. => .kept (rtdWrite_kept s _)
  | .rtdRead .. => .kept (rtdRead_kept s _)
  | .cardWrite .. => .kept (cardWrite_kept s _)
  | .cardRead .. => .kept (.pathRead s _ _ _)
  | .fluidWrite .. => .kept (fluidWrite_kept s _)
  | .fluidRead .. => .kept (.pathRead s _ _ _)
  | .pathPorts .. => .kept (pathPorts_kept s _)
  | .arrivalLearn .. => .kept (arrivalLearn_kept s _)
  | .leewayCal .. => .kept (leewayCal_kept s _)
  | .calResult .. => .kept (calResult_kept s _)
  | .totalsRead .. => .kept (totalsRead_kept s _)
  | .totalsReset .. => .kept (totalsReset_kept s _)
  | .w2w .. => .kept (w2w_kept s _)
  | .fluidProps .. => .kept (fluidProps_kept s _)
  | .fwBegin .. => .kept (fwBegin_kept s _)
  | .fwData .. => .kept (fwData_kept s _)
  | .fwVerify .. => .kept (fwVerify_kept s _)
  | .fwActivate .. => .kept (fwActivate_kept s _)
  | .fwInfo .. => .kept (fwInfo_kept s _)
  | .probeCfg .. => .kept (probeCfg_kept s _)
  | .probeRead .. => .kept (probeRead_kept s _)
  | .probeWrite .. => .kept (probeWrite_kept s _)
  | .prescalerCount .. => .kept (prescalerCount_kept s _)
  | .binPorRelease => .kept (binPorRelease_kept s)
  | .vddioReturn => .kept (vddioReturn_kept s)
  | .pllcLock => .kept (pllcLock_kept s)
  | .dieTemp => .kept (.next (dieTemp_kept s))
  | .flashEcc => .kept (.next (flashEcc_kept s))

/-- `t` is within the bounds of R69, R118, R126, R127, R157, R292 and R399 where `s` is. -/
structure Bounded (s t : State) : Prop where
  line : s.line.ok → t.line.ok
  cal : s.cal.ok → t.cal.ok
  bin : s.bin.ok → t.bin.ok
  flash : s.flash.ok → t.flash.ok
  gauge : s.gauge.ok → t.gauge.ok

theorem Kept.bounded {s t : State} (h : Kept s t) : Bounded s t := { h with }

theorem Keeps.bounded {s t : State} (h : Keeps s t) : Bounded s t := { h with }

/-- The bounds of the flash do not speak of AUDIT_CTR. -/
theorem KeptButAudit.bounded {s t : State} (h : KeptButAudit s t) : Bounded s t := by
  obtain ⟨_, k⟩ := h
  exact ⟨k.line, k.cal, k.bin, k.flash, k.gauge⟩

theorem BinIo.held_ok : ({ held := true } : BinIo).ok := ⟨rfl, by decide⟩

/-- The line die and the flash stay; the rest is as after a reset. -/
theorem State.afterPor_bounded (s : State) : Bounded s s.afterPor where
  line := id
  cal _ := State.reset_inv.cal
  bin _ := BinIo.held_ok
  flash := id
  gauge _ := State.reset_inv.gauge

theorem Effect.bounded {s t : State} {c : Instr} (h : Effect s c t) : Bounded s t := by
  cases h with
  | kept k => exact k.bounded
  | unsealed k => exact k.bounded
  | durable _ k => exact k.1.bounded
  | started k => exact k.bounded
  | reset => exact s.afterPor_bounded

/-- A step on an empty queue changes nothing; else it is the front command's, whose queue is no part of the bounds. -/
theorem step_bounded {s t : State} (h : step s = .next t) : Bounded s t := by
  unfold step at h
  split at h
  · cases h
    exact (Kept.refl s).bounded
  · exact { (exec_effect _ _ t h).bounded with }

end Sys2Proof.Machine

namespace Sys2Proof.Proofs

open Sys2Proof Sys2Proof.Machine

/-- Settles O7: each command's effect keeps the bounds, and a step is a command's effect. -/
theorem stepsKeepTheCapacities : Obligations.StepsKeepTheCapacities := by
  unfold Obligations.StepsKeepTheCapacities Claims.StepsKeepTheTimeInItsCycle Claims.StepsKeepTheCapacities
  refine ⟨fun s t ok h => (step_bounded h).cal ok, fun s t h => ?_⟩
  have b := step_bounded h
  exact ⟨b.gauge, b.flash, b.line, b.bin⟩

/-- Settles O8: by the five kinds of effect; only the four that the statement names touch what it speaks of. -/
theorem countersAndCharterChangeOnlyByTheirRules : Obligations.CountersAndCharterChangeOnlyByTheirRules := by
  unfold Obligations.CountersAndCharterChangeOnlyByTheirRules
  intro c s t h
  cases exec_effect s c t h with
  | kept k =>
    exact ⟨fun _ => k.audit, fun _ => k.loss, fun _ => congrArg Prod.fst k.bound, fun _ => congrArg Prod.snd k.bound⟩
  | @unsealed b _ k =>
    obtain ⟨_, k⟩ := k
    exact ⟨fun other => absurd rfl (other b), fun _ => k.loss, fun _ => congrArg Prod.fst k.bound,
      fun _ => congrArg Prod.snd k.bound⟩
  | durable hc k =>
    obtain ⟨k, bind⟩ := k
    refine ⟨fun _ => k.audit, fun _ => k.loss, fun other => absurd ?_ other, fun _ => bind⟩
    rcases hc with rfl | rfl <;> simp
  | started k =>
    exact ⟨fun _ => k.audit, fun _ => k.loss, fun other => absurd (by simp) other, fun other => absurd (by simp) other⟩
  | reset =>
    exact ⟨fun _ => rfl, fun other => absurd rfl other, fun other => absurd (by simp) other,
      fun other => absurd (by simp) other⟩

end Sys2Proof.Proofs
end

section
/-! PROOFS. The end of a learn (R411, R422): what it writes, and what it leaves unchanged. -/

namespace Sys2Proof.Machine

/-! ## Reports on a state whose gauge has changed -/

namespace Reported

variable {s t u : State}

/-- The reports do not depend on the gauge. -/
theorem withGauge (h : Reported s t) (g : Gauge) : Reported (s.onGauge fun _ => g) (t.onGauge fun _ => g) where
  frame := congrArg (State.onGauge fun _ => g) h.frame
  fw := h.fw
  logTime := h.logTime
  raised := h.raised

theorem gaugeRecord (s : State) (bit : Nat) (type : Byte) (clamped : Bool) (payload : List Byte) :
    Reported s (s.gaugeRecord bit type clamped payload) := by
  unfold State.gaugeRecord
  split
  · exact ite (record _ _ _ _ _ _ _) (refl s)
  · exact refl s

end Reported

/-- `t` differs from `s` by the gauge, and by events and records. -/
def Gauged (s t : State) : Prop := Reported (s.onGauge fun _ => t.gauge) t

namespace Gauged

variable {s t u : State}

theorem reported (h : Gauged s t) : Reported (s.onGauge fun _ => t.gauge) t := h

theorem of (h : Reported s t) : Gauged s t := by
  have e : (s.onGauge fun _ => t.gauge) = s := by rw [h.gauge]; rfl
  unfold Gauged
  rwa [e]

theorem refl (s : State) : Gauged s s := of (.refl s)

theorem trans (h : Gauged s t) (k : Gauged t u) : Gauged s u := (h.reported.withGauge u.gauge).trans k

theorem onGauge (s : State) (f : Gauge → Gauge) : Gauged s (s.onGauge f) := Reported.refl _

theorem raise (h : Gauged s t) (e : Nat) : Gauged s (t.raise e) := h.trans (of (.raise t e))

theorem when (c : Bool) {f : State → State} (h : Gauged s t) (hf : Gauged t (f t)) : Gauged s (t.when c f) := by
  cases c
  · exact h
  · exact h.trans hf

theorem frame (h : Gauged s t) : t = { s with
    gauge := t.gauge, dom := t.dom, ev := t.ev, berths := t.berths, fw := t.fw, free := t.free } := h.reported.frame

theorem fw (h : Gauged s t) : t.fw = { s.fw with recQ := t.fw.recQ } := h.reported.fw

theorem raised (h : Gauged s t) : ∀ n, s.ev.raised.getLsbD n = true → t.ev.raised.getLsbD n = true := h.reported.raised

theorem line (h : Gauged s t) : t.line = s.line := h.reported.line
theorem power (h : Gauged s t) : t.power = s.power := h.reported.power
theorem flash (h : Gauged s t) : t.flash = s.flash := h.reported.flash
theorem log (h : Gauged s t) : t.log = s.log := h.reported.log
theorem cal (h : Gauged s t) : t.cal = s.cal := h.reported.cal
theorem trim (h : Gauged s t) : t.trim = s.trim := (congrArg State.trim h.frame :)

end Gauged

/-! ## Causes that end an OPEN learn at once -/

section
variable (s : State)

/-- An OPEN learn ends with its record, LAST_DISQ and EV84. -/
theorem State.learnDisq_ends (cause : Nat) (h : s.gauge.learn = .opened) : ∃ u, Reported s u ∧ s.learnDisq cause =
    (u.onGauge fun g => { g with learn := .none, lastDisq := BitVec.ofNat 4 cause }).raise 84 := by
  unfold State.learnDisq
  rw [h]
  exact ⟨_, Reported.when s _ _ ((Reported.fill _ _).trans (.gaugeRecord _ _ _ _ _)), rfl⟩

/-- A cause other than RESET, RESTORE and CONFIG leaves a learn that is not OPEN. -/
theorem State.learnDisq_other {cause : Nat} (hc : ¬(cause = 4 ∨ cause = 5 ∨ cause = 13)) (h : s.gauge.learn ≠ .opened) :
    s.learnDisq cause = s := by
  unfold State.learnDisq
  split
  · exact absurd ‹_› h
  · exact if_neg hc
  · rfl

theorem State.learnDisq_gauged (cause : Nat) : Gauged s (s.learnDisq cause) := by
  by_cases h : s.gauge.learn = .opened
  · obtain ⟨u, hu, e⟩ := s.learnDisq_ends cause h
    rw [e]
    exact ((Gauged.of hu).trans (.onGauge u _)).raise 84
  · unfold State.learnDisq
    split
    · exact absurd ‹_› h
    · split
      · exact .onGauge s _
      · exact .refl s
    · exact .refl s

theorem State.learnDisq_gauge (cause : Nat) (h : s.gauge.learn = .opened) :
    (s.learnDisq cause).gauge = { s.gauge with learn := .none, lastDisq := BitVec.ofNat 4 cause } := by
  obtain ⟨u, hu, e⟩ := s.learnDisq_ends cause h
  rw [e, State.raise_gauge, State.onGauge_gauge, hu.gauge]

theorem State.learnDisq_raised (cause : Nat) (h : s.gauge.learn = .opened) :
    (s.learnDisq cause).ev.raised.getLsbD 84 = true := by
  obtain ⟨u, -, e⟩ := s.learnDisq_ends cause h
  rw [e]
  exact State.raise_latched _ 84 (by omega)

end

end Sys2Proof.Machine
end

section
/-! PROOFS. The sources and the selector (R87 to R93, R115), and the always-on supply (R109 to R114). -/

namespace Sys2Proof.Machine

/-! ## The thresholds of a source (R87, R115) -/

/-- VADP's own limits: it deglitches below the first and is invalid above the second. -/
def upperLimits : Source → Option (Nat × Nat)
  | .adp => some (21000, 21500) | _ => none

section
variable (p : Power) (x : Source) (mv : Nat)

/-- The level is above the upper limit of its source. -/
def overLimit : Bool := (upperLimits x).any fun h => decide (h.2 < mv)

theorem sourceRows_eq : Claims.sourceRows p = [Source.adp, .aux, .bat].map fun x =>
    (x, p.rising x, p.falling x, upperLimits x) := rfl

theorem Power.deglitches_iff : p.deglitches x mv = true ↔ p.rising x ≤ mv ∧ ∀ h, upperLimits x = some h → mv < h.1 := by
  cases x <;> simp [Power.deglitches, upperLimits]

theorem Power.fails_iff : p.fails x mv = true ↔ mv < p.falling x ∨ overLimit x mv = true := by
  cases x <;> simp [Power.fails, overLimit, upperLimits]

/-- The power path with an invalid source, and ADP_OV by its level. -/
def Power.invalid : Power := { p.setValid x false with adpOv := if x = .adp then decide (21500 < mv) else p.adpOv }

theorem Power.invalid_eq : p.invalid x mv =
    { Claims.withValid p x false with adpOv := if x = .adp then overLimit x mv else p.adpOv } := by cases x <;> rfl

theorem Power.invalid_before : (p.invalid x mv).before = p.before := by cases x <;> rfl

theorem Power.best_isNone : p.best.isNone = !(p.adpValid || p.auxValid || p.batValid) := by
  unfold Power.best
  cases p.adpValid <;> cases p.auxValid <;> cases p.batValid <;> rfl

end

/-! ## A change of the selected source (R91, R150, R411) -/

section
variable (s : State) (old new : Option Source)

/-- What a change of the selected source records while the Binnacle runs. -/
def State.sourceTold : State :=
  ((s.onPower fun p => { p with src := new, before := none, srcChanged := true, srcCount := satInc p.srcCount }).raise 7).when
    (new == some .bat && (old == some .adp || old == some .aux)) (State.stampFso .bat)

theorem State.sourceChange_held (h : s.bin.held = true) : s.sourceChange old new =
    (s.onPower fun p => { p with src := new, before := none }).learnDisq 7 := by
  simp [State.sourceChange, h]

theorem State.sourceChange_runs (h : s.bin.held = false) : s.sourceChange old new = (s.sourceTold old new).learnDisq 7 := by
  simp only [State.sourceChange, State.onPower_bin, h, Bool.not_false, State.when_true]
  rfl

theorem State.sourceTold_power : (s.sourceTold old new).power =
    { s.power with src := new, before := none, srcChanged := true, srcCount := satInc s.power.srcCount } :=
  (State.when_keeps _ State.power _ _ rfl).trans (State.raise_power _ 7)

theorem State.sourceTold_gauge : (s.sourceTold old new).gauge = s.gauge :=
  (State.when_keeps _ State.gauge _ _ rfl).trans (State.raise_gauge _ 7)

theorem State.sourceTold_ev : (s.sourceTold old new).ev = (s.raise 7).ev :=
  (State.when_keeps _ State.ev _ _ rfl).trans (by rw [State.raise_ev, State.raise_ev, State.onPower_ev])

theorem State.sourceTold_bin : (s.sourceTold old new).bin = { s.bin with
    fsoBatDue := s.bin.fsoBatDue || (new == some .bat && (old == some .adp || old == some .aux)) } := by
  unfold State.sourceTold
  cases new == some .bat && (old == some .adp || old == some .aux)
  · rw [State.when_false, State.raise_bin, Bool.or_false]
    rfl
  · rw [State.when_true, State.stampFso, State.onBin_bin, State.raise_bin, Bool.or_true]
    rfl

theorem State.sourceChange_frame : let t := s.sourceChange old new
    t = { s with
      power := t.power, bin := t.bin, gauge := t.gauge, berths := t.berths, ev := t.ev, dom := t.dom, fw := t.fw
      free := t.free } := by
  refine State.ext_parts ?_ ?_ rfl ?_ ?_ rfl rfl ?_ ?_ rfl rfl ?_ ?_ rfl rfl rfl ?_
  all_goals simp [State.sourceChange, State.when, apply_ite]

/-- No event is taken back. -/
theorem State.sourceChange_raised (n : Nat) (h : s.ev.raised.getLsbD n = true) :
    (s.sourceChange old new).ev.raised.getLsbD n = true := by
  cases hh : s.bin.held with
  | true =>
    rw [s.sourceChange_held _ _ hh]
    exact (State.learnDisq_gauged _ 7).raised n h
  | false =>
    rw [s.sourceChange_runs _ _ hh]
    refine (State.learnDisq_gauged _ 7).raised n ?_
    rw [State.sourceTold_ev, State.raise_bit n (by omega), h, Bool.true_or]

/-- A running Binnacle counts the change with EV07. -/
theorem State.sourceChange_counts (h : s.bin.held = false) : (s.sourceChange old new).ev.raised.getLsbD 7 = true := by
  rw [s.sourceChange_runs _ _ h]
  refine (State.learnDisq_gauged _ 7).raised 7 ?_
  rw [State.sourceTold_ev]
  exact s.raise_latched 7 (by omega)

/-- An OPEN learn ends with cause 7. -/
theorem State.sourceChange_ends (h : s.gauge.learn = .opened) :
    (s.sourceChange old new).gauge = { s.gauge with learn := .none, lastDisq := 7 } ∧
      (s.sourceChange old new).ev.raised.getLsbD 84 = true := by
  cases hh : s.bin.held with
  | true =>
    rw [s.sourceChange_held _ _ hh]
    exact ⟨State.learnDisq_gauge (s.onPower _) 7 h, State.learnDisq_raised (s.onPower _) 7 h⟩
  | false =>
    rw [s.sourceChange_runs _ _ hh]
    have ho : (s.sourceTold old new).gauge.learn = .opened := by rw [State.sourceTold_gauge, h]
    exact ⟨by rw [State.learnDisq_gauge _ 7 ho, State.sourceTold_gauge]; rfl, State.learnDisq_raised _ 7 ho⟩

theorem State.sourceChange_gauge (h : s.gauge.learn ≠ .opened) : (s.sourceChange old new).gauge = s.gauge := by
  cases hh : s.bin.held with
  | true => rw [s.sourceChange_held _ _ hh, State.learnDisq_other (s.onPower _) (by decide) h, State.onPower_gauge]
  | false =>
    rw [s.sourceChange_runs _ _ hh, State.learnDisq_other _ (by decide) (by rwa [State.sourceTold_gauge]),
      State.sourceTold_gauge]

end

/-! ## A source becomes invalid (R87, R89, R93) -/

section
variable {s : State} {x : Source} {mv : Nat}

/-- The power path with a failed source, its switch open. -/
def Power.failed (x : Source) (mv : Nat) (p : Power) : Power :=
  { p.invalid x mv with
    src := if p.src = some x then none else p.src, before := if p.src = some x then some x else p.before }

/-- The state with a failed source; for VBAT, with BAT_CUT. -/
def State.failed (x : Source) (mv : Nat) (s : State) : State :=
  (s.onPower (·.failed x mv)).when (x == .bat && s.power.src == some .bat && !s.bin.held) fun s =>
    (s.onPower fun p => { p with batCutSeen := true }).raise 12

/-- At any other level ADP_OV alone follows, of an invalid VADP. -/
theorem execSourceInvalid_stays (hf : ¬s.power.fails x mv = true) : execSourceInvalid x mv s = .next (s.onPower fun p =>
    { p with adpOv := if x = .adp ∧ p.adpValid = false then overLimit x mv else p.adpOv }) := by
  refine (if_neg hf).trans ?_
  cases x <;> rfl

theorem execSourceInvalid_fails (hf : s.power.fails x mv = true) : execSourceInvalid x mv s = .next
    ((s.failed x mv).when ((s.failed x mv).power.before.isSome && (s.failed x mv).power.best.isNone)
      (State.sourceChange (s.failed x mv).power.before none)) := if_pos hf

/-- A source that is not selected. -/
theorem State.failed_other (hs : s.power.src ≠ some x) : s.failed x mv = s.onPower (·.invalid x mv) := by
  have hc : (x == .bat && s.power.src == some .bat && !s.bin.held) = false := by
    cases x <;> simp_all
  have hp : s.power.failed x mv = s.power.invalid x mv := by
    unfold Power.failed
    rw [if_neg hs, if_neg hs]
    cases x <;> rfl
  rw [State.failed, hc, State.when_false]
  exact congrArg (fun p => s.onPower fun _ => p) hp

/-- The selected source. -/
theorem State.failed_selected (hs : s.power.src = some x) : s.failed x mv =
    let u := s.onPower fun p => { p.invalid x mv with src := none, before := some x }
    if x = .bat ∧ s.bin.held = false then (u.onPower fun p => { p with batCutSeen := true }).raise 12 else u := by
  have hc : (x == .bat && s.power.src == some .bat && !s.bin.held) = decide (x = .bat ∧ s.bin.held = false) := by
    rw [hs]
    cases x <;> simp
  have hp : s.power.failed x mv = { s.power.invalid x mv with src := none, before := some x } := by
    unfold Power.failed
    rw [if_pos hs, if_pos hs]
  unfold State.failed State.when
  simp only [hc, decide_eq_true_eq]
  rw [show s.onPower (·.failed x mv) = s.onPower fun p => { p.invalid x mv with src := none, before := some x } from
    congrArg (fun p => s.onPower fun _ => p) hp]

theorem State.failed_power (hs : s.power.src = some x) : (s.failed x mv).power = { s.power.invalid x mv with
    src := none, before := some x
    batCutSeen := (s.power.invalid x mv).batCutSeen || decide (x = .bat ∧ s.bin.held = false) } := by
  rw [State.failed_selected hs]
  split <;> simp [*]

@[simp] theorem State.failed_bin : (s.failed x mv).bin = s.bin :=
  State.when_keeps _ State.bin _ _ (State.raise_bin _ 12)

/-- VBAT that fails raises EV12 while the Binnacle runs. -/
theorem State.failed_cut (hs : s.power.src = some .bat) (hh : s.bin.held = false) :
    (s.failed .bat mv).ev.raised.getLsbD 12 = true := by
  rw [State.failed_selected hs]
  exact (congrArg (fun t : State => t.ev.raised.getLsbD 12) (if_pos ⟨rfl, hh⟩)).trans (State.raise_latched _ 12 (by omega))

/-- The switch of a selected source opens, and with no valid source left that is a change to none. -/
theorem execSourceInvalid_selected (hf : s.power.fails x mv = true) (hs : s.power.src = some x) :
    execSourceInvalid x mv s = .next ((s.failed x mv).when (s.power.invalid x mv).best.isNone
      (State.sourceChange (some x) none)) := by
  rw [execSourceInvalid_fails hf, State.failed_power hs]
  rfl

end

/-! ## The selector (R88, R89) -/

variable (s : State)

theorem Power.held_eq (p : Power) : p.held = if p.before.isSome then p.before else p.src := by
  unfold Power.held
  cases p.before <;> rfl

theorem execSourceSwitchClose_same (h : s.power.best = none ∨ s.power.best = s.power.src) :
    execSourceSwitchClose s = .next s := by
  unfold execSourceSwitchClose
  split
  · rename_i b hb
    rcases h with h | h
    · rw [h] at hb
      cases hb
    · exact if_pos (h.symm.trans hb)
  · rfl

theorem execSourceSwitchClose_closes (hn : s.power.best ≠ none) (hs : s.power.best ≠ s.power.src) :
    execSourceSwitchClose s = .next (s.sourceChange s.power.held s.power.best) := by
  unfold execSourceSwitchClose
  split
  · rename_i b hb
    rw [hb] at hs ⊢
    exact if_neg (Ne.symm hs)
  · exact absurd ‹_› hn

/-! ## VAON (R109, R110, R150) -/

/-- VAON follows VBAK; FSO_BAK is to stamp it while the Binnacle runs. -/
def State.toVbak : State := (s.onPower fun p => { p with onVbak := true }).when (!s.bin.held) (State.stampFso .bak)

theorem State.toVbak_eq : s.toVbak = { s with
    power := { s.power with onVbak := true }
    bin := if s.bin.held then s.bin else { s.bin with fsoBakDue := true } } := by
  unfold State.toVbak
  cases s.bin.held <;> rfl

end Sys2Proof.Machine

namespace Sys2Proof.Proofs

open Sys2Proof Sys2Proof.Machine

theorem sourcesBecomeValidAndInvalid : Claims.SourcesBecomeValidAndInvalid := by
  intro s mv r hr p high ov gone left
  rw [sourceRows_eq] at hr
  obtain ⟨x, -, rfl⟩ := List.mem_map.1 hr
  have hgone : p.invalid x mv = gone := p.invalid_eq x mv
  have hleft : (p.invalid x mv).best.isNone = !left := by rw [hgone]; exact gone.best_isNone
  have fails : mv < p.falling x ∨ high = true → p.fails x mv = true := (p.fails_iff x mv).2
  refine ⟨fun hr hu => ?_, fun h => if_neg ?_, fun hf hh => ?_, fun h => ⟨fun hs hb => ?_, fun hs hl => ?_,
    fun hs hl hb => ?_⟩⟩
  · refine (if_pos ((p.deglitches_iff x mv).2 ⟨hr, hu⟩)).trans ?_
    cases x <;> simp [State.onPower, Power.setValid, Claims.withValid, p]
  · rw [p.deglitches_iff]
    rintro ⟨hr, hu⟩
    rcases h with h | ⟨u, h, hm⟩
    · exact absurd hr (Nat.not_le.2 h)
    · exact absurd (hu u h) (Nat.not_lt.2 hm)
  · have hn : ¬s.power.fails x mv = true := by
      rw [Power.fails_iff]
      rintro (h | h)
      · exact absurd hf (Nat.not_le.2 h)
      · exact Bool.noConfusion (hh.symm.trans h)
    refine (execSourceInvalid_stays hn).trans ?_
    rw [show overLimit x mv = false from hh]
    rfl
  · have hb : s.power.before = none := hb
    rw [← hgone]
    refine (execSourceInvalid_fails (fails h)).trans ?_
    rw [State.failed_other hs, State.onPower_power, Power.invalid_before, hb]
    rfl
  · refine (execSourceInvalid_selected (fails h) hs).trans ?_
    rw [hleft, hl, State.failed_selected hs, ← hgone]
    rfl
  · have hk : (s.failed x mv).bin.held = false := (congrArg BinIo.held State.failed_bin).trans hb
    refine ⟨(s.failed x mv).sourceChange (some x) none, ?_, ?_, State.sourceChange_counts _ _ _ hk, ?_⟩
    · refine (execSourceInvalid_selected (fails h) hs).trans ?_
      rw [hleft, hl]
      rfl
    · rw [State.sourceChange_runs _ _ _ hk, State.learnDisq_power, State.sourceTold_power,
        State.failed_power hs, ← hgone, hb]
      cases x <;> simp [Power.invalid, Power.setValid, p]
    · intro hx
      have hx : x = .bat := hx
      subst hx
      exact State.sourceChange_raised _ _ _ 12 (State.failed_cut hs hb)

theorem selectorClosesTheBestSource : Claims.SelectorClosesTheBestSource := by
  intro s best old
  have hold : s.power.held = old := s.power.held_eq
  refine ⟨fun h => execSourceSwitchClose_same s h, fun hn hs => ⟨s.sourceChange old best,
    hold ▸ execSourceSwitchClose_closes s hn hs, s.sourceChange_frame old best, fun h => ?_, fun h => ?_,
    s.sourceChange_ends old best, s.sourceChange_gauge old best⟩⟩
  · rw [s.sourceChange_held old best h, State.learnDisq_power, State.learnDisq_bin]
    exact ⟨rfl, rfl⟩
  · refine ⟨?_, s.sourceChange_counts old best h, ?_⟩
    · rw [s.sourceChange_runs old best h, State.learnDisq_power, State.sourceTold_power]
    · rw [s.sourceChange_runs old best h, State.learnDisq_bin, State.sourceTold_bin]

/-- Settles O20: a source that fails and a selector that closes are each a change of the selected source, said once. -/
theorem sourcesAreJudgedAndSelected : Obligations.SourcesAreJudgedAndSelected :=
  ⟨sourcesBecomeValidAndInvalid, selectorClosesTheBestSource⟩

/-- Settles O22: the transfer to VBAK is a mark, the stamp that it asks for, and the end of an OPEN learn. -/
theorem alwaysOnSupplyIsRecorded : Obligations.AlwaysOnSupplyIsRecorded := by
  intro s mv
  refine ⟨fun h => ⟨if_pos h, ?_⟩, fun h => ⟨if_neg (by simp [h]), s.toVbak.learnDisq 6, if_neg (by simp [h]), ?_, ?_, ?_,
    fun hl => ?_, fun hl => ?_⟩, fun hm hv hh => if_pos ⟨hm, hv, hh⟩, fun h => if_neg ?_, ?_⟩
  · intro back told
    refine (if_pos h).trans (congrArg (fun t : State =>
      (.next (t.onDom fun d => { d with vsysUp := true }).startWanted : Out)) ?_)
    show State.when (!s.bin.held) _ back = if s.bin.held then back else _
    cases s.bin.held <;> rfl
  · refine State.ext_parts ?_ ?_ rfl ?_ ?_ rfl rfl ?_ ?_ rfl rfl ?_ ?_ rfl rfl rfl ?_
    all_goals simp [State.toVbak_eq]
  · rw [State.learnDisq_power, State.toVbak_eq]
  · rw [State.learnDisq_bin, State.toVbak_eq]
  · have ho : s.toVbak.gauge.learn = .opened := by rw [State.toVbak_eq, hl]
    refine ⟨?_, State.learnDisq_raised _ 6 ho⟩
    rw [State.learnDisq_gauge _ 6 ho, State.toVbak_eq]
    rfl
  · have ho : s.toVbak.gauge.learn ≠ .opened := by rwa [State.toVbak_eq]
    rw [State.learnDisq_other _ (by decide) ho, State.toVbak_eq]
    exact ⟨rfl, rfl⟩
  · rintro ⟨hm, hv, hh⟩
    rcases h with h | h | h
    · exact h hm
    · exact absurd hv (Nat.not_lt.2 h)
    · rw [hh] at h
      cases h
  · simp [State.chargesVbak, and_assoc]

end Sys2Proof.Proofs
end

section
/-! PROOFS. The wake tick, the event inputs, the comparators and PWRKEY (R111, R139, R143 to R149, R152, R153, R172). -/

namespace Sys2Proof.Machine

variable (s : State)

/-! ## An event with its wake source (R172, R302) -/

theorem State.raise_wakeEn (e : Nat) : (s.raise e).dom.wakeEn = s.dom.wakeEn :=
  (congrArg Domains.wakeEn (s.raise_unwoken e) :)

/-- Its event is latched. -/
theorem State.raise_wake_raised {e : Nat} (k : Nat) (he : e < 96) :
    ((s.raise e).wake k [.cpu]).ev.raised.getLsbD e = true := by
  rw [State.wake_ev]
  exact s.raise_latched e he

/-- Its source is latched while it is enabled. -/
theorem State.raise_wake_flag (e : Nat) {k : Nat} (hk : k < 32) (h : s.dom.wakeEn.getLsbD k = true) :
    ((s.raise e).wake k [.cpu]).dom.wakeFlags.getLsbD k = true :=
  State.wake_flag _ k _ hk (by rw [State.raise_wakeEn, h])

/-- It may set SYSON_ON. -/
theorem State.raise_wake_sysonAuto (e k j : Nat) : (((s.raise e).wake k [.cpu]).sysonAuto j).bin =
    { s.bin with sysonOn := s.bin.sysonOn || s.bin.sysonAuto.getLsbD j } := by
  rw [State.sysonAuto, State.onBin_bin, State.wake_bin, State.raise_bin]

/-! ## The wake tick (R139) -/

theorem State.tickReached_iff : s.tickReached = true ↔ s.cal.tickDone = false ∧
    let p := s.bin.tickCounts
    let now := s.cal.lsec.toNat * 32768 + s.cal.subsec.toNat
    if s.cal.jumped then now % p = 0 else now ≠ s.cal.before ∧ now / p ≠ s.cal.before / p := by
  unfold State.tickReached
  cases s.cal.jumped <;> simp

/-! ## Event inputs (R143, R144, R148) -/

section
variable {s} {i : Fin 4} {up : Bool} {n : Nat}

/-- The Binnacle after a counted edge: EVTn as it has become, the edge of this period, and the W1C bits set in this cycle. -/
def BinIo.counted (i : Fin 4) (up : Bool) (m : Byte) (e : EventInput) (b : BinIo) : BinIo :=
  { b with
    evts := b.evts.set i e, evtNow := b.evtNow ||| evtBit i up, setNow := (0x0181 + 0x10 * i.val, m) :: b.setNow }

theorem State.evtCount_first (h : s.bin.evts[i].stamped = false) : s.evtCount i up =
    (((s.onBin fun b => b.counted i up 0x01 { b.evts[i] with
      level := up, count := satInc b.evts[i].count, stamped := true, first := s.cal.stamp }).raise (20 + i.val)).wake
        (2 + i.val) [.cpu]).sysonAuto 4 := by
  unfold State.evtCount
  dsimp only
  rw [h]
  rfl

theorem State.evtCount_again (h : s.bin.evts[i].stamped = true) : s.evtCount i up =
    (((s.onBin fun b => b.counted i up 0x03 { b.evts[i] with
      level := up, count := satInc b.evts[i].count, ovr := true }).raise (20 + i.val)).raise 24).wake (2 + i.val) [.cpu] := by
  unfold State.evtCount
  dsimp only
  rw [h]
  rfl

theorem execEvtEdge_ignored (h : s.bin.held = true ∨ n < filterLength s.bin.evts[i].filt) :
    execEvtEdge i up n s = .next s := by
  refine if_pos ?_
  simpa using h

/-- An edge that its filter lets pass, but that is not counted, only shows. -/
theorem execEvtEdge_shows (hh : s.bin.held = false) (hn : filterLength s.bin.evts[i].filt ≤ n)
    (h : s.bin.evts[i].pps = true ∨ selects s.bin.evts[i].edge up = false ∨ s.bin.evtNow &&& evtBit i up ≠ 0) :
    execEvtEdge i up n s =
      .next (s.onBin fun b => { b with evts := b.evts.set i { b.evts[i] with level := up } }) := by
  refine (if_neg ?_).trans (if_pos ?_)
  · simpa [hh] using hn
  · simpa [or_assoc] using h

theorem execEvtEdge_counts (hh : s.bin.held = false) (hn : filterLength s.bin.evts[i].filt ≤ n)
    (hp : s.bin.evts[i].pps = false) (hs : selects s.bin.evts[i].edge up = true) (ho : s.bin.evtNow &&& evtBit i up = 0) :
    execEvtEdge i up n s = .next (s.evtCount i up) := by
  refine (if_neg ?_).trans (if_neg ?_)
  · simpa [hh] using hn
  · rw [Fin.getElem_fin] at hp hs
    simp [hp, hs, ho]

end

/-! ## Comparators (R152, R153) -/

section
variable {s} {i : Fin 4} {mv n : Nat}

theorem Comparator.result_eq (c : Comparator) (mv : Nat) : c.result mv =
    decide (200 + 50 * c.thr.toNat ≤ mv + (if c.out then 25 * min 2 c.hyst.toNat else 0)) := by
  unfold Comparator.result
  cases c.out <;> rfl

theorem execCmpTrip_ignored (h : s.bin.held = true ∨ s.bin.cmps[i].edge = 0 ∨ s.bin.cmps[i].result mv = s.bin.cmps[i].out ∨
    n < filterLength s.bin.cmps[i].filt) : execCmpTrip i mv n s = .next s := by
  refine if_pos ?_
  simpa [or_assoc] using h

/-- A crossing in a direction that is not selected only shows. -/
theorem execCmpTrip_shows (hh : s.bin.held = false) (he : s.bin.cmps[i].edge ≠ 0)
    (hr : s.bin.cmps[i].result mv ≠ s.bin.cmps[i].out) (hn : filterLength s.bin.cmps[i].filt ≤ n)
    (hs : selects s.bin.cmps[i].edge (s.bin.cmps[i].result mv) = false) : execCmpTrip i mv n s =
      .next (s.onBin fun b => { b with cmps := b.cmps.set i { b.cmps[i] with out := s.bin.cmps[i].result mv } }) := by
  refine (if_neg ?_).trans ?_
  · simpa [hh, and_assoc] using And.intro he (And.intro hr hn)
  · simp only [hs, State.when_false, Bool.or_false]

/-- One in a selected direction trips. -/
theorem execCmpTrip_trips (hh : s.bin.held = false) (he : s.bin.cmps[i].edge ≠ 0)
    (hr : s.bin.cmps[i].result mv ≠ s.bin.cmps[i].out) (hn : filterLength s.bin.cmps[i].filt ≤ n)
    (hs : selects s.bin.cmps[i].edge (s.bin.cmps[i].result mv) = true) : execCmpTrip i mv n s =
      .next ((((s.onBin fun b => BinIo.mark (0x0171 + 2 * i.val) 0x20 { b with
        cmps := b.cmps.set i { b.cmps[i] with out := s.bin.cmps[i].result mv, tripped := true } }).raise (28 + i.val)).wake
          (6 + i.val) [.cpu]).sysonAuto 5) := by
  refine (if_neg ?_).trans ?_
  · simpa [hh, and_assoc] using And.intro he (And.intro hr hn)
  · simp only [hs, State.when_true, Bool.or_true]
    rfl

end

end Sys2Proof.Machine

namespace Sys2Proof.Proofs

open Sys2Proof Sys2Proof.Machine

theorem wakeTickFiresAtItsPeriod : Claims.WakeTickFiresAtItsPeriod := by
  intro s samples p now due
  have reached : s.tickReached = true ↔ s.cal.tickDone = false ∧ due := s.tickReached_iff
  refine ⟨fun he hd h => if_pos ?_, fun h => if_neg ?_, fun hh hn => ?_, fun h => ?_⟩
  · rw [he, reached.2 ⟨hd, h⟩]
    rfl
  · rw [Bool.and_eq_true, reached]
    rintro ⟨he, hd, hdue⟩
    rcases h with h | h | h
    · rw [he] at h
      cases h
    · rw [hd] at h
      cases h
    · exact h hdue
  · exact congrArg _ (if_pos (by simp [hh, hn]))
  · refine congrArg _ (if_neg ?_)
    rcases h with h | h <;> simp [h]

theorem edgesAndTripsWake : Claims.EdgesAndTripsWake := by
  intro s i up n mv hh e c chosen once high hit
  have hhigh : c.result mv = high := c.result_eq mv
  refine ⟨fun hn => execEvtEdge_ignored (.inr hn), fun hn h => execEvtEdge_shows hh hn h, fun hn hp hc ho => ?_,
    fun h => execCmpTrip_ignored (.inr (hhigh ▸ h)), fun he hr hn => ?_⟩
  · refine ⟨s.evtCount i up, execEvtEdge_counts hh hn hp hc ho, ?_⟩
    have event : 20 + i.val < 96 := by omega
    have source : 2 + i.val < 32 := by omega
    by_cases hs : e.stamped = true
    · rw [State.evtCount_again hs]
      refine ⟨?_, ?_, fun hw => State.raise_wake_flag _ 24 source (by rw [State.raise_wakeEn]; exact hw), ?_, fun h => ?_,
        fun _ => ⟨?_, ?_⟩⟩
      · apply State.ext_parts <;> simp
      · rw [State.wake_ev]
        exact (Answered.raise _ 24).raised _ (State.raise_latched _ _ event)
      · rw [State.wake_bin, State.raise_bin, State.raise_bin]
        rfl
      · exact absurd hs (by rw [h]; decide)
      · exact State.raise_wake_raised _ _ (by omega)
      · rw [State.wake_bin, State.raise_bin, State.raise_bin]
        rfl
    · have hs : e.stamped = false := Bool.eq_false_of_not_eq_true hs
      rw [State.evtCount_first hs]
      have bin := State.raise_wake_sysonAuto (s.onBin fun b => b.counted i up 0x01 { b.evts[i] with
        level := up, count := satInc b.evts[i].count, stamped := true, first := s.cal.stamp }) (20 + i.val) (2 + i.val) 4
      refine ⟨?_, State.raise_wake_raised _ _ event, fun hw => ?_, ?_, fun _ => ?_, fun h => ?_⟩
      · apply State.ext_parts <;> simp
      · rw [State.sysonAuto_dom]
        exact State.raise_wake_flag _ _ source hw
      · rw [bin]
        rfl
      · rw [bin]
        exact ⟨rfl, rfl, rfl⟩
      · exact absurd h (by rw [hs]; decide)
  · have hr : c.result mv ≠ c.out := hhigh ▸ hr
    have hhit : selects c.edge (c.result mv) = hit := by rw [hhigh]; rfl
    have event : 28 + i.val < 96 := by omega
    have source : 6 + i.val < 32 := by omega
    rw [← hhigh]
    refine ⟨fun h => execCmpTrip_shows hh he hr hn (hhit.trans h), fun h => ⟨_, execCmpTrip_trips hh he hr hn (hhit.trans h),
      ?_, ?_, State.raise_wake_raised _ _ event, fun hw => ?_, ?_⟩⟩
    · apply State.ext_parts <;> simp
    · rw [State.raise_wake_sysonAuto]
      rfl
    · rw [State.sysonAuto_dom]
      exact State.raise_wake_flag _ _ source hw
    · rw [State.raise_wake_sysonAuto]
      rfl

theorem powerKeyPressesAreClassed : Claims.PowerKeyPressesAreClassed := by
  intro s ms long press
  have pressed (k : Nat) (level : Bool) : s.pressed k level = press k level := rfl
  have bin (k : Nat) (level : Bool) : (press k level).bin = { s.bin with
      pkStat := s.bin.pkStat ||| (1#3 <<< k), pkLevel := level, setNow := (0x0145, 1#8 <<< k) :: s.bin.setNow } := by
    simp [press]
  refine ⟨fun hh h1 h2 => ?_, fun h => ?_, fun hh h => ?_, fun h => ?_, fun hh ho h => ?_, fun h => ?_⟩
  · exact congrArg _ (if_pos (by simp [hh, h1, show ms < s.bin.longMs from h2]))
  · refine congrArg _ (if_neg ?_)
    have h : s.bin.held = true ∨ ms < 32 ∨ s.bin.longMs ≤ ms := h
    rcases h with h | h | h <;> simp [h]
  · refine (congrArg _ (if_pos (by simp [hh, show s.bin.longMs ≤ ms from h]))).trans ?_
    have auto : ((press 1 true).bin.sysonOn || (press 1 true).bin.sysonAuto.getLsbD 0) =
        (s.bin.sysonOn || s.bin.sysonAuto.getLsbD 0) := by rw [bin]
    exact congrArg (fun v => (.next { press 1 true with bin := { (press 1 true).bin with sysonOn := v } } : Out)) auto
  · refine congrArg _ (if_neg ?_)
    have h : s.bin.held = true ∨ ms < s.bin.longMs := h
    rcases h with h | h <;> simp [h]
  · refine (if_pos (by simp [hh, ho, h])).trans ?_
    rw [pressed]
    rfl
  · refine if_neg ?_
    rcases h with h | h | h <;> simp [h]

/-- R111: while the Binnacle is held no edge and no comparator result is taken. -/
theorem ticksEdgesAndTripsWake : Claims.TicksEdgesAndTripsWake :=
  ⟨wakeTickFiresAtItsPeriod, edgesAndTripsWake, fun _ _ _ _ _ h =>
    ⟨execEvtEdge_ignored (.inl h), execCmpTrip_ignored (.inl h)⟩⟩

/-- Settles O28: each row is its guard, and an event with the wake source that it latches. -/
theorem ticksTripsAndKeyPresses : Obligations.TicksTripsAndKeyPresses := ⟨ticksEdgesAndTripsWake, powerKeyPressesAreClassed⟩

end Sys2Proof.Proofs
end

section
/-! PROOFS. The gauge's readings, levels, rests and fixes (R402 to R415, R422). -/

namespace Sys2Proof.Machine

variable (s : State)

/-! ## Records leave PWR alone (R281) -/

theorem State.raise_pwr (e : Nat) : (s.raise e).dom.pwr = s.dom.pwr := s.raise_other e (d := .pwr) (by decide)

theorem State.need_memB_pwr : (s.need .memB).dom.pwr = s.dom.pwr := by
  unfold State.need
  split
  · rfl
  · exact (State.startOn_other (d := .memB) (e := .pwr) _ (by decide)).trans
      (State.startOn_other (d := .hif) (e := .pwr) _ (by decide))

theorem State.putRecord_pwr (r : Rec) : (s.putRecord r).dom.pwr = s.dom.pwr := by
  simp only [State.putRecord]
  split <;> rw [State.when_keeps _ (fun t => t.dom.pwr) _ _ (State.raise_pwr _ _)] <;> rfl

theorem State.gaugeRecord_pwr (bit : Nat) (type : Byte) (clamped : Bool) (payload : List Byte) :
    (s.gaugeRecord bit type clamped payload).dom.pwr = s.dom.pwr := by
  unfold State.gaugeRecord State.record
  split
  · split
    · split
      · exact State.putRecord_pwr _ _
      · exact State.when_keeps _ (fun t => t.dom.pwr) _ _ (State.need_memB_pwr _)
    · rfl
  · rfl

theorem State.fill_dom (fs : List (Nat × Option (List Byte))) : (s.fill fs).2.dom = s.dom := by
  unfold State.fill
  dsimp only
  split <;> rfl

theorem State.learnDisq_pwr (cause : Nat) : (s.learnDisq cause).dom.pwr = s.dom.pwr := by
  unfold State.learnDisq
  split
  · rw [State.raise_pwr, State.onGauge_dom]
    refine State.when_keeps _ (fun t => t.dom.pwr) _ _ ?_
    exact (State.gaugeRecord_pwr _ _ _ _ _).trans (congrArg Domains.pwr (State.fill_dom _ _))
  · split <;> rfl
  · rfl

/-! ## A reading (R403, R404, R411) -/

section
variable (n sum rts : Nat)

/-- The gauge with a reading. -/
def Gauge.reading (g : Gauge) : Gauge :=
  { g with
    vcell := cellReading (gCells g.cfg) n sum
    tpack := (tsReading (gNtcB g.cfg) rts).1
    tsOpen := (tsReading (gNtcB g.cfg) rts).2.1
    tsShort := (tsReading (gNtcB g.cfg) rts).2.2 }

theorem State.takeReading_eq : s.takeReading n sum rts = (s.onGauge (·.reading n sum rts)).when
    (s.gauge.learn == .opened && learnTempBad (s.gauge.reading n sum rts).tpack) (State.learnDisq 1) := rfl

theorem State.takeReading_gauged : Gauged s (s.takeReading n sum rts) :=
  (Gauged.onGauge s _).when _ (State.learnDisq_gauged _ 1)

theorem State.takeReading_isOn : (s.takeReading n sum rts).isOn .pwr = s.isOn .pwr :=
  congrArg (fun x : DomSt => x.st == .on) (State.when_keeps _ (fun t : State => t.dom.pwr) _ _ (State.learnDisq_pwr _ 1))

/-- It changes the results, and may end the learn. -/
theorem State.takeReading_gauge : (s.takeReading n sum rts).gauge = { s.gauge.reading n sum rts with
    learn := (s.takeReading n sum rts).gauge.learn, lastDisq := (s.takeReading n sum rts).gauge.lastDisq } := by
  rw [State.takeReading_eq]
  cases hc : s.gauge.learn == .opened && learnTempBad (s.gauge.reading n sum rts).tpack
  · rfl
  · rw [State.when_true, State.learnDisq_gauge]
    · rfl
    · exact LawfulBEq.eq_of_beq (Bool.and_eq_true_iff.1 hc).1

/-- A learn that is OPEN after a reading was OPEN before it; one that it ends raises EV84. -/
theorem State.takeReading_learn : ((s.takeReading n sum rts).gauge.learn = .opened → s.gauge.learn = .opened) ∧
    (s.gauge.learn = .opened → (s.takeReading n sum rts).gauge.learn = .opened ∨
      (s.takeReading n sum rts).ev.raised.getLsbD 84 = true) := by
  rw [State.takeReading_eq]
  cases hc : s.gauge.learn == .opened && learnTempBad (s.gauge.reading n sum rts).tpack
  · exact ⟨id, .inl⟩
  · have ho : s.gauge.learn = .opened := LawfulBEq.eq_of_beq (Bool.and_eq_true_iff.1 hc).1
    exact ⟨fun _ => ho, fun _ => .inr (State.learnDisq_raised (s.onGauge _) 1 ho)⟩

end

theorem tsReading_open (b rts : Nat) (h : 500000 < rts) : tsReading b rts = (-500, true, false) := if_pos h

theorem tsReading_short (b rts : Nat) (h : rts < 100) : tsReading b rts = (1500, false, true) :=
  (if_neg (by omega)).trans (if_pos h)

/-! ## The charge zone (R106) -/

/-- The zone once a TS result is the latest. -/
def State.zoneFor (t : Int) : TsZone := if s.isOn .pwr then zoneOf s.power.zone t else s.power.zone

theorem State.zoneResult_eq (t : Int) : s.zoneResult t =
    (s.onPower fun p => { p with tsAt := some s.trim.raw, tsTemp := t, zone := s.zoneFor t }).when
      (s.zoneFor t != s.power.zone) (State.raise 11) := by
  unfold State.zoneResult State.zoneFor
  cases s.isOn .pwr
  · rw [if_neg Bool.false_ne_true, bne_self_eq_false]
    rfl
  · rfl

theorem State.zoneResult_power (t : Int) : (s.zoneResult t).power =
    { s.power with tsAt := some s.trim.raw, tsTemp := t, zone := s.zoneFor t } := by
  rw [State.zoneResult_eq]
  exact State.when_keeps _ State.power _ _ (State.raise_power _ 11)

theorem State.zoneResult_frame (t : Int) : s.zoneResult t = { s with
    power := (s.zoneResult t).power, ev := (s.zoneResult t).ev, dom := (s.zoneResult t).dom } := by
  rw [State.zoneResult_eq, State.when_raise_frame]
  rfl

/-- A zone that is entered raises EV11, and no event is taken back. -/
theorem State.zoneResult_bit (t : Int) (k : Nat) : (s.zoneResult t).ev.raised.getLsbD k =
    (s.ev.raised.getLsbD k || (s.zoneFor t != s.power.zone && decide (k = 11))) := by
  rw [State.zoneResult_eq, State.when_raise_bit _ _ (by omega)]
  rfl

/-! ## Levels entered by a reading (R413, R414) -/

/-- The gauge but for its levels, and for what a cause that ends the learn writes. -/
def Gauge.unlevelled (g : Gauge) : Gauge := { g with levels := 0, levelTlm := 0, learn := .none, lastDisq := 0 }

/-- One level is entered, or not. -/
def State.cellLevel (s : State) (k : Nat) : State :=
  if s.gauge.cellLow k && !s.gauge.levels.getLsbD k then s.enterLevel k true else s

theorem State.cellLevel_gauged (k : Nat) : Gauged s (s.cellLevel k) := by
  unfold State.cellLevel State.enterLevel
  split
  · exact (Gauged.onGauge s _).raise _
  · exact .refl s

theorem State.cellLevel_unlevelled (k : Nat) : (s.cellLevel k).gauge.unlevelled = s.gauge.unlevelled := by
  unfold State.cellLevel State.enterLevel
  split
  · rw [State.raise_gauge]
    rfl
  · rfl

theorem State.cellLevels_eq : s.cellLevels = [0, 1, 2].foldl State.cellLevel s := rfl

/-- A level whose voltage threshold is met raises its event as it is entered. -/
theorem State.cellLevel_enters {k : Nat} (hk : k < 3) (h : s.gauge.levels.getLsbD k = false)
    (hv : s.gauge.cellLow k = true) : (s.cellLevel k).ev.raised.getLsbD (85 + k) = true := by
  unfold State.cellLevel State.enterLevel
  rw [hv, h]
  exact State.raise_latched _ (85 + k) (by omega)

/-- It enters no other level. -/
theorem State.cellLevel_other {j k : Nat} (hjk : k ≠ j) :
    (s.cellLevel j).gauge.levels.getLsbD k = s.gauge.levels.getLsbD k := by
  unfold State.cellLevel State.enterLevel
  split
  · have hb : (1#3 <<< j).getLsbD k = false := by
      rw [BitVec.getLsbD_shiftLeft, BitVec.getLsbD_one]
      have : k < j ∨ k - j ≠ 0 := by omega
      rcases this with h | h <;> simp [h]
    rw [State.raise_gauge]
    exact BitVec.getLsbD_or.trans (by rw [hb, Bool.or_false])
  · rfl

theorem Gauge.cellLow_of_unlevelled {g g' : Gauge} (h : g'.unlevelled = g.unlevelled) (k : Nat) : g'.cellLow k = g.cellLow k :=
  (congrArg (fun x : Gauge => x.cellLow k) h :)

section
variable (ks : List Nat)

theorem State.cellLevel_foldl_gauged : Gauged s (ks.foldl State.cellLevel s) := by
  induction ks generalizing s with
  | nil => exact .refl s
  | cons k ks ih => exact (s.cellLevel_gauged k).trans (ih _)

theorem State.cellLevel_foldl_unlevelled : (ks.foldl State.cellLevel s).gauge.unlevelled = s.gauge.unlevelled := by
  induction ks generalizing s with
  | nil => rfl
  | cons k ks ih => exact (ih _).trans (s.cellLevel_unlevelled k)

theorem State.cellLevel_foldl_enters {k : Nat} (hk : k < 3) (hm : k ∈ ks) (h : s.gauge.levels.getLsbD k = false)
    (hv : s.gauge.cellLow k = true) : (ks.foldl State.cellLevel s).ev.raised.getLsbD (85 + k) = true := by
  induction ks generalizing s with
  | nil => cases hm
  | cons j ks ih =>
    by_cases hj : k = j
    · subst hj
      exact (State.cellLevel_foldl_gauged _ ks).raised _ (s.cellLevel_enters hk h hv)
    · refine ih _ ((List.mem_cons.1 hm).resolve_left hj) ?_ ?_
      · rw [s.cellLevel_other hj, h]
      · rw [Gauge.cellLow_of_unlevelled (s.cellLevel_unlevelled j), hv]

end

theorem Gauge.leaveLevels_unlevelled (g : Gauge) : g.leaveLevels.unlevelled = g.unlevelled := by
  unfold Gauge.leaveLevels
  generalize [0, 1, 2] = ks
  induction ks generalizing g with
  | nil => rfl
  | cons k ks ih =>
    refine (ih _).trans ?_
    dsimp only
    split <;> rfl

/-! ## Telemetry (R404, R413, R414) -/

section
variable (bsns : BitVec 14) (rts : Nat)

/-- The reading and its charge zone, each level held now noted as seen by telemetry. -/
def State.telemetryTaken : State :=
  ((s.takeReading 1 bsns.toNat rts).zoneResult (s.takeReading 1 bsns.toNat rts).gauge.tpack).onGauge fun g =>
    { g with levelTlm := g.levelTlm ||| g.levels }

/-- The levels are entered and left. -/
def State.telemetryJudged : State := (s.telemetryTaken bsns rts).cellLevels.onGauge Gauge.leaveLevels

theorem State.telemetryTaken_frame : let a := s.takeReading 1 bsns.toNat rts
    let b := s.telemetryTaken bsns rts
    b = { a with power := b.power, ev := b.ev, dom := b.dom, gauge := b.gauge } := by
  intro a b
  have h := State.zoneResult_frame a a.gauge.tpack
  exact congrArg (State.onGauge fun _ => b.gauge) h

theorem State.telemetryTaken_gauge :
    (s.telemetryTaken bsns rts).gauge.unlevelled = (s.gauge.reading 1 bsns.toNat rts).unlevelled ∧
      (s.telemetryTaken bsns rts).gauge.levels = s.gauge.levels := by
  have h : (s.takeReading 1 bsns.toNat rts).gauge = _ := s.takeReading_gauge 1 bsns.toNat rts
  unfold State.telemetryTaken
  rw [State.zoneResult_frame]
  exact ⟨(congrArg Gauge.unlevelled h :), (congrArg Gauge.levels h :)⟩

theorem State.telemetryTaken_power : (s.telemetryTaken bsns rts).power = { s.power with
    tsAt := some s.trim.raw, tsTemp := (s.takeReading 1 bsns.toNat rts).gauge.tpack
    zone := s.zoneFor (s.takeReading 1 bsns.toNat rts).gauge.tpack } := by
  have h := s.takeReading_gauged 1 bsns.toNat rts
  refine (State.zoneResult_power _ _).trans ?_
  rw [State.zoneFor, State.takeReading_isOn, h.power, h.trim]
  rfl

/-- A zone that it enters raises EV11. -/
theorem State.telemetryTaken_zone
    (h : s.zoneFor (s.takeReading 1 bsns.toNat rts).gauge.tpack ≠ s.power.zone) :
    (s.telemetryTaken bsns rts).ev.raised.getLsbD 11 = true := by
  have hg := s.takeReading_gauged 1 bsns.toNat rts
  have hz : (s.takeReading 1 bsns.toNat rts).zoneFor (s.takeReading 1 bsns.toNat rts).gauge.tpack ≠
      (s.takeReading 1 bsns.toNat rts).power.zone := by
    rw [State.zoneFor, State.takeReading_isOn, hg.power]
    exact h
  refine (State.zoneResult_bit _ _ 11).trans ?_
  rw [bne_iff_ne.2 hz]
  simp

theorem State.telemetryJudged_gauged : Gauged (s.telemetryTaken bsns rts) (s.telemetryJudged bsns rts) :=
  (State.cellLevel_foldl_gauged _ [0, 1, 2]).trans (.onGauge _ _)

theorem execGaugeTelemetry_reads (h : (s.isOn .gauge && (gTlmInt s.gauge.cfg != 0 || s.power.chgEn)) = true) :
    ∃ t, execGaugeTelemetry bsns rts s = .next t ∧ Reported (s.telemetryJudged bsns rts) t :=
  ⟨_, if_pos h, .gaugeRecord _ _ _ _ _⟩

theorem State.telemetryJudged_gauge : (s.telemetryJudged bsns rts).gauge.unlevelled =
    (s.gauge.reading 1 bsns.toNat rts).unlevelled := by
  rw [← (s.telemetryTaken_gauge bsns rts).1]
  exact (Gauge.leaveLevels_unlevelled _).trans (State.cellLevel_foldl_unlevelled _ [0, 1, 2])

end

end Sys2Proof.Machine

namespace Sys2Proof.Proofs

open Sys2Proof Sys2Proof.Machine

theorem telemetryReadsThePack : Claims.TelemetryReadsThePack := by
  intro s bsns rts
  refine ⟨fun h => if_neg (by rw [h]; decide), fun h => ?_⟩
  obtain ⟨t, ht, hr⟩ := execGaugeTelemetry_reads s bsns rts h
  have ga := s.takeReading_gauged 1 bsns.toNat rts
  have hb := s.telemetryTaken_frame bsns rts
  have gt := (s.telemetryJudged_gauged bsns rts).trans (.of hr)
  have hg : t.gauge.unlevelled = (s.gauge.reading 1 bsns.toNat rts).unlevelled :=
    (congrArg Gauge.unlevelled hr.gauge).trans (s.telemetryJudged_gauge bsns rts)
  have vcell : t.gauge.vcell = (s.gauge.reading 1 bsns.toNat rts).vcell := (congrArg Gauge.vcell hg :)
  have tpack : t.gauge.tpack = (tsReading (gNtcB s.gauge.cfg) rts).1 := (congrArg Gauge.tpack hg :)
  have tsOpen : t.gauge.tsOpen = (tsReading (gNtcB s.gauge.cfg) rts).2.1 := (congrArg Gauge.tsOpen hg :)
  have tsShort : t.gauge.tsShort = (tsReading (gNtcB s.gauge.cfg) rts).2.2 := (congrArg Gauge.tsShort hg :)
  refine ⟨t, ht, vcell, ?_, fun h => ?_, fun h => ?_, fun k hk hv => ?_, ?_, fun hz => ?_, ?_⟩
  · rw [tpack, tsOpen, tsShort]
  · rw [tpack, tsOpen, tsReading_open _ _ h]
    exact ⟨rfl, rfl⟩
  · rw [tpack, tsShort, tsReading_short _ _ h]
    exact ⟨rfl, rfl⟩
  · refine (Gauged.of hr).raised _ (Gauged.raised (.onGauge _ _) _ ?_)
    rw [State.cellLevels_eq]
    refine State.cellLevel_foldl_enters _ [0, 1, 2] k.isLt (by fin_cases k <;> simp) ?_ ?_
    · exact (congrArg (fun v : BitVec 3 => v.getLsbD k.val) (s.telemetryTaken_gauge bsns rts).2).trans hk
    · rw [Gauge.cellLow_of_unlevelled (s.telemetryTaken_gauge bsns rts).1]
      exact decide_eq_true (vcell ▸ hv)
  · have taken : (s.takeReading 1 bsns.toNat rts).gauge.tpack = _ :=
      (congrArg Gauge.tpack (s.takeReading_gauge 1 bsns.toNat rts) :)
    rw [gt.power, s.telemetryTaken_power bsns rts, taken, tpack]
    rfl
  · rw [gt.power, s.telemetryTaken_power bsns rts] at hz
    exact gt.raised 11 (s.telemetryTaken_zone bsns rts hz)
  · refine ⟨(congrArg Gauge.acc hg :), (congrArg Gauge.soc hg :), (congrArg Gauge.convCnt hg :), (congrArg Gauge.cfg hg :),
      ?_, ?_, ?_, ?_, ?_⟩
    · exact gt.line.trans ((congrArg State.line hb :).trans ga.line)
    · exact gt.flash.trans ((congrArg State.flash hb :).trans ga.flash)
    · exact gt.log.trans ((congrArg State.log hb :).trans ga.log)
    · rw [gt.fw, show (s.telemetryTaken bsns rts).fw = _ from (congrArg State.fw hb :), ga.fw]
    · exact gt.cal.trans ((congrArg State.cal hb :).trans ga.cal)

end Sys2Proof.Proofs
end

section
/-! PROOFS. Rest windows, fixes and the age of a learn (R405 to R412). -/

namespace Sys2Proof.Machine

/-! ## What a fix finds (R407) -/

section
variable {g : Gauge}

theorem Gauge.judgeFix_barred (h : g.tsOpen = true ∨ g.tsShort = true ∨ g.tpack < -200 ∨ 600 < g.tpack ∨
    g.profile = none) : g.judgeFix.2 = none := by
  unfold Gauge.judgeFix
  dsimp only
  split
  · rfl
  · split
    · rfl
    · rename_i hts ht
      have hp : g.profile = none := by
        rcases h with h | h | h | h | h
        · simp [h] at hts
        · simp [h] at hts
        · exact absurd (.inl h) ht
        · exact absurd (.inr h) ht
        · exact h
      rw [hp]

/-- The SoC of a fix from the segment that holds the voltage, if it applies. -/
def Gauge.segmentFix (p : List Byte) (g : Gauge) : Option (Nat × Int × Int) → Option (BitVec 16)
  | some (i, lo, hi) => if hi - lo < 1000 * gFlatMin g.cfg then none
    else some (BitVec.ofInt 16 (roundRat (625 / 2 * ((i : Rat) +
      (if hi = lo then 0 else mkRat (1000 * g.vcell.toNat - lo) (hi - lo).toNat)))))
  | none => some (if 1000 * g.vcell.toNat < profileAt p g.tpack 0 then 0 else 10000)

variable {p : List Byte} (ho : g.tsOpen = false) (hs : g.tsShort = false) (hl : -200 ≤ g.tpack) (hu : g.tpack ≤ 600)
  (hp : g.profile = some p)
include ho hs hl hu hp

/-- With a temperature and a profile, the segment decides. -/
theorem Gauge.judgeFix_profile : g.judgeFix.2 = g.segmentFix p (segment p g.tpack (1000 * g.vcell.toNat)) := by
  unfold Gauge.judgeFix
  dsimp only
  rw [ho, hs, hp, if_neg (by decide), if_neg (by omega)]
  dsimp only
  rcases segment p g.tpack (1000 * g.vcell.toNat) with _ | ⟨i, lo, hi⟩
  · rfl
  · dsimp only [Gauge.segmentFix]
    split <;> rfl

/-- Outside the profile: empty below it, and full above it. -/
theorem Gauge.judgeFix_outside (h : segment p g.tpack (1000 * g.vcell.toNat) = none) :
    g.judgeFix.2 = some (BitVec.ofInt 16 (if 1000 * g.vcell.toNat < profileAt p g.tpack 0 then 0 else 10000)) := by
  rw [Gauge.judgeFix_profile ho hs hl hu hp, h, Gauge.segmentFix]
  split <;> rfl

/-- In a segment that is steep enough: the place in it. -/
theorem Gauge.judgeFix_steep {x : Nat × Int × Int} (h : segment p g.tpack (1000 * g.vcell.toNat) = some x)
    (hf : 1000 * (gFlatMin g.cfg : Int) ≤ x.2.2 - x.2.1) (hx : x.2.1 < x.2.2) : g.judgeFix.2 =
      some (BitVec.ofInt 16 (roundRat (625 / 2 * ((x.1 : Rat) +
        mkRat (1000 * g.vcell.toNat - x.2.1) (x.2.2 - x.2.1).toNat)))) := by
  obtain ⟨i, lo, hi⟩ := x
  dsimp only at hf hx
  rw [Gauge.judgeFix_profile ho hs hl hu hp, h, Gauge.segmentFix, if_neg (by omega), if_neg (by omega)]

/-- In one that is not: no fix. -/
theorem Gauge.judgeFix_flat {x : Nat × Int × Int} (h : segment p g.tpack (1000 * g.vcell.toNat) = some x)
    (hf : x.2.2 - x.2.1 < 1000 * (gFlatMin g.cfg : Int)) : g.judgeFix.2 = none := by
  rw [Gauge.judgeFix_profile ho hs hl hu hp, h]
  exact if_pos hf

end

/-! ## A learn that closes (R409 to R412) -/

variable (s : State)

/-- A close finds a cause, with EV84, or the new capacity, with EV83. -/
theorem State.closeLearn_cases (dSoc dAcc : Int) : ∃ u, Reported s u ∧
    ((∃ k, s.closeLearn dSoc dAcc =
        (u.onGauge fun g => { g with learn := .none, lastDisq := k }).raise 84) ∨
      ∃ q : Nat, s.closeLearn dSoc dAcc = (u.onGauge fun g =>
        { g with learn := .none, learnCnt := g.learnCnt + 1, qFull := BitVec.ofNat 16 q, socK := g.kFor q }).raise 83) := by
  unfold State.closeLearn
  dsimp only
  split
  · exact ⟨_, (Reported.fill _ _).trans (.gaugeRecord _ _ _ _ _), .inl ⟨_, rfl⟩⟩
  · exact ⟨_, (Reported.fill _ _).trans (.gaugeRecord _ _ _ _ _), .inr ⟨_, rfl⟩⟩

/-- The gauge but for its learn. -/
def Gauge.unlearned (g : Gauge) : Gauge :=
  { g with learn := .none, lastDisq := 0, learnCnt := 0, qFull := 0, socK := 0, anchorSoc := 0, anchorAcc := 0 }

/-- `t` is `s` after a fix has had its effect on the learn. -/
structure Fitted (s t : State) : Prop where
  gauged : Gauged s t
  unlearned : t.gauge.unlearned = s.gauge.unlearned
  full : t.gauge.qFull ≠ s.gauge.qFull → s.gauge.learn = .opened ∧ t.gauge.learnCnt = s.gauge.learnCnt + 1 ∧
    t.ev.raised.getLsbD 83 = true
  opened : s.gauge.learn = .opened → t.gauge.learn = .opened ∨ t.ev.raised.getLsbD 83 = true ∨ t.ev.raised.getLsbD 84 = true

theorem State.closeLearn_fitted (dSoc dAcc : Int) (h : s.gauge.learn = .opened) : Fitted s (s.closeLearn dSoc dAcc) := by
  obtain ⟨u, hu, ⟨k, e⟩ | ⟨q, e⟩⟩ := s.closeLearn_cases dSoc dAcc
  · rw [e]
    refine ⟨((Gauged.of hu).trans (.onGauge u _)).raise 84, ?_, fun hq => ?_,
      fun _ => .inr (.inr (State.raise_latched _ 84 (by omega)))⟩
    · rw [State.raise_gauge, ← hu.gauge]
      rfl
    · rw [State.raise_gauge, ← hu.gauge] at hq
      exact absurd rfl hq
  · rw [e]
    have raised := State.raise_latched (u.onGauge fun g =>
        { g with learn := .none, learnCnt := g.learnCnt + 1, qFull := BitVec.ofNat 16 q, socK := g.kFor q }) 83 (by omega)
    refine ⟨((Gauged.of hu).trans (.onGauge u _)).raise 83, ?_, fun _ => ⟨h, ?_, raised⟩, fun _ => .inr (.inl raised)⟩
    · rw [State.raise_gauge, ← hu.gauge]
      rfl
    · rw [State.raise_gauge, ← hu.gauge]
      rfl

theorem Fitted.report {s t u : State} (h : Fitted s t) (k : Reported t u) : Fitted s u where
  gauged := h.gauged.trans (.of k)
  unlearned := by rw [k.gauge, h.unlearned]
  full hq := by
    rw [k.gauge] at hq ⊢
    obtain ⟨ho, hn, he⟩ := h.full hq
    exact ⟨ho, hn, k.raised 83 he⟩
  opened ho := by
    rw [k.gauge]
    exact (h.opened ho).imp_right (Or.imp (k.raised 83) (k.raised 84))

/-- The change of SoC since the learn's anchor. -/
def Gauge.socMoved (g : Gauge) : Int := (g.socA.toNat : Int) - g.anchorSoc

/-- An applied fix closes an OPEN learn that has moved far enough. -/
def State.learnClosed : State :=
  s.when (s.gauge.learn == .opened && 5000 ≤ s.gauge.socMoved.natAbs)
    (State.closeLearn s.gauge.socMoved (s.gauge.accA - s.gauge.anchorAcc))

/-- The next learn is PENDING from the fix. -/
def Gauge.learnAgain (g : Gauge) : Gauge :=
  { g with learn := .pending, anchorSoc := g.socA.toNat, anchorAcc := g.accA }

theorem State.learnFix_eq : s.learnFix = s.learnClosed.onGauge fun g =>
    if s.learnClosed.gauge.learn == .pending || (s.learnClosed.gauge.learn == .none && gLearnEn s.gauge.cfg) then g.learnAgain
    else g := rfl

theorem Fitted.refl (s : State) : Fitted s s := ⟨.refl s, rfl, fun h => absurd rfl h, .inl⟩

theorem State.learnClosed_fitted : Fitted s s.learnClosed := by
  unfold State.learnClosed
  cases hc : s.gauge.learn == .opened && decide (5000 ≤ s.gauge.socMoved.natAbs)
  · exact .refl s
  · exact s.closeLearn_fitted _ _ (LawfulBEq.eq_of_beq (Bool.and_eq_true_iff.1 hc).1)

theorem State.learnFix_fitted : Fitted s s.learnFix := by
  obtain ⟨hg, hu, hf, ho⟩ := s.learnClosed_fitted
  rw [State.learnFix_eq]
  split
  · rename_i again
    refine ⟨hg.trans (.onGauge _ _), hu, hf, fun h => .inr ((ho h).resolve_left fun open_ => ?_)⟩
    rw [open_] at again
    cases again
  · exact ⟨hg.trans (.onGauge _ _), hu, hf, ho⟩

/-! ## A fix (R405, R407, R408) -/

/-- A fix attempt ends the rest. -/
def Gauge.rested (g : Gauge) : Gauge := { g with restMet := false, restOpen := none, restTime := 0, afterFix := true }

/-- The anchor that a fix writes. -/
def Gauge.fixed (v : BitVec 16) (lsec : Word) (g : Gauge) : Gauge :=
  { ({ g.anchor v g.restAcc with restored := false } : Gauge) with fixLsec := lsec, fixSoc := v, fixTemp := g.tpack }

/-- The state after a judged fix: the anchor and the learn, when it applies. -/
def State.fixJudged (fix : Option (BitVec 16)) (s : State) : State :=
  fix.elim s fun v => (s.onGauge (·.fixed v (BitVec.ofNat 32 s.cal.lsec.toNat))).learnFix.raise 82

variable (bsns : List (BitVec 14)) (rts : Nat)

/-- The reading of a fix attempt. -/
def State.fixRead : State := s.takeReading 16 ((bsns.map BitVec.toNat).sum) rts

/-- An attempt that does not apply leaves the gauge as read. -/
def FixFailed (a t : State) : Prop := a.gauge.judgeFix.2 = none ∧ t.gauge = a.gauge.rested

/-- One that does writes the anchor, which the learn then uses, and raises EV82. -/
def FixApplied (v : BitVec 16) (a t : State) : Prop :=
  a.gauge.judgeFix.2 = some v ∧
    Fitted (a.onGauge fun g => g.rested.fixed v (BitVec.ofNat 32 a.cal.lsec.toNat)) t ∧ t.ev.raised.getLsbD 82 = true

theorem execFixAttempt_reports (h : (s.fw.started && s.isOn .gauge && s.gauge.restMet && bsns.length == 16) = true) :
    ∃ t, execFixAttempt bsns rts s = .next t ∧
      Reported (((s.fixRead bsns rts).onGauge Gauge.rested).fixJudged (s.fixRead bsns rts).gauge.judgeFix.2) t := by
  unfold execFixAttempt State.fixRead
  rw [if_pos h]
  dsimp only
  generalize s.takeReading 16 ((bsns.map BitVec.toNat).sum) rts = a
  generalize a.gauge.judgeFix = j
  obtain ⟨res, fix⟩ := j
  refine ⟨_, rfl, Reported.trans ?_ (.gaugeRecord _ _ _ _ _)⟩
  refine Reported.trans ?_ (.fill _ _)
  cases fix with
  | none => exact .refl _
  | some v => exact .refl _

theorem execFixAttempt_cases (h : (s.fw.started && s.isOn .gauge && s.gauge.restMet && bsns.length == 16) = true) :
    ∃ t, execFixAttempt bsns rts s = .next t ∧ Gauged (s.fixRead bsns rts) t ∧
      (FixFailed (s.fixRead bsns rts) t ∨ ∃ v, FixApplied v (s.fixRead bsns rts) t) := by
  obtain ⟨t, ht, hr⟩ := execFixAttempt_reports s bsns rts h
  refine ⟨t, ht, ?_⟩
  generalize s.fixRead bsns rts = a at hr
  cases hf : a.gauge.judgeFix.2 with
  | none =>
    rw [hf] at hr
    exact ⟨(Gauged.onGauge a _).trans (.of hr), .inl ⟨hf, hr.gauge⟩⟩
  | some v =>
    rw [hf] at hr
    have fit : Fitted (a.onGauge fun g => g.rested.fixed v (BitVec.ofNat 32 a.cal.lsec.toNat)) t :=
      ((State.learnFix_fitted _).report (.raise _ 82)).report hr
    exact ⟨(Gauged.onGauge a _).trans fit.gauged, .inr ⟨v, hf, fit, hr.raised 82 (State.raise_latched _ 82 (by omega))⟩⟩

theorem State.fixRead_gauge : (s.fixRead bsns rts).gauge = { s.gauge.reading 16 ((bsns.map BitVec.toNat).sum) rts with
    learn := (s.fixRead bsns rts).gauge.learn, lastDisq := (s.fixRead bsns rts).gauge.lastDisq } := s.takeReading_gauge _ _ _

theorem State.fixRead_learn : ((s.fixRead bsns rts).gauge.learn = .opened → s.gauge.learn = .opened) ∧
    (s.gauge.learn = .opened → (s.fixRead bsns rts).gauge.learn = .opened ∨
      (s.fixRead bsns rts).ev.raised.getLsbD 84 = true) := s.takeReading_learn _ _ _

/-- The gauge but for its anchor. -/
def Gauge.unanchored (g : Gauge) : Gauge :=
  { g with soc := 0, stateValid := false, restored := false, accA := 0, socA := 0, fixLsec := 0, fixSoc := 0, fixTemp := 0 }

theorem FixApplied.anchored {a t : State} {v : BitVec 16} (h : FixApplied v a t) :
    t.gauge.socA = v ∧ t.gauge.accA = a.gauge.restAcc ∧ t.gauge.stateValid = true ∧ t.gauge.restored = false ∧
      t.ev.raised.getLsbD 82 = true ∧ t.gauge.fixSoc = t.gauge.socA := by
  obtain ⟨-, fit, ev⟩ := h
  have socA : t.gauge.socA = v := (congrArg Gauge.socA fit.unlearned :)
  exact ⟨socA, (congrArg Gauge.accA fit.unlearned :), (congrArg Gauge.stateValid fit.unlearned :),
    (congrArg Gauge.restored fit.unlearned :), ev, socA ▸ (congrArg Gauge.fixSoc fit.unlearned :)⟩

section
variable {a t : State} (h : FixFailed a t ∨ ∃ v, FixApplied v a t)
include h

/-- Whatever the attempt finds, it ends the rest and leaves all but the anchor and the learn as read. -/
theorem fix_rested : t.gauge.unlearned.unanchored = a.gauge.rested.unlearned.unanchored := by
  rcases h with ⟨-, hg⟩ | ⟨v, -, fit, -⟩
  · rw [hg]
  · exact (congrArg Gauge.unanchored fit.unlearned :)

/-- What judges the fix decides which. -/
theorem fix_failed (hj : a.gauge.judgeFix.2 = none) : t.gauge = a.gauge.rested := by
  rcases h with ⟨-, hg⟩ | ⟨v, hv, -⟩
  · exact hg
  · rw [hj] at hv
    cases hv

theorem fix_applied {v : BitVec 16} (hj : a.gauge.judgeFix.2 = some v) : FixApplied v a t := by
  rcases h with ⟨hn, -⟩ | ⟨w, hw⟩
  · rw [hj] at hn
    cases hn
  · obtain rfl : w = v := Option.some.inj (hw.1.symm.trans hj)
    exact hw

/-- The capacity changes with an OPEN learn that closes (R412). -/
theorem fix_full (hq : t.gauge.qFull ≠ a.gauge.qFull) :
    a.gauge.learn = .opened ∧ t.gauge.learnCnt = a.gauge.learnCnt + 1 ∧ t.ev.raised.getLsbD 83 = true := by
  rcases h with ⟨-, hg⟩ | ⟨v, -, fit, -⟩
  · exact absurd (congrArg Gauge.qFull hg :) hq
  · exact fit.full hq

/-- An OPEN learn that ends raises EV83 or EV84. -/
theorem fix_opened (ho : a.gauge.learn = .opened) :
    t.gauge.learn = .opened ∨ t.ev.raised.getLsbD 83 = true ∨ t.ev.raised.getLsbD 84 = true := by
  rcases h with ⟨-, hg⟩ | ⟨v, -, fit, -⟩
  · exact .inl ((congrArg Gauge.learn hg :).trans ho)
  · exact fit.opened ho

end

/-! ## Rest windows and old learns (R406, R411) -/

/-- The rest window has lasted T_REST at a quiet conversion. -/
def State.restReady : Bool := s.gaugeRuns && s.gauge.lastQuiet == some true &&
  (s.gauge.restOpen.map fun o => decide (gTRest s.gauge.cfg ≤ s.gauge.convCnt.toNat - o)).getD false

theorem execRestWindowComplete_eq : execRestWindowComplete s = if s.restReady then
    .next (s.onGauge fun g => { g with restMet := true, restOpen := none, restAcc := g.acc }) else .next s := by
  unfold execRestWindowComplete State.restReady
  cases s.gauge.restOpen with
  | none => simp
  | some o => rfl

end Sys2Proof.Machine

namespace Sys2Proof.Proofs

open Sys2Proof Sys2Proof.Machine

theorem restsFixesAndLearnAge : Claims.RestsFixesAndLearnAge := by
  intro s bsns rts ready
  refine ⟨fun h => (execRestWindowComplete_eq s).trans (if_neg ?_), fun h => (execRestWindowComplete_eq s).trans (if_pos h),
    fun h => if_neg (by rw [h]; decide), fun h => ?_, fun h => if_neg ?_, fun ho hn => ?_⟩
  · rw [show s.restReady = false from h]
    decide
  · obtain ⟨t, ht, ga, hc⟩ := execFixAttempt_cases s bsns rts h
    have gs : Gauged s t := (s.takeReading_gauged _ _ _).trans ga
    have read := s.fixRead_gauge bsns rts
    have learn := s.fixRead_learn bsns rts
    generalize s.fixRead bsns rts = a at ga hc read learn
    have rested := fix_rested hc
    have tsOpen : t.gauge.tsOpen = a.gauge.tsOpen := (congrArg Gauge.tsOpen rested :)
    have tsShort : t.gauge.tsShort = a.gauge.tsShort := (congrArg Gauge.tsShort rested :)
    have tpack : t.gauge.tpack = a.gauge.tpack := (congrArg Gauge.tpack rested :)
    have vcell : t.gauge.vcell = a.gauge.vcell := (congrArg Gauge.vcell rested :)
    have profile : a.gauge.profile = s.gauge.profile := (congrArg Gauge.profile read :)
    have cfg : a.gauge.cfg = s.gauge.cfg := (congrArg Gauge.cfg read :)
    have kept (hj : a.gauge.judgeFix.2 = none) : t.gauge.socA = s.gauge.socA ∧
        t.gauge.accA = s.gauge.accA ∧ t.gauge.stateValid = s.gauge.stateValid ∧ t.gauge.soc = s.gauge.soc ∧
        t.gauge.qFull = s.gauge.qFull := by
      rw [fix_failed hc hj, read]
      exact ⟨rfl, rfl, rfl, rfl, rfl⟩
    have applied (soc : Int) (hj : a.gauge.judgeFix.2 = some (BitVec.ofInt 16 soc)) :
        t.gauge.socA = BitVec.ofInt 16 soc ∧ t.gauge.accA = s.gauge.restAcc ∧ t.gauge.stateValid = true ∧
          t.gauge.restored = false ∧ t.ev.raised.getLsbD 82 = true ∧ t.gauge.fixSoc = t.gauge.socA := by
      rw [← show a.gauge.restAcc = s.gauge.restAcc from (congrArg Gauge.restAcc read :)]
      exact (fix_applied hc hj).anchored
    refine ⟨t, ht, (congrArg Gauge.restMet rested :), (congrArg Gauge.restOpen rested :), (congrArg Gauge.restTime rested :),
      (congrArg Gauge.afterFix rested :), vcell.trans (congrArg Gauge.vcell read :), ?_, fun hb => kept ?_,
      fun hto hts hl hu p hp => ?_, fun hq => ?_, fun ho => ?_, ?_⟩
    · rw [tpack, tsOpen, tsShort, read]
      rfl
    · refine Gauge.judgeFix_barred ?_
      rw [← tsOpen, ← tsShort, ← tpack, profile]
      exact hb
    · rw [tsOpen] at hto
      rw [tsShort] at hts
      rw [← profile] at hp
      rw [tpack] at hl hu ⊢
      rw [vcell, ← cfg]
      refine ⟨fun hseg => ?_, fun x hseg => ⟨fun hf hx => ?_, fun hf => ?_⟩⟩
      · exact applied _ (Gauge.judgeFix_outside hto hts hl hu hp hseg)
      · exact applied _ (Gauge.judgeFix_steep hto hts hl hu hp hseg hf hx)
      · obtain ⟨socA, accA, -⟩ := kept (Gauge.judgeFix_flat hto hts hl hu hp hseg hf)
        exact ⟨socA, accA⟩
    · have qFull : a.gauge.qFull = s.gauge.qFull := (congrArg Gauge.qFull read :)
      have learnCnt : a.gauge.learnCnt = s.gauge.learnCnt := (congrArg Gauge.learnCnt read :)
      rw [← qFull] at hq
      obtain ⟨ho, hn, he⟩ := fix_full hc hq
      exact ⟨learn.1 ho, learnCnt ▸ hn, he⟩
    · rcases learn.2 ho with h | h
      · exact fix_opened hc h
      · exact .inr (.inr (ga.raised 84 h))
    · exact ⟨(congrArg Gauge.acc rested :).trans (congrArg Gauge.acc read :),
        (congrArg Gauge.convCnt rested :).trans (congrArg Gauge.convCnt read :),
        (congrArg Gauge.cfg rested :).trans cfg, gs.line, gs.power, gs.flash, gs.log, gs.fw⟩
  · rw [Bool.and_eq_true, beq_iff_eq, decide_eq_true_eq]
    rintro ⟨ho, hn⟩
    rcases h with h | h
    · exact h ho
    · exact absurd hn (Nat.not_le.2 h)
  · refine ⟨s.learnDisq 9, if_pos ?_, s.learnDisq_gauge 9 ho, s.learnDisq_raised 9 ho, ?_⟩
    · rw [Bool.and_eq_true, beq_iff_eq, decide_eq_true_eq]
      exact ⟨ho, hn⟩
    · simp

/-- Settles O52: telemetry is a reading with the levels it enters, and a fix is a reading with the anchor and the learn. -/
theorem readingsRestsAndFixes : Obligations.ReadingsRestsAndFixes := ⟨telemetryReadsThePack, restsFixesAndLearnAge⟩

end Sys2Proof.Proofs
end

section
/-! PROOFS. The canonical form of MEM_B and of the scratch (R154, R158): what it is, and each shared operation, which keeps it.
A rule `Canon.op` carries the form over one operation more, along the operation's own text. -/

namespace Sys2Proof.Machine

/-- MEM_B and the scratch are in canonical form. -/
def Canon (s : State) : Prop := Memory.wf s.berths.mem = true ∧ Memory.wf s.bin.scratch = true

theorem State.memOk_iff (s : State) : s.memOk = true ↔ Canon s := Bool.and_eq_true_iff

namespace Canon

variable {t : State}

/-! ## Updates of one part -/

theorem onLine (h : Canon t) (f : LineDie → LineDie) : Canon (t.onLine f) := h
theorem onLink (h : Canon t) (f : Link → Link) : Canon (t.onLink f) := h
theorem onPower (h : Canon t) (f : Power → Power) : Canon (t.onPower f) := h
theorem onCal (h : Canon t) (f : Cal → Cal) : Canon (t.onCal f) := h
theorem onTrim (h : Canon t) (f : Trim → Trim) : Canon (t.onTrim f) := h
theorem onDom (h : Canon t) (f : Domains → Domains) : Canon (t.onDom f) := h
theorem onSpi (h : Canon t) (f : Spi → Spi) : Canon (t.onSpi f) := h
theorem onTw (h : Canon t) (f : Tw → Tw) : Canon (t.onTw f) := h
theorem onEv (h : Canon t) (f : Events → Events) : Canon (t.onEv f) := h
theorem onFlash (h : Canon t) (f : Flash → Flash) : Canon (t.onFlash f) := h
theorem onLog (h : Canon t) (f : Log → Log) : Canon (t.onLog f) := h
theorem onGauge (h : Canon t) (f : Gauge → Gauge) : Canon (t.onGauge f) := h
theorem onFw (h : Canon t) (f : Firmware → Firmware) : Canon (t.onFw f) := h
theorem onBerth (h : Canon t) (b : Fin 4) (f : Berth → Berth) : Canon (t.onBerth b f) := h

theorem onBin (h : Canon t) (f : BinIo → BinIo) (hf : ∀ b, (f b).scratch = b.scratch) : Canon (t.onBin f) :=
  ⟨h.1, (congrArg Memory.wf (hf t.bin)).trans h.2⟩

theorem onBerths (h : Canon t) (f : Berths → Berths) (hf : ∀ x, (f x).mem = x.mem) : Canon (t.onBerths f) :=
  ⟨(congrArg Memory.wf (hf t.berths)).trans h.1, h.2⟩

theorem storeBytes (h : Canon t) (a : Nat) (bs : List Byte) :
    Canon (t.onBerths fun x => { x with mem := memWriteAll x.mem a bs }) := ⟨memWriteAll_wf _ a bs h.1, h.2⟩

theorem ite {c : Prop} [Decidable c] {a b : State} (ha : Canon a) (hb : Canon b) : Canon (if c then a else b) := by
  split
  · exact ha
  · exact hb

theorem when (h : Canon t) (c : Bool) (f : State → State) (hf : Canon t → Canon (f t)) : Canon (t.when c f) := ite (hf h) h

theorem foldl {α : Type} (f : State → α → State) (hf : ∀ u x, Canon u → Canon (f u x)) (xs : List α) (h : Canon t) :
    Canon (xs.foldl f t) := by
  induction xs generalizing t with
  | nil => exact h
  | cons x xs ih => exact ih (hf t x h)

/-! ## Domains, wakes and events -/

theorem bringOn (h : Canon t) (d : Domain) : Canon (t.bringOn d) := by cases d <;> exact h

theorem need (h : Canon t) (d : Domain) : Canon (t.need d) := ite h (h.bringOn d)

theorem wake (h : Canon t) (k : Nat) (ds : List Domain) : Canon (t.wake k ds) :=
  ite (foldl _ (fun _ d hu => hu.bringOn d) ds (h.onDom _)) h

theorem raise (h : Canon t) (e : Nat) : Canon (t.raise e) := (h.onEv _).when _ _ (·.wake 18 _)

theorem raiseWhenHif (h : Canon t) (e : Nat) : Canon (t.raiseWhenHif e) := ite (h.raise e) (h.onEv _)

theorem startOn (h : Canon t) (d : Domain) : Canon (t.startOn d) := h

theorem startWanted (h : Canon t) : Canon t.startWanted := foldl _ (fun _ d hu => ite (hu.startOn d) hu) _ h

/-! ## Records -/

theorem putRecord (h : Canon t) (r : Rec) : Canon (t.putRecord r) :=
  ite ((h.onBerth _ _).when _ _ (·.raise _)) (((h.storeBytes _ _).onBerth _ _).when _ _ (·.raise _))

theorem record (h : Canon t) (b : Fin 4) (stamp : BitVec 64) (k p f : Byte) (d : List Byte) :
    Canon (t.record b stamp k p f d) := ite (h.putRecord _) ((h.onFw _).when _ _ (·.need .memB))

theorem flushRecords (h : Canon t) : Canon t.flushRecords :=
  ite (foldl _ (fun _ r hu => hu.putRecord r) _ (h.onFw _)) (h.when _ _ (·.need .memB))

theorem fill (h : Canon t) (fs : List (Nat × Option (List Byte))) : Canon (t.fill fs).2 := by
  unfold State.fill
  exact ite h h

theorem gaugeRecord (h : Canon t) (k : Nat) (ty : Byte) (c : Bool) (d : List Byte) : Canon (t.gaugeRecord k ty c d) := by
  unfold State.gaugeRecord
  split
  · exact ite (h.record _ _ _ _ _ _) h
  · exact h

theorem learnDisq (h : Canon t) (c : Nat) : Canon (t.learnDisq c) := by
  unfold State.learnDisq
  split
  · exact ((h.when _ _ fun h => (h.fill _).gaugeRecord _ _ _ _).onGauge _).raise 84
  · exact ite (h.onGauge _) h
  · exact h

/-! ## The ends of a measurement and of the link, and domains that leave ON -/

theorem trimAbort (h : Canon t) (c : Nat) : Canon (t.trimAbort c) :=
  ite ((ite ((h.onTrim _).onFw _) (h.onTrim _)).raise 26) h

theorem linkLeavesUp (h : Canon t) : Canon t.linkLeavesUp := ite ((h.onLink _).trimAbort 1) h

theorem closeWindow (h : Canon t) : Canon t.closeWindow := ((h.onLink _).onTw _).onPower _

theorem beginEntry (h : Canon t) (d : Domain) (w : Low) : Canon (t.beginEntry d w) := by
  have k : Canon (t.onDom fun x => x.set d { st := .entering (t.lowFor d w) }) := h.onDom _
  simp only [State.beginEntry]
  cases d
  case cpu => exact (k.onDom _).onTw _
  case memM => exact k
  case memB => exact k
  case log => exact (k.onDom _).onLog _
  case gauge => exact k.onDom _
  case pwr => exact ((k.onDom _).closeWindow.linkLeavesUp.onPower _).onLink _
  case hif => exact ((k.onDom _).onEv _).onTw _

theorem tryEntry (h : Canon t) (d : Domain) (w : Low) : Canon (t.tryEntry d w) := by
  refine ite (h.onDom _) (ite ?_ (h.beginEntry d w))
  split
  · exact h.onDom _
  · exact (h.beginEntry .log _).beginEntry .cpu w
  · exact h.beginEntry .cpu w

theorem requestEntry (h : Canon t) (d : Domain) (w : Low) : Canon (t.requestEntry d w) := ite ((h.onDom _).tryEntry d w) h

theorem lose (h : Canon t) (d : Domain) : Canon (t.lose d) := by
  cases d
  case cpu => exact (h.onFw _).onDom _
  case memM => exact h.onLog _
  case memB => exact ⟨rfl, h.2⟩
  case log => exact h.onLog _
  case gauge => exact (h.learnDisq 3).onGauge _
  case pwr => exact (h.onPower _).onLink _
  case hif => exact ((h.onFw _).onEv _).onTw _

theorem free (h : Canon t) (n : Nat) : Canon { t with free := n } := h

theorem freeSeqs (h : Canon t) : Canon t.freeSeqs := (foldl _ (fun _ _ hu => hu.onBerth _ _) _ h).free _

theorem resetSwitched (h : Canon t) (c : BitVec 4) : Canon (t.resetSwitched c) := by
  unfold State.resetSwitched
  extract_lets keep a b c d e f g i j
  have kb : Canon b := ((h.onFw _).learnDisq 4).linkLeavesUp
  have kc : Canon c := ite kb (kb.onGauge _)
  have kd : Canon d := ((((((kc.lose .cpu).lose .memM).lose .memB).lose .log).lose .pwr).lose .hif)
  exact (((((kd.onDom _).onEv _).onTw _).onFw _).onLog _).freeSeqs

end Canon

end Sys2Proof.Machine
end

section
/-! PROOFS. The canonical form of the memories, continued: answers, the edge of CK32, and every byte that a host reads or
writes. -/

namespace Sys2Proof.Machine

theorem BinIo.sample_scratch (st : BitVec 64) (b : BinIo) : (b.sample st).scratch = b.scratch := by
  have fso : (b.sampleFso st).scratch = b.scratch := by
    simp only [BinIo.sampleFso, BinIo.mark, apply_ite BinIo.scratch, ite_self]
  unfold BinIo.sample
  dsimp only
  split
  · exact fso
  · exact fso

theorem BinIo.clearFso_scratch (b : BinIo) (v now : Byte) (st : BitVec 64) : (b.clearFso v now st).scratch = b.scratch := by
  simp only [BinIo.clearFso, apply_ite BinIo.scratch, ite_self]

namespace Canon

variable {t : State}

/-! ## Answers, the calendar and the trim -/

theorem postFrame (h : Canon t) (b : Fin 4) (fr : List Byte) : Canon (t.postFrame b fr) :=
  ((h.storeBytes _ _).onBerth _ _).raise _

theorem answer (h : Canon t) (b : Fin 4) (st : Status) (r : List Byte) : Canon (t.answer b st r) := by
  unfold State.answer
  split
  · exact h
  · exact ite (h.onBerth _ _) ((h.onBerth _ _).postFrame _ _)

theorem answerTime (h : Canon t) : Canon t.answerTime := foldl _ (fun _ _ hu => ite (hu.answer _ _ _) hu) _ h

theorem binSet (h : Canon t) (a : Nat) (m : Byte) : Canon (t.binSet a m) := h.onBin _ fun _ => rfl

theorem sysonAuto (h : Canon t) (k : Nat) : Canon (t.sysonAuto k) := h.onBin _ fun _ => rfl

theorem stampFso (h : Canon t) (w : Fso) : Canon (t.stampFso w) := h.onBin _ fun _ => by cases w <;> rfl

theorem commitCmd (h : Canon t) (m : CommitMode) : Canon (t.commitCmd m) :=
  ite (h.onCal _) (((h.onCal _).binSet _ _).raise 16)

theorem calCmd (h : Canon t) (v : Byte) : Canon (t.calCmd v) :=
  ite (h.commitCmd _) (ite (h.commitCmd _) (ite (h.onCal _).answerTime h))

theorem shiftCmd (h : Canon t) (v : Half) : Canon (t.shiftCmd v) := ite ((h.onCal _).binSet _ _) (h.onCal _)

theorem ck32 (h : Canon t) : Canon t.ck32 := by
  obtain ⟨m, edge, parts, -⟩ := t.ck32_answers
  have k : Canon m := by
    rw [parts]
    exact ⟨h.1, (congrArg Memory.wf (BinIo.sample_scratch _ _)).trans h.2⟩
  rw [edge]
  exact k.when _ _ answerTime

theorem edgeOf (h : Canon t) (ks : List EdgeKind) : Canon (t.edgeOf ks) := ite h.ck32 h

theorem trRun (h : Canon t) (v : Bool) : Canon (t.trRun v) := ite (ite (h.onTrim _) (h.onTrim _)) (h.trimAbort 6)

theorem trimResume (h : Canon t) : Canon t.trimResume := ite ((h.onFw _).trRun true) h

/-! ## The accesses of a host -/

theorem violation (h : Canon t) (p : Port) (n : Fin 4) (a k : Nat) : Canon (t.violation p n a k) :=
  (h.onBerths _ fun _ => by exact rfl).raise _

theorem accOff (h : Canon t) (p : Port) (a : Nat) : Canon (t.accOff p a) := (h.onSpi _).raiseWhenHif 32

theorem ringAccept (h : Canon t) (n : Fin 4) : Canon (t.ringAccept n) := ((h.onDom _).onBerth _ _).wake _ _

theorem ring (h : Canon t) (p : Port) (n : Fin 4) : Canon (t.ring p n) :=
  ite (ite (h.onDom _) (h.ringAccept n)) (h.violation _ _ _ _)

theorem setKeep (h : Canon t) (p : Port) (v : BitVec 3) : Canon (t.setKeep p v) := ite (h.onDom _) ((h.onDom _).wake _ _)

theorem chargerGate (h : Canon t) : Canon t.chargerGate := ite (ite (h.onPower _) h) (ite h (h.onPower _))

theorem writeBin (h : Canon t) (a : Nat) (v : Byte) : Canon (t.writeBin a v) := by
  unfold State.writeBin
  repeat' with_reducible apply ite
  all_goals first
    | exact h
    | exact h.onCal _
    | exact h.calCmd _
    | exact (h.onTrim _).trRun _
    | exact h.onTrim _
    | exact h.onBin _ fun _ => rfl
    | exact h.onBin _ fun _ => BinIo.clearFso_scratch _ _ _ _

theorem writeDom (h : Canon t) (p : Port) (a : Nat) (v : Byte) : Canon (t.writeDom p a v) :=
  ite (h.onDom _) (ite (h.setKeep _ _) (ite (h.onDom _) (ite (h.ring _ _) h)))

theorem writePower (h : Canon t) (a : Nat) (v : Byte) : Canon (t.writePower a v) :=
  ite (h.onPower _).chargerGate (ite h (ite (h.onPower _) (h.onPower _)))

theorem writeLink (h : Canon t) (a : Nat) (v : Byte) : Canon (t.writeLink a v) :=
  ite (h.onLink _) (ite (h.onLink _) (h.onLink _))

theorem writeHif (h : Canon t) (a : Nat) (v : Byte) : Canon (t.writeHif a v) :=
  ite (ite (h.onEv _) (ite (h.onEv _) h)) (ite h (h.onTw _))

theorem writeMem (h : Canon t) (n : Fin 4) (a : Nat) (v : Byte) : Canon (t.writeMem n a v) :=
  ite ((h.onBerth _ _).raise 47) ⟨memWrite_wf _ a v h.1, h.2⟩

theorem writeWide (h : Canon t) (base v : Nat) : Canon (t.writeWide base v) := by
  unfold State.writeWide
  split
  · exact h.shiftCmd _
  · exact ite (h.onTrim _) h
  · exact h.onDom _

theorem writeByte (h : Canon t) (p : Port) (w : List (Nat × Byte)) (a : Nat) (v : Byte) : Canon (t.writeByte p w a v) := by
  unfold State.writeByte
  split
  · exact ite (ite (h.writeWide _ _) h) h
  · refine ite ⟨h.1, memWrite_wf _ a v h.2⟩ (ite (ite (h.onSpi _) h) (ite (h.writeBin _ _) (ite (h.writeDom _ _ _)
      (ite (ite (h.onGauge _) h) (ite (h.writePower _ _) (ite (h.writeLink _ _) ?_))))))
    split
    · exact ite (h.writeMem _ _ _) (h.onBerth _ _)
    · exact h.writeHif _ _

theorem refuse (h : Canon t) (x : Xfer) (a k : Nat) (v : Verdict) : Canon (t.refuse x a k v).2 := by
  unfold State.refuse
  split
  · split
    · exact h
    · exact h.violation _ _ _ _
  · split
    · exact h
    · exact h.accOff _ _
  · exact h

theorem xferWrite (h : Canon t) (x : Xfer) (a : Nat) (v : Byte) : Canon (t.xferWrite x a v).2 := by
  unfold State.xferWrite
  split
  · exact h.writeByte _ _ _ _
  · exact h.refuse _ _ _ _

theorem rcClear (h : Canon t) (base v : Nat) : Canon (t.rcClear base v) := by
  unfold State.rcClear
  extract_lets
  split
  case h_10 => exact ite (h.onBin _ fun _ => rfl) (ite (h.onDom _) (ite (h.onEv _) (ite (h.onBerths _ fun _ => rfl) (h.onBerth _ _))))
  all_goals exact h

theorem rcDone (h : Canon t) (x : Xfer) (base len : Nat) : Canon (t.rcDone x base len).2 := by
  unfold State.rcDone
  split
  · exact h
  · dsimp only
    split
    · exact h.rcClear _ _
    · exact h

theorem xferRead (h : Canon t) (x : Xfer) (a : Nat) (c : Bool) : Canon (t.xferRead x a c).2.2 := by
  unfold State.xferRead
  split
  · split
    · exact h
    · cases c
      case false => exact h
      case true => exact h.rcDone _ _ _
    · exact h
  · exact h
  · exact h.refuse _ _ _ _

theorem xferWrites (h : Canon t) (x : Xfer) (a : Nat) (vs : List Byte) : Canon (t.xferWrites x a vs).2 := by
  induction vs generalizing t x a with
  | nil => exact h
  | cons v vs ih => exact ih (h.xferWrite x a v) _ _

theorem xferReads (h : Canon t) (x : Xfer) (a n : Nat) : Canon (t.xferReads x a n).2.2 := by
  induction n generalizing t x a with
  | zero => exact h
  | succ n ih => exact ih (h.xferRead x a true) _ _

theorem portWrite (h : Canon t) (p : Port) (a : Nat) (bs : List Byte) : Canon (t.portWrite p a bs) :=
  h.when _ _ (·.xferWrites _ _ _)

end Canon

end Sys2Proof.Machine
end

section
/-! PROOFS. The canonical form of the memories, continued: the operations of the ports, the dies, the Log engine, the gauge and
firmware. -/

namespace Sys2Proof.Machine

namespace Canon

variable {t : State}

/-! ## Transfers on SPI and transactions on two wires -/

theorem putXfer (h : Canon t) (x : Xfer) : Canon (t.putXfer x) := h.onSpi _

theorem endXfer (h : Canon t) (k : Fin 8) : Canon (t.endXfer k) := by
  unfold State.endXfer
  split
  · exact h
  · exact ite (h.onSpi _) (((h.onSpi _).onSpi _).raise 42)

theorem csClash (h : Canon t) (k : Fin 8) : Canon (t.csClash k) := by
  unfold State.csClash
  split
  · exact h
  · exact ((h.endXfer k).onSpi _).raise 41

theorem twProto (h : Canon t) (c : BitVec 3) : Canon (t.twProto c) := (((h.onTw _).onTw _).onTw _).raise 38
theorem twPecErr (h : Canon t) : Canon t.twPecErr := (((h.onTw _).onTw _).onTw _).raise 33
theorem twPecMiss (h : Canon t) : Canon t.twPecMiss := ((h.onTw _).onTw _).raise 33
theorem sbsFail (h : Canon t) (c : BitVec 3) : Canon (t.sbsFail c) := (h.onTw _).raise 39

theorem probeOk (h : Canon t) (d : List Byte) : Canon (t.probeOk d) := by
  unfold State.probeOk
  split
  · exact ((h.onTw _).raise 44).answer _ _ _
  · exact h

theorem probeFail (h : Canon t) (c : BitVec 3) : Canon (t.probeFail c) := by
  unfold State.probeFail
  split
  · exact ((h.onTw _).raise 40).answer _ _ _
  · exact h

/-! ## The line die and the link -/

theorem whileRunning (h : Canon t) (f : LineDie → LineDie) : Canon (t.whileRunning f) := h.when _ _ (·.onLine f)

theorem uplinkSeen (h : Canon t) : Canon t.uplinkSeen := ite (h.onLink _) h

theorem chargerFollows (h : Canon t) : Canon t.chargerFollows := h.onPower _

theorem linkGoes (h : Canon t) (x : LinkState) : Canon (t.linkGoes x) := (h.linkLeavesUp.onLink _).chargerFollows

theorem linkFault (h : Canon t) : Canon t.linkFault := (h.linkGoes .fault).raise 3

theorem downFrame (h : Canon t) (fr : DownFrame) (f : LineDie → LineDie) : Canon (t.downFrame fr f) :=
  ite ((h.onLink _).whileRunning f) h

theorem upFrame (h : Canon t) (fr : UpFrame) (f : State → State) (hf : ∀ u, Canon u → Canon (f u)) : Canon (t.upFrame fr f) := by
  have k : Canon (t.onLine fun l => { l with upFlight := none }.send) := h.onLine _
  exact ite (ite (hf _ k.uplinkSeen) (ite k.uplinkSeen k)) h

theorem countDiscard (h : Canon t) (n : Nat) : Canon (t.countDiscard n) := ite (h.onLink _).linkFault (h.onLink _)

theorem linkUp (h : Canon t) : Canon t.linkUp := (((h.onLink _).onDom _).onLine _).raise 15

theorem trimZc (h : Canon t) (f : ZcFrame) : Canon (t.trimZc f) := by
  refine ite (ite (h.trimAbort 1) (ite (h.trimAbort 3) (ite h ?_))) h
  split
  · exact ite (h.onTrim _) (h.trimAbort 2)
  · exact h.onTrim _

/-! ## Sources, the charger and the power key -/

theorem sourceChange (h : Canon t) (o n : Option Source) : Canon (t.sourceChange o n) := by
  unfold State.sourceChange
  exact learnDisq ((h.onPower _).when _ _ fun k => ((k.onPower _).raise 7).when _ _ (·.stampFso _)) 7

theorem chgEnter (h : Canon t) (c : ChgState) : Canon (t.chgEnter c) := by
  unfold State.chgEnter
  refine ite h (when (when (when (when (h.onPower _) _ _ ?_) _ _ ?_) _ _ ?_) _ _ ?_)
  case refine_2 => exact fun k => k.onGauge _
  all_goals exact fun k => k.raise _

theorem pressed (h : Canon t) (k : Nat) (l : Bool) : Canon (t.pressed k l) :=
  (((h.onBin _ fun _ => by exact rfl).binSet _ _).raise 27).wake 10 _

/-! ## The Log engine -/

theorem onPath (h : Canon t) (p : Path) (f : PathSt → PathSt) : Canon (t.onPath p f) := h.onLog _

theorem pathRecord (h : Canon t) (p : Path) (stamp : BitVec 64) (k f : Byte) (fs : List (Nat × Option (List Byte))) :
    Canon (t.pathRecord p stamp k f fs) := by
  unfold State.pathRecord
  split
  · exact (h.fill fs).record _ _ _ _ _ _
  · exact h

theorem memUsed (h : Canon t) : Canon t.memUsed := foldl _ (fun _ _ hu => hu.onBerth _ _) _ h

theorem charge (h : Canon t) (b : Option (Fin 4)) (ns : Nat) : Canon (t.charge b ns) := by
  unfold State.charge
  split
  · exact h.onBerth _ _
  · exact h

theorem startSounding (h : Canon t) (p : Path) : Canon (t.startSounding p) :=
  ((h.onPath p _).onLog _).when _ _ (·.raise 70)

theorem startNext (h : Canon t) : Canon t.startNext := by
  refine ite (ite (h.startSounding _) (ite (h.startSounding _) ?_)) h
  split
  · exact h.onLog _
  · exact h

theorem storeWrite (h : Canon t) (b : Fin 4) (a : Bool) (e : Option (Fin 4)) (f : StoreImage → StoreImage) :
    Canon (t.storeWrite b a e f) := h.onFw _

theorem logWrite (h : Canon t) (k b : Byte) (stamp : BitVec 64) (d : List Byte) : Canon (t.logWrite k b stamp d) := h.onFw _

theorem totalsEntry (h : Canon t) (k : Byte) (p : Path) : Canon (t.totalsEntry k p) := by
  unfold State.totalsEntry
  split
  · exact h.logWrite _ _ _ _
  · exact h

theorem saveTotals (h : Canon t) (k : Byte) : Canon (t.saveTotals k) :=
  ((h.when _ _ (·.need .memM)).when _ _ (·.totalsEntry k .a)).when _ _ (·.totalsEntry k .b)

theorem onShot (h : Canon t) (f : Shot → Shot) : Canon (t.onShot f) := h.onLog _

theorem flowRecords (h : Canon t) (x : Sounding) (r : FlowRes) (q : HeatRes) (a b : Bool) : Canon (t.flowRecords x r q a b) :=
  ite ((h.pathRecord _ _ _ _ _).pathRecord _ _ _ _ _) (h.pathRecord _ _ _ _ _)

theorem raiseIf (h : Canon t) (c : Bool) (e : Nat) : Canon (t.when c (State.raise e)) := h.when _ _ (·.raise e)

theorem flowResult (h : Canon t) (x : Sounding) (r : FlowRes) : Canon (t.flowResult x r) := by
  unfold State.flowResult
  exact (((((h.onPath _ _).raiseIf _ _).raiseIf _ _).raiseIf _ _).raise _).when _ _ (·.flowRecords _ _ _ _ _)

theorem finishSounding (h : Canon t) (x : Sounding) : Canon (t.finishSounding x) := by
  unfold State.finishSounding
  have kb := fun f p g => (h.onLog f).onPath p g
  exact ((((kb _ _ _).when _ _ (·.pathRecord _ _ _ _ _)).when _ _ (·.onLog _)).flowResult _ _).startNext

theorem finishPair (h : Canon t) : Canon t.finishPair := (h.onLog _).startNext

theorem endShot (h : Canon t) (r : ShotResult) (w : List (BitVec 14)) : Canon (t.endShot r w) := by
  unfold State.endShot
  split
  · exact h
  · extract_lets learning a b c d y
    have ka : Canon a := ((((h.raiseIf _ _).raiseIf _ _).raiseIf _ _).raiseIf _ _).raiseIf _ _
    have kb : Canon b := ka.when _ _ (·.pathRecord _ _ _ _ _)
    have kc : Canon c := ite (kb.onLog _) (kb.onPath _ _)
    have kd : Canon d := kc.onLog _
    exact ite (ite kd.finishPair (kd.finishSounding _)) (kd.onLog _)

theorem grantLocally (h : Canon t) (e : Nat) (a : BitVec 3) (n : BitVec 13) : Canon (t.grantLocally e a n) := by
  unfold State.grantLocally
  extract_lets refuse
  have refused (c : BitVec 3) : Canon (refuse c) := (h.when _ _ (·.onLink _)).onShot _
  exact ite (refused 2) (ite (refused 0) (h.onLink _).chargerFollows)

theorem calEnds (h : Canon t) (p : Path) (o : CalOutcome) : Canon (t.calEnds p o) := (h.onLog _).onPath _ _

theorem leewayEnds (h : Canon t) (c : Calibration) (a : Bool) : Canon (t.leewayEnds c a) :=
  (((h.calEnds _ _).pathRecord _ _ _ _ _).raise 77).when _ _ fun k => (k.onPath _ _).storeWrite _ _ _ _

theorem rtdComplete (h : Canon t) (r : RtdSet) : Canon (t.rtdComplete r) := by
  refine raiseIf (raise (foldl _ (fun u x hu => ?_) _ (h.onLog _)) 75) _ 76
  dsimp only
  split
  · exact (hu.fill _).record _ _ _ _ _ _
  · exact hu

theorem rtdEnds (h : Canon t) (r : RtdSet) (c : Fin 5) (rest : List (Fin 5)) (k : Option Nat) :
    Canon (t.rtdEnds r c rest k) := by
  unfold State.rtdEnds
  have k := fun b n f => (h.charge b n).onLog f
  exact startNext (ite ((k _ _ _).rtdComplete _) (k _ _ _))

/-! ## Domains that reach ON, resets and handlers -/

theorem takeZone (h : Canon t) : Canon t.takeZone := ite ((h.onPower _).raiseIf _ _) h

theorem restoreHif (h : Canon t) : Canon t.restoreHif := by
  unfold State.restoreHif
  dsimp only
  split
  · exact ((h.onEv _).onFw _).onEv _
  · exact (h.onFw _).onEv _

theorem sysReset (h : Canon t) : Canon t.sysReset := ite ((h.onDom _).raise 80) h

theorem raiseLate (h : Canon t) : Canon t.raiseLate := foldl _ (fun _ e hu => ite (hu.raise e) hu) _ (h.onEv _)

theorem reached (h : Canon t) (d : Domain) (o : Low) (v : Nat) : Canon (t.reached d o v) := by
  cases d
  case cpu => exact h
  case memM => exact h
  case memB => exact (h.when _ _ (·.memUsed)).flushRecords
  case log => exact (h.onLog _).startNext
  case gauge => exact ite ((h.onGauge _).raise 93) h
  case pwr => exact (h.onDom _).takeZone.chargerGate
  case hif => exact (h.raiseLate.when _ _ (·.restoreHif)).sysReset

theorem fwReset (h : Canon t) (c : BitVec 4) : Canon (t.fwReset c) := (h.resetSwitched c).onFw _

/-! ## The gauge -/

theorem enterLevel (h : Canon t) (k : Nat) (a : Bool) : Canon (t.enterLevel k a) := (h.onGauge _).raise _

theorem socLevels (h : Canon t) : Canon t.socLevels := foldl _ (fun _ k hu => ite (hu.enterLevel k false) hu) _ h

theorem cellLevels (h : Canon t) : Canon t.cellLevels := foldl _ (fun _ k hu => ite (hu.enterLevel k true) hu) _ h

theorem eocCheck (h : Canon t) : Canon t.eocCheck := ite h (ite ((h.onGauge _).raise 92) (ite (h.onGauge _) h))

theorem takeReading (h : Canon t) (n sum rts : Nat) : Canon (t.takeReading n sum rts) := by
  unfold State.takeReading
  exact (h.onGauge _).when _ _ (·.learnDisq 1)

theorem zoneResult (h : Canon t) (k : Int) : Canon (t.zoneResult k) := (h.onPower _).when _ _ (·.takeZone)

theorem closeLearn (h : Canon t) (a b : Int) : Canon (t.closeLearn a b) := by
  unfold State.closeLearn
  dsimp only
  split
  · exact (((h.fill _).gaugeRecord _ _ _ _).onGauge _).raise _
  · exact (((h.fill _).gaugeRecord _ _ _ _).onGauge _).raise _

theorem learnFix (h : Canon t) : Canon t.learnFix := (h.when _ _ (·.closeLearn _ _)).onGauge _

/-! ## Firmware and the mailboxes -/

theorem applyCharter (h : Canon t) : Canon t.applyCharter :=
  foldl _ (fun _ _ hu => hu.onBerth _ _) _ ((h.onDom _).onBin _ fun _ => by exact rfl)

theorem writeSpare (h : Canon t) (c : Charter) : Canon (t.writeSpare c) := h.onFlash _

theorem replaceCharter (h : Canon t) (n : Fin 4) (e : Entry) : Canon (t.replaceCharter n e) :=
  ((h.writeSpare _).onFw _).onBerth n _

theorem newEpoch (h : Canon t) (n : Fin 4) : Canon (t.newEpoch n) := ite (h.onBerth n _) ((h.onFlash _).onBerth n _)

theorem macAdvance (h : Canon t) (n : Fin 4) : Canon (t.macAdvance n) := ite (h.newEpoch n) (h.onBerth n _)

theorem eraseLog (h : Canon t) (n : Fin 4) : Canon (t.eraseLog n) :=
  ((h.when _ _ (·.onPath _ _)).when _ _ (·.onPath _ _)).onLog _

theorem sealBerth (h : Canon t) (e : LogEntry) : Canon (t.sealBerth e) := (h.replaceCharter _ _).raise 88

theorem unsealBerth (h : Canon t) (n : Fin 4) : Canon (t.unsealBerth n) := h.replaceCharter _ _

theorem flushLog (h : Canon t) : Canon t.flushLog := (h.onFlash _).onFw _

theorem completeUnseal (h : Canon t) : Canon t.completeUnseal := by
  unfold State.completeUnseal
  split
  · exact h
  · exact ite h (((h.onFlash _).when _ _ (·.unsealBerth _)).logWrite _ _ _ _).flushLog

theorem completeSeals (h : Canon t) : Canon t.completeSeals := by
  refine foldl _ (fun u n hu => ?_) _ h
  split
  · exact ite (hu.sealBerth _) hu
  · exact hu

theorem restoreTotals (h : Canon t) : Canon t.restoreTotals := (h.onPath _ _).onPath _ _

theorem applyTrim (h : Canon t) (p : List Byte) : Canon (t.applyTrim p) :=
  ite (h.trRun false) (((h.onTrim _).when _ _ fun k => k.onBin _ fun _ => by exact rfl).trRun true)

theorem loadTrim (h : Canon t) : Canon t.loadTrim := by
  unfold State.loadTrim
  split
  · exact (h.onFw _).applyTrim _
  · exact h.onFw _

theorem rolledBack (h : Canon t) (a b : Bank) : Canon (t.rolledBack a b) := h.logWrite _ _ _ _

theorem chooseBank (h : Canon t) : Canon t.chooseBank :=
  ite ((h.onFlash _).rolledBack _ _) (ite (ite ((h.onFlash _).rolledBack _ _) (h.onFlash _)) h)

theorem chooseCharter (h : Canon t) : Canon t.chooseCharter := h.onFw _

theorem loadStore (h : Canon t) : Canon t.loadStore := h.onLog _

theorem coldLoad (h : Canon t) : Canon t.coldLoad := by
  unfold State.coldLoad
  extract_lets a b c d e raw f g
  have kb : Canon b := h.chooseCharter.applyCharter.chooseBank
  have kc : Canon c := foldl _ (fun _ n hu => hu.newEpoch n) (List.finRange 4) kb
  have ke : Canon e := (kc.completeUnseal.completeSeals.onLog _).loadStore.restoreTotals
  exact (((ke.onLog _).onDom _).onEv _).onFw _

theorem answerWaiter (h : Canon t) (c : Half) (r : List Byte) : Canon (t.answerWaiter c r) := by
  unfold State.answerWaiter
  split
  · exact h.answer _ _ _
  · exact h

theorem answerTotals (h : Canon t) : Canon t.answerTotals := by
  refine ite h ?_
  dsimp only
  split
  · exact ((h.answerWaiter 0x060F []).answer _ _ _).onFw _
  · exact h.answerWaiter 0x060F []

theorem afterEntry (h : Canon t) (e : LogEntry) : Canon (t.afterEntry e) := by
  have k := h.raiseIf e.isTotals 78
  exact ite ((k.sealBerth _).answerWaiter _ _) (ite ((k.eraseLog _).storeWrite _ _ _ _) (ite ((k.raise 88).answerWaiter _ _) k))

theorem hold (h : Canon t) (n : Fin 4) (rq : Request) : Canon (t.hold n rq) := h.onBerth n _

theorem macLockout (h : Canon t) (n : Fin 4) : Canon (t.macLockout n) :=
  ite (((h.onBerth n _).logWrite _ _ _ _).raise 91) h

theorem macFail (h : Canon t) (n : Fin 4) (c : Bool) : Canon (t.macFail n c) :=
  (h.answer _ _ _).when _ _ fun k => (k.onBerth n _).macLockout n

theorem takeChecked (h : Canon t) (n : Fin 4) (rq : Request) (mac : List Byte) : Canon (t.takeChecked n rq mac) := by
  unfold State.takeChecked
  extract_lets k key hasMac no late
  have latest (rq : Request) (u : State) (hu : Canon u) : Canon (late rq u) :=
    ite ((hu.hold _ _).answer _ _ _) (ite ((hu.hold _ _).onBerth _ _) (((hu.hold _ _).onBerth _ _).answer _ _ _))
  have failed (counted : Bool) : Canon ((t.hold n no).macFail n counted) := (h.hold n no).macFail n counted
  exact ite (failed _) (ite (failed _) (ite ((h.hold n no).answer _ _ _)
    (ite (ite (failed _) (latest _ _ ((h.macAdvance n).onBerth n _))) (latest _ _ h))))

theorem checkRequest (h : Canon t) (n : Fin 4) (bytes : List Byte) : Canon (t.checkRequest n bytes) := by
  refine ite ((h.hold n _).answer _ _ _) ?_
  dsimp only
  split
  · exact h.postFrame _ _
  · exact ite ((h.hold n _).macFail n _) (h.takeChecked n _ _)

theorem ok (h : Canon t) (b : Fin 4) (r : List Byte) : Canon (t.ok b r) := h.answer b .ok r

theorem waits (h : Canon t) (b : Fin 4) : Canon (t.waits b) := h.onBerth b _

theorem onCtl (h : Canon t) (f : HifSave → HifSave) : Canon (t.onCtl f) := (h.onFw _).onEv _

theorem writesFlash (h : Canon t) (b : Fin 4) : Canon (t.writesFlash b) := foldl _ (fun _ _ hu => ite hu (hu.onBerth _ _)) _ h

theorem commitCharter (h : Canon t) (b : Fin 4) (es : Vector Entry 4) : Canon (t.commitCharter b es) :=
  ((writesFlash (foldl _ (fun _ _ hu => hu.onBerth _ _) _ (((h.writeSpare _).logWrite _ _ _ _).onFw _)) b).raise 89).ok b _

theorem abortCal (h : Canon t) (n : Fin 4) : Canon (t.abortCal n) := by
  unfold State.abortCal
  split
  · refine ite ?_ h
    split
    · exact (h.calEnds _ _).onLog _
    · exact h.leewayEnds _ _
  · exact h

theorem holdDomains (h : Canon t) (v : BitVec 3) : Canon (t.holdDomains v) :=
  ((h.when _ _ (·.need _)).when _ _ (·.need _)).when _ _ (·.need _)

theorem gaugeConfig (h : Canon t) (p : List Byte) : Canon (t.gaugeConfig p) := (h.when _ _ (·.learnDisq 13)).onGauge _

theorem gaugeRestore (h : Canon t) (p : List Byte) : Canon (t.gaugeRestore p) := ((h.learnDisq 5).onGauge _).socLevels

theorem acceptPath (h : Canon t) (b : Fin 4) (x : Path) (p : PathSt) (f : PathItems → PathItems) :
    Canon (t.acceptPath b x p f) := ((((h.need .memM).onPath x _).memUsed).storeWrite _ _ _ _).waits b

theorem probeStart (h : Canon t) (b : Fin 4) (w : Bool) (n a c : Nat) (d : List Byte) : Canon (t.probeStart b w n a c d) :=
  ((h.need .hif).onTw _).waits b

end Canon

end Sys2Proof.Machine
end

section
/-! PROOFS. The canonical form of the memories, continued: the commands that choose between operations, in the order of the
model's files. -/

namespace Sys2Proof.Machine

namespace Canon

variable {s t : State}

theorem guard (h : Canon s) {c : Prop} [Decidable c] (k : Canon t) : Yields Canon (if c then .next t else .next s) :=
  .ite (.next k) (.next h)

/-! ## The Binnacle, the domains and the resets -/

theorem trimMeasDone (h : Canon s) : Yields Canon (execTrimMeasDone s) := by
  unfold execTrimMeasDone
  split
  · exact h.guard (((h.onTrim _).when _ _ (·.binSet _ _)).raise 25)
  · exact .next h

theorem ppsEdge (h : Canon s) : Yields Canon (execPpsEdge s) := by
  unfold execPpsEdge
  split
  · split
    · exact .ite (.next (h.trimAbort 4).trimResume) (.next (h.onTrim _))
    · exact .next (h.onTrim _)
  · exact .next h

theorem evtCount (h : Canon s) (i : Fin 4) (up : Bool) : Canon (s.evtCount i up) := by
  unfold State.evtCount
  dsimp only
  split
  · exact (((h.onBin _ fun _ => by exact rfl).raise _).raise 24).wake _ _
  · exact (((h.onBin _ fun _ => by exact rfl).raise _).wake _ _).sysonAuto 4

theorem cmpTrip (h : Canon s) (c : Fin 4) (mv n : Nat) : Yields Canon (execCmpTrip c mv n s) :=
  .ite (.next h) (.next ((h.onBin _ fun _ => by exact rfl).when _ _ fun k => (((k.binSet _ _).raise _).wake _ _).sysonAuto 5))

theorem waitInstruction (h : Canon s) (ts : List (Domain × Low)) : Yields Canon (execWaitInstruction ts s) := by
  have wait : Canon (s.when (ts.any fun t => t.1 == .cpu) State.beforeWait) := h.when _ _ (·.onDom _)
  exact .ite (.ite (.next (wait.onDom _)) (.next (foldl _ (fun _ x hu => hu.requestEntry _ _) ts wait))) (.next h)

theorem deferredEntry (h : Canon s) (d : Domain) : Yields Canon (execDeferredEntry d s) := by
  unfold execDeferredEntry
  split
  · exact h.guard (h.tryEntry d _)
  · exact .next h

theorem domainEntryDone (h : Canon s) (d : Domain) : Yields Canon (execDomainEntryDone d s) := by
  unfold execDomainEntryDone
  extract_lets v fin
  split
  · exact .ite (.next h) (.next ((h.lose d).onDom _).startWanted)
  · exact .next (h.onDom _).startWanted
  · exact .next h

theorem domainOnDone (h : Canon s) (d : Domain) (v : Nat) : Yields Canon (execDomainOnDone d v s) := by
  unfold execDomainOnDone
  split
  · exact .ite (.next h) (.ite (.next (h.onDom _)) (.next ((h.onDom _).reached d _ v).startWanted))
  · exact .next h

theorem cpuResetRelease (h : Canon s) : Yields Canon (execCpuResetRelease s) := by
  unfold execCpuResetRelease
  split
  · exact .next (h.onDom _).startWanted
  · exact .next h

theorem padHoldRelease (h : Canon s) (d : Domain) : Yields Canon (execPadHoldRelease d s) := by
  unfold execPadHoldRelease
  split
  · exact h.guard (((h.when _ _ (·.restoreHif)).onDom _).when _ _ (·.onPower _))
  · exact .next h

theorem resetRelease (h : Canon s) : Yields Canon (execResetRelease s) := by
  unfold execResetRelease
  dsimp only
  split
  · exact .next ((h.onDom _).onDom _).startWanted
  · exact .next (h.onDom _).startWanted

/-! ## The line die and the link -/

theorem regSoftStop (h : Canon s) (w : Word) : Yields Canon (execRegSoftStop w s) := by
  unfold execRegSoftStop
  split
  · exact .next (h.downFrame _ _)
  · exact .next h

theorem frameDiscard (h : Canon s) (d : LinkDir) (bits : List Bool) (n : Nat) : Yields Canon (execFrameDiscard d bits n s) := by
  refine h.guard (when ?_ _ _ (·.countDiscard n))
  cases d
  case up => exact h.onLine _
  case down => exact h.onLink _

theorem linkUplinkTimeout (h : Canon s) : Yields Canon (execLinkUplinkTimeout s) := by
  unfold execLinkUplinkTimeout
  split
  · split
    · exact .next (ite (h.linkGoes .down) h.linkFault)
    · exact .next (h.linkGoes .down)
    · exact .next h
  · exact .next h

theorem coreQuietClose (h : Canon s) (n : Nat) : Yields Canon (execCoreQuietClose n s) := by
  unfold execCoreQuietClose
  split
  · exact .next (ite h.closeWindow h)
  · exact .next h

theorem qwDroopOverride (h : Canon s) (n v : Nat) : Yields Canon (execQwDroopOverride n v s) := by
  unfold execQwDroopOverride
  split
  · exact h.guard ((h.onLink _).raise 2)
  · exact .next h

/-! ## The sources and the charger -/

theorem sourceInvalid (h : Canon s) (x : Source) (mv : Nat) : Yields Canon (execSourceInvalid x mv s) :=
  .ite (.next (((h.onPower _).when _ _ fun k => (k.onPower _).raise 12).when _ _ (·.sourceChange _ none)))
    (.next (h.onPower _))

theorem sourceSwitchClose (h : Canon s) : Yields Canon (execSourceSwitchClose s) := by
  unfold execSourceSwitchClose
  split
  · exact .ite (.next h) (.next (h.sourceChange _ _))
  · exact .next h

theorem chgSafetyTimerExpire (h : Canon s) (x : ChgTimer) : Yields Canon (execChgSafetyTimerExpire x s) := by
  cases x
  case pre => exact h.guard ((h.onPower _).chgEnter _)
  case fast => exact h.guard ((h.onPower _).chgEnter _)

/-! ## SPI and the two wires -/

theorem withXfer (h : Canon s) {f : Xfer → State → State} (hf : ∀ x, Canon (f x s)) : Canon (s.withXfer f) := by
  unfold State.withXfer
  split
  · exact hf _
  · exact h

theorem spiCsFall (h : Canon s) (second sck : Bool) : Yields Canon (execSpiCsFall second sck s) := by
  have low : Canon (s.onSpi (Spi.setCs second true)) := h.onSpi _
  exact .ite (.next h) (.ite (.next (low.onSpi _)) (.ite (.next low) (.ite (.next (low.csClash 0)) (.next (low.putXfer _)))))

theorem transaction (h : Canon s) (r : Bool) {f : State → State} (hf : Canon (f s)) : Canon (s.transaction r f) := by
  unfold State.transaction
  split
  · exact ite hf h
  · exact h.onTw _
  · exact h

theorem twWriteEnd (h : Canon s) (code : Byte) (bs : List Byte) (n : Nat) (p : Bool) {f : State → State} (hf : Canon (f s)) :
    Canon (s.twWriteEnd code bs n p f) := by
  unfold State.twWriteEnd
  split
  · exact ite (h.twProto 6) (ite h.twPecMiss (hf.onTw _))
  · exact ite h.twPecErr (ite (hf.onTw _) (h.twProto 5))

theorem twServe (h : Canon s) (a n : Nat) (c : Bool) : Canon (s.twServe a n c).2 := by
  unfold State.twServe
  split
  · exact h.xferReads _ _ _
  · exact (h.xferReads _ _ _).xferRead _ _ _

theorem twBlock (h : Canon s) (head count : List Byte) (a len n : Nat) (c : Bool) : Canon (s.twBlock head count a len n c) :=
  (h.twServe a _ _).onTw _

theorem twRead (h : Canon s) (code : Byte) (extra : List Byte) (n : Nat) {f : State → State} (hf : Canon (f s)) :
    Canon (s.twRead code extra n f) :=
  h.transaction _ (ite (h.twWriteEnd _ _ _ _ h) (ite hf (h.twProto 5)))

theorem twRingWrite (h : Canon s) (bs : List Byte) : Canon (s.twRingWrite bs) := by
  unfold State.twRingWrite
  split
  · exact h.twProto 6
  · exact ite (h.twProto 3) (h.twWriteEnd _ _ _ _ (h.ring .tw _))

theorem twMailWrite (h : Canon s) (bs : List Byte) : Canon (s.twMailWrite bs) := by
  unfold State.twMailWrite
  split
  · exact h.twProto 6
  · refine ite (h.twProto 2) ?_
    split
    · exact h.twProto 6
    · refine ite (h.twProto 3) ?_
      split
      · exact h.twProto 6
      · exact ite (h.twProto 4) (h.twWriteEnd _ _ _ _ (h.xferWrites _ _ _))

theorem twCall (h : Canon s) (bs : List Byte) (n : Nat) (c : Bool) : Canon (s.twCall bs n c) := by
  unfold State.twCall
  split
  · exact h.twProto 6
  · refine ite (h.twProto 2) ?_
    split
    · exact h.twProto 6
    · refine ite (h.twProto 3) ?_
      split
      · exact ite (h.twProto 2) (ite (h.twProto 4) (ite (h.twWriteEnd _ _ _ _ h) (ite (h.twProto 5) (h.twBlock _ _ _ _ _ _))))
      · exact h.twProto 6

theorem twPtrWrite (h : Canon s) (bs : List Byte) : Canon (s.twPtrWrite bs) :=
  ite (h.twProto 7) (h.twWriteEnd _ _ _ _ (h.onTw _))

theorem twPtrData (h : Canon s) (bs : List Byte) : Canon (s.twPtrData bs) := by
  unfold State.twPtrData
  split
  · exact h.twProto 6
  · exact ite (h.twProto 2) (h.twWriteEnd _ _ _ _ ((h.xferWrites _ _ _).onTw _))

theorem twWrite (h : Canon s) (code : Byte) (bs : List Byte) : Canon (s.twWrite code bs) :=
  ite (h.twRingWrite bs) (ite (h.twMailWrite bs) (ite (h.twCall bs _ _) (ite (h.twPtrWrite bs)
    (ite (h.twPtrData bs) (ite (h.twWriteEnd _ _ _ _ h) (h.twProto 1))))))

theorem twAddressMatch (h : Canon s) (addr : BitVec 7) (read : Bool) : Yields Canon (execTwAddressMatch addr read s) :=
  .ite (.next h) (.ite (.next (h.onTw _)) (.ite (.next (((h.onTw _).wake 16 _).onTw _)) (.ite (.next (((h.onTw _).wake 16 _).onTw _))
    (.next (((((h.onTw _).wake 16 _).onTw _).onTw _).raise 43)))))

theorem twArbLost (h : Canon s) (a : Option Byte) : Yields Canon (execTwArbLost a s) := by
  unfold execTwArbLost
  split
  · dsimp only
    split
    · exact .next (((h.onTw _).onTw _).wake 16 _)
    · exact .next (ite ((h.onTw _).sbsFail 3) ((h.onTw _).onTw _))
  · exact .next h

theorem twBusRecovery (h : Canon s) (r : Option (Fin 9)) : Yields Canon (execTwBusRecovery r s) := by
  cases r
  case none => exact h.guard (h.sbsFail 6)
  case some => exact h.guard ((h.onTw _).raise 46)

theorem sbsReadComplete (h : Canon s) (how : BusEnd) (ws : List Half) : Yields Canon (execSbsReadComplete how ws s) := by
  have ended : Canon (s.onTw fun t => { t with sbsActive := false, sbsTries := 0, busy := false }) := h.onTw _
  refine .ite ?_ (.next h)
  extract_lets pec u record good
  have good_canon : Canon (good u) := (ended.gaugeRecord _ _ _ _).raise 45
  cases how
  case ok => exact .next good_canon
  case addrNack => exact .next (ended.sbsFail 1)
  case dataNack => exact .next (ended.sbsFail 2)
  case pec => exact .next (ite (ended.sbsFail 7) good_canon)

theorem probeTransferDone (h : Canon s) (how : BusEnd) (bs : List Byte) : Yields Canon (execProbeTransferDone how bs s) := by
  refine .ite ?_ (.next h)
  split
  · exact .next (h.probeFail 1)
  · exact .next (h.probeFail 2)
  · split
    · exact .ite (.next h) (.ite (.next (h.onTw _)) (.next (h.probeOk _)))
    · exact .next h

/-! ## The Log engine and the gauge -/

theorem soundingDue (h : Canon s) (p : Path) : Yields Canon (execSoundingDue p s) := by
  unfold execSoundingDue
  extract_lets t step drop running u v
  have kv : Canon v := (h.onPath p _).when _ _ (·.onPath p _)
  exact .ite (.ite (.next kv) (.ite (.next kv.startNext) (.next (kv.bringOn .log)))) (.next h)

theorem shotQuietRequest (h : Canon s) (n : Nat) (w : Word) : Yields Canon (execShotQuietRequest n w s) := by
  unfold execShotQuietRequest
  split
  · exact .next h
  · extract_lets tag len u
    have ku : Canon u := (h.onShot _).onLog _
    exact .ite (.ite (.next (ku.grantLocally _ _ _)) (.ite (.next (ku.onLink _).chargerFollows) (.next ku))) (.next h)

theorem shotFire (h : Canon s) (n : Nat) (w : Word) (v : Nat) (l : Option Nat) : Yields Canon (execShotFire n w v l s) := by
  unfold execShotFire
  split
  · exact .next h
  · extract_lets stamp raw u base launch v
    have ku : Canon u := h.onLog _
    have kv : Canon v := (ku.onShot _).onLog _
    exact .ite (.ite (.next (ku.endShot _ _)) (.next (kv.charge _ _))) (.next h)

theorem driveOvercurrent (h : Canon s) (n ma : Nat) : Yields Canon (execDriveOvercurrent n ma s) := by
  unfold execDriveOvercurrent
  split
  · split
    · exact h.guard ((h.onLog _).endShot _ _)
    · exact .next h
  · exact .next h

theorem captureOpen (h : Canon s) (n : Nat) : Yields Canon (execCaptureOpen n s) := by
  unfold execCaptureOpen
  split
  · exact .next h
  · split
    · exact .next h
    · extract_lets u base stop
      have ku : Canon u := h.onLog _
      have stopped (c : Nat) : Yields Canon (stop c) := .next (ku.endShot _ _)
      refine .ite (.ite (stopped 3) ?_) (.next h)
      split
      · exact .ite (.next (ku.onShot _)) (stopped 4)
      · exact stopped 4

theorem captureClose (h : Canon s) (ws : List (BitVec 14)) : Yields Canon (execCaptureClose ws s) := by
  unfold execCaptureClose
  split
  · exact .next h
  · split
    · exact .next h
    · exact h.guard ((h.charge _ _).endShot _ _)

theorem arrivalLearnDone (h : Canon s) : Yields Canon (execArrivalLearnDone s) := by
  unfold execArrivalLearnDone
  split
  · refine .ite ?_ (.next h)
    extract_lets found ds valid bad u
    have ku : Canon u := h.calEnds _ _
    split
    · exact .next ku.startNext
    · exact .next ((ku.onPath _ _).storeWrite _ _ _ _).startNext
  · exact .next h

theorem leewayCalDone (h : Canon s) : Yields Canon (execLeewayCalDone s) := by
  unfold execLeewayCalDone
  split
  · exact h.guard (h.leewayEnds _ _)
  · exact .next h

theorem rtdConversionStart (h : Canon s) : Yields Canon (execRtdConversionStart s) := by
  unfold execRtdConversionStart
  split
  · exact .next h
  · split
    · exact .next h
    · exact h.guard (((h.onPath _ _).onPath _ _).onLog _)

theorem rtdConversionDone (h : Canon s) (n : Nat) : Yields Canon (execRtdConversionDone n s) := by
  unfold execRtdConversionDone
  split
  · split
    · exact h.guard (h.rtdEnds _ _ _ _)
    · exact .next h
  · exact .next h

theorem rtdDischargeTimeout (h : Canon s) : Yields Canon (execRtdDischargeTimeout s) := by
  unfold execRtdDischargeTimeout
  split
  · split
    · exact h.guard (h.rtdEnds _ _ _ _)
    · exact .next h
  · exact .next h

theorem gaugeConversionEnd (h : Canon s) (i : Int) : Yields Canon (execGaugeConversionEnd i s) := by
  unfold execGaugeConversionEnd
  extract_lets hit a quiet opens b c d e f
  have kc : Canon c := ((h.onGauge _).onGauge _).when _ _ (·.learnDisq 1)
  have ke : Canon e := (kc.when _ _ (·.learnDisq 10)).when _ _ (·.learnDisq 11)
  exact h.guard ((ke.onGauge _).socLevels.eocCheck.onGauge _)

theorem restWindowComplete (h : Canon s) : Yields Canon (execRestWindowComplete s) := by
  unfold execRestWindowComplete
  split
  · exact h.guard (h.onGauge _)
  · exact .next h

theorem gaugeTelemetry (h : Canon s) (v : BitVec 14) (n : Nat) : Yields Canon (execGaugeTelemetry v n s) := by
  unfold execGaugeTelemetry
  extract_lets a b c d g
  have kc : Canon c := ((h.takeReading 1 _ n).zoneResult _).onGauge _
  exact h.guard ((kc.cellLevels.onGauge _).gaugeRecord _ _ _ _)

theorem fixAttempt (h : Canon s) (ws : List (BitVec 14)) (n : Nat) : Yields Canon (execFixAttempt ws n s) := by
  unfold execFixAttempt
  split
  · dsimp only
    refine .next (gaugeRecord (fill ?_ _) _ _ _ _)
    have read : Canon (s.takeReading 16 (ws.map BitVec.toNat).sum n) := h.takeReading _ _ _
    split
    · exact read.onGauge _
    · exact (((read.onGauge _).onGauge _).onGauge _).learnFix.raise 82
  · exact .next h

/-! ## Firmware -/

theorem firmwareStart (h : Canon s) : Yields Canon (execFirmwareStart s) := by
  unfold execFirmwareStart
  split
  · extract_lets cold a b beacon c d e f
    have ka : Canon a := ite h.coldLoad h.applyCharter.loadStore
    have kc : Canon c := (ka.loadTrim.onFw _).onDom _
    have kf : Canon f := ((kc.when _ _ (·.bringOn .pwr)).when _ _ (·.bringOn .memM)).when _ _ (·.restoreHif)
    exact .next (kf.memUsed.sysReset.flushRecords.when _ _ (·.trimResume))
  · exact .next h

theorem logbookEntryDurable (h : Canon s) : Yields Canon (execLogbookEntryDurable s) := by
  unfold execLogbookEntryDurable
  split
  · exact .next h
  · exact .next (((h.onFw _).onFlash _).afterEntry _).answerTotals

theorem configStoreDurable (h : Canon s) : Yields Canon (execConfigStoreDurable s) := by
  unfold execConfigStoreDurable
  split
  · exact .next h
  · extract_lets u v
    have kv : Canon v := ((h.onFw _).onFlash _).when _ _ (·.answer _ _ _)
    split
    case h_1 n _ => exact .next ((kv.unsealBerth n).logWrite _ _ _ _)
    case h_2 => exact .next kv

end Canon

end Sys2Proof.Machine
end

section
/-! PROOFS. O4: the mailbox commands, every command, and a step. -/

namespace Sys2Proof.Machine

namespace Canon

variable {s : State}

/-! ## The frame of a mailbox command -/

theorem serve (h : Canon s) {b : Fin 4} {cmd : Half} {f : Request → State → State} (hf : ∀ rq, Canon (f rq s)) :
    Yields Canon (s.serve b cmd f) := Yields.serve_of h hf

/-- A refusal of checks 8 and 9 is an answer (R273). -/
theorem checked (h : Canon s) {b : Fin 4} {d i l : Bool} {bad : Option Nat} {f : State → State} (hf : Canon (f s)) :
    Canon (s.checked b d i l bad f) := State.checked_of (h.answer b) hf

/-- So is a refusal of check 10. -/
theorem conditions (h : Canon s) {b : Fin 4} {cs : List (Bool × Status)} {f : State → State} (hf : Canon (f s)) :
    Canon (s.unless b cs f) := State.unless_of (h.answer b) hf

theorem pathCmd (h : Canon s) {b : Fin 4} {cmd : Half} {need : Bool} {sealed_ : Request → State → Bool} {len : Nat}
    {bad : List Byte → Option Nat} {f : Path → Request → State → State} (hf : ∀ x rq, Canon (f x rq s)) :
    Yields Canon (s.pathCmd b cmd need sealed_ len bad f) := by
  refine h.serve fun rq => h.checked ?_
  split
  · exact hf _ rq
  · exact h

theorem pathRead (h : Canon s) (b : Fin 4) (cmd : Half) (f : Path → State → List Byte) : Yields Canon (s.pathRead b cmd f) :=
  h.pathCmd fun _ _ => h.ok b _

theorem openRead (h : Canon s) (b : Fin 4) (rq : Request) (r : State → List Byte) : Canon (s.openRead b rq r) :=
  h.checked (h.ok b _)

/-! ## The mailbox commands -/

theorem charterRead (h : Canon s) (b : Fin 4) : Yields Canon (execCharterRead b s) := by
  refine h.serve fun rq => h.checked ?_
  split
  · exact h.answer b _ _
  · exact h.ok b _

theorem charterStage (h : Canon s) (b : Fin 4) : Yields Canon (execCharterStage b s) := by
  refine h.serve fun rq => h.checked ?_
  extract_lets st old put
  have staged (key : List Byte) (inc : BitVec 4) (parts : List (Fin 4 × List Byte)) : Canon (put key inc parts) :=
    (h.onFw _).ok b _
  split
  · exact staged _ _ _
  · exact staged _ _ _
  · split
    · exact h.answer b _ _
    · exact ite (h.answer b _ _) (staged _ _ _)

theorem charterCommit (h : Canon s) (b : Fin 4) : Yields Canon (execCharterCommit b s) := by
  refine h.serve fun rq => h.checked ?_
  split
  · exact h.answer b _ _
  · exact ite (h.answer b _ _) (ite (h.answer b _ _) (h.conditions (h.commitCharter b _)))

theorem timeSet (h : Canon s) (b : Fin 4) : Yields Canon (execTimeSet b s) := by
  have staged (p : List Byte) (v : Byte) : Canon ((s.onCal (Cal.staging p)).calCmd v) := (h.onCal _).calCmd v
  exact h.serve fun rq => h.checked (h.conditions (ite ((staged _ _).waits b) ((staged _ _).answer b _ _)))

theorem gaugeRestoreCommand (h : Canon s) (b : Fin 4) : Yields Canon (execGaugeRestore b s) := by
  refine h.serve fun _ => h.checked (h.conditions ?_)
  split
  · exact h.answer b _ _
  · exact (h.gaugeRestore _).ok b _

theorem flowWrite (h : Canon s) (b : Fin 4) : Yields Canon (execFlowWrite b s) := by
  refine h.serve fun _ => h.checked ?_
  split
  · exact h
  · exact h.conditions (h.acceptPath _ _ _ _)

theorem calResult (h : Canon s) (b : Fin 4) : Yields Canon (execCalResult b s) := by
  refine h.pathCmd fun _ _ => ite (h.answer b _ _) ?_
  split
  · exact h.answer b _ _
  · exact h.answer b _ _

theorem w2w (h : Canon s) (b : Fin 4) : Yields Canon (execW2w b s) := by
  refine h.pathCmd fun _ _ => ?_
  have awake : Canon (s.need .memM) := h.need .memM
  dsimp only
  split
  · refine ite (awake.answer b _ _) ((awake.when _ _ fun k => ?_).ok b _)
    exact k.record _ _ _ _ _ _
  · exact awake.answer b _ _

theorem fluidProps (h : Canon s) (b : Fin 4) : Yields Canon (execFluidProps b s) := by
  refine h.pathCmd fun _ _ => ?_
  dsimp only
  split
  · exact h.answer b _ _
  · exact h.ok b _

theorem fwData (h : Canon s) (b : Fin 4) : Yields Canon (execFwData b s) := by
  refine h.serve fun _ => h.checked ?_
  split
  · exact h.answer b _ _
  · exact ite (h.answer b _ _) (h.conditions ((((h.onFw _).writesFlash b).raise 90).ok b _))

theorem fwVerify (h : Canon s) (b : Fin 4) : Yields Canon (execFwVerify b s) := by
  refine h.serve fun _ => h.checked ?_
  split
  · exact h.answer b _ _
  · exact ite (h.answer b _ _) ((((h.onFlash _).onFw _).raise 90).ok b _)

theorem reset (h : Canon s) (b : Fin 4) : Yields Canon (execReset b s) :=
  h.serve fun _ => h.checked (((h.saveTotals _).waits b).onFw _).answerTotals

theorem routeSet (h : Canon s) (b : Fin 4) : Yields Canon (execRouteSet b s) :=
  h.serve fun _ => h.checked (((h.need .hif).onCtl _).ok b _)

theorem logRead (h : Canon s) (b : Fin 4) : Yields Canon (execLogRead b s) :=
  h.serve fun _ => h.checked (h.ok b _)

theorem charterDiscard (h : Canon s) (b : Fin 4) : Yields Canon (execCharterDiscard b s) :=
  h.serve fun _ => h.checked ((h.onFw _).ok b _)

theorem sealCommand (h : Canon s) (b : Fin 4) : Yields Canon (execSeal b s) :=
  h.serve fun _ => h.checked (ite (h.macFail b _) (h.conditions ((h.logWrite _ _ _ _).waits b)))

theorem unsealCommand (h : Canon s) (b : Fin 4) : Yields Canon (execUnseal b s) :=
  h.serve fun _ => h.checked (h.conditions ((((h.onFlash _).logWrite _ _ _ _).abortCal _).waits b))

theorem pdPolicy (h : Canon s) (b : Fin 4) : Yields Canon (execPdPolicy b s) :=
  h.serve fun _ => h.checked ((((h.onDom _).onBerth b _).holdDomains _).ok b _)

theorem wakePolicy (h : Canon s) (b : Fin 4) : Yields Canon (execWakePolicy b s) :=
  h.serve fun _ => h.checked ((((((h.need .hif).onDom _).onEv _).onEv _).onFw _).ok b _)

theorem convCtl (h : Canon s) (b : Fin 4) (a : Nat) (f : Link → Link) : Yields Canon (s.convCtl b a f) :=
  h.serve fun _ => ite h (h.checked (h.conditions ((h.onLink _).ok b _)))

theorem policyGet (h : Canon s) (b : Fin 4) : Yields Canon (execPolicyGet b s) :=
  h.serve fun _ => h.checked (h.ok b _)

theorem timeShift (h : Canon s) (b : Fin 4) : Yields Canon (execTimeShift b s) :=
  h.serve fun _ => h.checked (h.conditions ((h.shiftCmd _).waits b))

theorem trimPolicy (h : Canon s) (b : Fin 4) : Yields Canon (execTrimPolicy b s) :=
  h.serve fun _ => h.checked (h.conditions ((((h.onFw _).applyTrim _).storeWrite _ _ _ _).waits b))

theorem trimGet (h : Canon s) (b : Fin 4) : Yields Canon (execTrimGet b s) :=
  h.serve fun _ => h.checked (h.ok b _)

theorem gaugeCfgWrite (h : Canon s) (b : Fin 4) : Yields Canon (execGaugeCfgWrite b s) :=
  h.serve fun _ => h.checked (h.conditions ((h.gaugeConfig _).ok b _))

theorem gaugeCfgRead (h : Canon s) (b : Fin 4) : Yields Canon (execGaugeCfgRead b s) :=
  h.serve fun _ => h.checked (h.conditions (h.ok b _))

theorem gaugeProfile (h : Canon s) (b : Fin 4) : Yields Canon (execGaugeProfile b s) :=
  h.serve fun _ => h.checked (h.conditions ((h.onGauge _).ok b _))

theorem gaugeSave (h : Canon s) (b : Fin 4) : Yields Canon (execGaugeSave b s) :=
  h.serve fun _ => h.checked (h.conditions ((h.onGauge _).ok b _))

theorem acqWrite (h : Canon s) (b : Fin 4) : Yields Canon (execAcqWrite b s) :=
  h.pathCmd fun _ _ => h.conditions (h.acceptPath b _ _ _)

theorem rtdWrite (h : Canon s) (b : Fin 4) : Yields Canon (execRtdWrite b s) :=
  h.serve fun _ => h.checked (h.conditions (((h.onLog _).storeWrite _ _ _ _).waits b))

theorem rtdRead (h : Canon s) (b : Fin 4) : Yields Canon (execRtdRead b s) :=
  h.serve fun _ => h.checked (h.ok b _)

theorem cardWrite (h : Canon s) (b : Fin 4) : Yields Canon (execCardWrite b s) :=
  h.pathCmd fun _ _ => h.conditions (h.acceptPath b _ _ _)

theorem fluidWrite (h : Canon s) (b : Fin 4) : Yields Canon (execFluidWrite b s) :=
  h.pathCmd fun _ _ => h.conditions (h.acceptPath b _ _ _)

theorem pathPorts (h : Canon s) (b : Fin 4) : Yields Canon (execPathPorts b s) :=
  h.pathCmd fun _ _ => ite (h.answer b _ _) (h.conditions (h.acceptPath b _ _ _))

theorem arrivalLearn (h : Canon s) (b : Fin 4) : Yields Canon (execArrivalLearn b s) :=
  h.pathCmd fun _ _ => h.conditions (((h.onLog _).need .log).startNext.ok b _)

theorem leewayCal (h : Canon s) (b : Fin 4) : Yields Canon (execLeewayCal b s) :=
  h.pathCmd fun _ _ => h.conditions ((((h.onLog _).onPath _ _).need .log).ok b _)

theorem totalsRead (h : Canon s) (b : Fin 4) : Yields Canon (execTotalsRead b s) :=
  h.pathCmd fun _ _ => (h.need .memM).ok b _

theorem totalsReset (h : Canon s) (b : Fin 4) : Yields Canon (execTotalsReset b s) :=
  h.pathCmd fun _ _ => h.conditions ((((h.need .memM).onPath _ _).totalsEntry _ _).waits b)

theorem fwBegin (h : Canon s) (b : Fin 4) : Yields Canon (execFwBegin b s) :=
  h.serve fun _ => h.checked (h.conditions (((((h.onFlash _).onFw _).writesFlash b).raise 90).ok b _))

theorem fwActivate (h : Canon s) (b : Fin 4) : Yields Canon (execFwActivate b s) :=
  h.serve fun _ => h.checked
      (ite (((((h.onFlash _).saveTotals 0x01).raise 90).ok b _).onFw _) (h.answer b _ _))

theorem fwInfo (h : Canon s) (b : Fin 4) : Yields Canon (execFwInfo b s) :=
  h.serve fun _ => h.checked (h.ok b _)

theorem probeCfg (h : Canon s) (b : Fin 4) : Yields Canon (execProbeCfg b s) :=
  h.serve fun _ => h.checked (((h.need .hif).onTw _).ok b _)

theorem probeRead (h : Canon s) (b : Fin 4) : Yields Canon (execProbeRead b s) :=
  h.serve fun _ => h.checked (h.conditions (h.probeStart b _ _ _ _ _))

theorem probeWrite (h : Canon s) (b : Fin 4) : Yields Canon (execProbeWrite b s) :=
  h.serve fun _ => h.checked (h.conditions (h.probeStart b _ _ _ _ _))

/-- Each command by the operations that its definition is made of. -/
theorem exec (h : Canon s) : ∀ c, Yields Canon (exec c s)
  | .registerWrite .. => .next (h.portWrite _ _ _)
  | .addrStrapLatch .. => h.guard ((h.onTw _).onBin _ fun _ => by exact rfl)
  | .vddioLoss => .next (h.onSpi _)
  | .nrstReset => .ite (.next h) (.next ((((h.onSpi _).onTw _).resetSwitched _).onDom _))
  | .lineDieStart .. => .ite (.next h) (.next (h.onLine _))
  | .brownIn => .next (h.whileRunning _)
  | .softStartEnd => .next (h.whileRunning _)
  | .lineDieStop => .next (h.whileRunning _)
  | .goodbyeSend .. => .next (h.whileRunning _)
  | .regFrameDue .. => h.guard (h.onLink _)
  | .regRun .. => .next (h.downFrame _ _)
  | .regOverride .. => .next (h.downFrame _ _)
  | .regSoftStop .. => h.regSoftStop _
  | .frameDiscard .. => h.frameDiscard _ _ _
  | .downlinkTimeout .. => .next (h.whileRunning _)
  | .stopRestartTimeout => .next (h.whileRunning _)
  | .stopSymbolReceived .. => h.guard ((h.onLink _).whileRunning _)
  | .hvinBrownOut .. => .next (h.whileRunning _)
  | .hvinOvervoltage .. => .next (h.whileRunning _)
  | .hvinOvResume => .next (h.whileRunning _)
  | .switchShortCircuit .. => .next (h.whileRunning _)
  | .overloadStop .. => .next (h.whileRunning _)
  | .faultRestart => .next (h.whileRunning _)
  | .overtempStop .. => .next (h.whileRunning _)
  | .overtempResume => .next (h.whileRunning _)
  | .vldOvLatch .. => .next (h.whileRunning _)
  | .vauxOvervoltage => h.guard (h.onLink _)
  | .vauxRecover => .next (h.onLink _)
  | .zeroCrossing .. => .ite (.next (h.whileRunning _)) (h.guard (h.whileRunning _))
  | .lineLossDeclare .. => .next (h.whileRunning _)
  | .lineLossRepeat => .next (h.whileRunning _)
  | .dcModeEntry .. => .next (h.whileRunning _)
  | .dcLineReturn .. => .next (h.whileRunning _)
  | .lineReturnDeclare => .next (h.whileRunning _)
  | .tlmProduce .. => .next (h.whileRunning _)
  | .tlmReceived f => .next (h.upFrame _ _ fun u hu => by
      rw [State.takeTlm_eq]
      exact (((hu.onLink _).raiseIf _ 4).raiseIf _ 6).when _ _ (·.linkUp))
  | .zcReceived .. => .next (h.upFrame _ _ fun _ hu => (((hu.onLink _).raiseIf _ 6).trimZc _).when _ _ (·.trimResume))
  | .lineLossReceived .. => .next (h.upFrame _ _ fun _ hu =>
      ite hu (((((hu.onLink _).onBin _ fun _ => by exact rfl).onFw _).raise 0).trimAbort 3))
  | .lineReturnReceived .. => .next (h.upFrame _ _ fun _ hu => ((hu.onLink _).onFw _).raise 1)
  | .ldFaultReceived .. => .ite (.next h) (.next (h.upFrame _ _ fun _ hu => (hu.onLink _).raiseIf _ 5))
  | .beaconBurst => h.guard h.uplinkSeen
  | .linkUplinkTimeout => h.linkUplinkTimeout
  | .linkFaultReset => h.guard ((h.resetSwitched 0x7).onDom _)
  | .beaconQualified => h.guard (((h.onDom _).wake 0 _).sysonAuto 3)
  | .beaconDetectorClear => .next (h.onDom _)
  | .cfgWrite .. => .next (h.portWrite _ _ _)
  | .cfgReceived .. => .next (h.downFrame _ _)
  | .quietReceived .. => .next (h.downFrame _ _)
  | .ldQuietOpen .. => .next (h.whileRunning _)
  | .ldQuietGuardEnd .. => .next (h.whileRunning _)
  | .ldQuietEnd .. => .next (h.whileRunning _)
  | .ldQuietVldEnd .. => .next (h.whileRunning _)
  | .qaOpenReceived .. => .next (h.upFrame _ _ fun _ hu => (hu.onLink _).chargerFollows)
  | .qaEndReceived .. => .next (h.upFrame _ _ fun _ hu => hu.onLink _)
  | .qaRefusedReceived .. => .next (h.upFrame _ _ fun _ hu => ((hu.onLink _).onLog _).chargerFollows)
  | .coreQuietClose .. => h.coreQuietClose _
  | .qwDroopOverride .. => h.qwDroopOverride _ _
  | .sourceValid .. => h.guard (h.onPower _)
  | .sourceInvalid .. => h.sourceInvalid _ _
  | .sourceSwitchClose => h.sourceSwitchClose
  | .srTurnOn .. => .next (h.onPower _)
  | .srTurnOff => .next (h.onPower _)
  | .srMaxOnTime => .next (h.onPower _)
  | .chgEnWrite .. => .next (h.portWrite _ _ _)
  | .chgStateTest .. => .ite (.next (((h.onPower _).when _ _ (·.onPower _)).chgEnter _)) (.next h.chargerGate)
  | .chgTermination => h.guard (h.chgEnter _)
  | .chgSafetyTimerExpire .. => h.chgSafetyTimerExpire _
  | .chgOvercurrent => h.guard ((h.onPower _).raise 10)
  | .chgOvertemp => h.guard ((h.onPower _).raise 10)
  | .chgOvertempResume => .next (h.onPower _)
  | .vaonToVbak => .ite (.next h) (.next (((h.onPower _).when _ _ (·.stampFso _)).learnDisq 6))
  | .vaonToVsys => h.guard ((((h.onPower _).when _ _ fun k => (k.onPower _).raise 14).onDom _).startWanted)
  | .binPowerOnReset => .next ⟨rfl, rfl⟩
  | .vbakCheck .. => h.guard ((h.onPower _).raise 13)
  | .secondsTick => .next (h.edgeOf _)
  | .calCmdSetr .. => .next (h.portWrite _ _ _)
  | .calCmdSett .. => .next (h.portWrite _ _ _)
  | .calCmdCancel .. => .next (h.portWrite _ _ _)
  | .setrLoad => .next (h.edgeOf _)
  | .shiftWrite .. => .next (h.portWrite _ _ _)
  | .trimCycleStart => h.guard (h.onTrim _)
  | .trimCorrection => .next (h.edgeOf _)
  | .xtalFail => .ite (.next h) (.next ((((h.onCal _).binSet _ _).raise 18).trimAbort 5))
  | .xtalRecover => .next (h.onCal _).trimResume
  | .trRunStart .. => .next (h.portWrite _ _ _)
  | .trRunAbort .. => .next (h.portWrite _ _ _)
  | .trimMeasOpen => h.guard (h.onTrim _)
  | .trimMeasDone => h.trimMeasDone
  | .wakeTick => h.guard ((((h.onCal _).raise 19).wake 1 _).sysonAuto 2)
  | .evtEdge .. => .ite (.next h) (.ite (.next (h.onBin _ fun _ => by exact rfl)) (.next (h.evtCount _ _)))
  | .ppsEdge => h.ppsEdge
  | .stampedClear .. => .next (h.portWrite _ _ _)
  | .llValidClear .. => .next (h.portWrite _ _ _)
  | .fsoValidClear .. => .next (h.portWrite _ _ _)
  | .sysonOnWrite .. => .next (h.portWrite _ _ _)
  | .pwrkeyShort .. => .next (h.when _ _ (·.pressed 0 false))
  | .pwrkeyLong .. => .next (h.when _ _ fun k => (k.pressed 1 true).sysonAuto 0)
  | .pwrkeyHardoff .. => h.guard (((h.pressed 2 true).onBin _ fun _ => by exact rfl).binSet _ _)
  | .cmpTrip .. => h.cmpTrip _ _ _
  | .awakeHigh .. => .next (h.when _ _ fun k => (k.wake 11 _).sysonAuto 1)
  | .idleTimerExpire .. => .ite (.next h) (.next (h.requestEntry _ _))
  | .waitInstruction .. => h.waitInstruction _
  | .deferredEntry .. => h.deferredEntry _
  | .domainEntryDone .. => h.domainEntryDone _
  | .domainOnDone .. => h.domainOnDone _ _
  | .cpuResetRelease => h.cpuResetRelease
  | .padHoldRelease .. => h.padHoldRelease _
  | .xo16StartFail => .next ((h.onDom _).raise 81)
  | .brownOutReset => .ite (.next (h.onDom _)) (.next ((h.onDom _).resetSwitched _))
  | .watchdogReset => h.guard (h.fwReset _)
  | .lockupReset => h.guard (h.fwReset _)
  | .resetRelease => h.resetRelease
  | .keepWrite .. => .next (h.portWrite _ _ _)
  | .ringWrite .. => .next (h.portWrite _ _ _)
  | .fwtimerExpire => h.guard ((h.onDom _).wake 19 _)
  | .spiCsFall .. => h.spiCsFall _ _
  | .spiLive => .next (h.withXfer fun _ => ite h (h.putXfer _))
  | .spiWriteByte .. => .next (h.withXfer fun _ => ite ((h.xferWrite _ _ _).putXfer _) h)
  | .spiReadByte .. => .next (h.withXfer fun _ => ite ((h.xferRead _ _ _).putXfer _) h)
  | .spiRing .. => .next (h.withXfer fun _ => ite ((h.putXfer _).ring _ _) h)
  | .spiBadOpcode .. => .next (h.withXfer fun _ => ite (((h.putXfer _).onSpi _).raise 42) h)
  | .spiCsRise .. => .next ((ite (h.endXfer _) h).onSpi _)
  | .spiCsClash .. => h.guard ((h.csClash _).onSpi _)
  | .twAddressMatch .. => h.twAddressMatch _ _
  | .twAsyncTakeover => h.guard (h.onTw _)
  | .twWakeFail => h.guard (((h.onTw _).onTw _).raiseWhenHif 37)
  | .twReceiveByte .. => .next (h.transaction _ (h.onTw _))
  | .twReadByte .. => .next (h.twRead _ _ _ (h.onTw _))
  | .twReadWord .. => .next (h.twRead _ _ _ (h.onTw _))
  | .twFixedRead .. => .next (h.twRead _ _ _ (h.twBlock _ _ _ _ _ _))
  | .twRing .. => .next (h.transaction _ (h.twRingWrite _))
  | .twBlockWrite .. => .next (h.transaction _ (h.twWrite _ _))
  | .twProcessCall .. => .next (h.transaction _ (h.twCall _ _ _))
  | .twPointerWrite .. => .next (h.transaction _ (h.twPtrWrite _))
  | .twPtrBlockWrite .. => .next (h.transaction _ (h.twPtrData _))
  | .twPtrBlockRead .. => .next (h.transaction _ ((h.twBlock _ _ _ _ _ _).onTw _))
  | .twClockLowTimeout => .ite (.next h) (.next ((((h.onTw _).onTw _).raise 34).when _ _ (·.sbsFail 5)))
  | .twStuckTimeout => .ite (.next h) (.next (((h.onTw _).onTw _).raise 35))
  | .twBusRecovery .. => h.twBusRecovery _
  | .sbsReadDue => h.guard (h.onTw _)
  | .sbsBusFree => .ite (.ite (.next (ite ((h.onTw _).onTw _) ((h.onTw _).onTw _))) (.next (h.onTw _))) (.next h)
  | .twArbLost .. => h.twArbLost _
  | .twArbSr => h.guard ((((h.onTw _).onTw _).raise 36).sbsFail 4)
  | .sbsReadComplete .. => h.sbsReadComplete _ _
  | .probeTransferDone .. => h.probeTransferDone _ _
  | .probeWritePoll .. => h.guard (h.probeOk [])
  | .probePollTimeout => h.guard (h.probeFail 3)
  | .probeBusConflict => h.guard (h.probeFail 6)
  | .probeTimeout .. => .ite (.next h) (.ite (.next (h.probeFail 4)) (.ite (.next h)
      (.ite (.next ((h.onTw _).raise 46)) (.next ((h.onTw _).probeFail 5)))))
  | .firmwareStart => h.firmwareStart
  | .firmwareTakeRequest .. => h.guard (((h.onDom _).onFw _).checkRequest _ _)
  | .macLockExpire .. => .next (h.onBerth _ _)
  | .ringRdWrite .. => .next (h.portWrite _ _ _)
  | .firmwareRequestReset => h.guard (h.resetSwitched _)
  | .fwProbationEnd => h.guard (((h.onFlash _).onFw _).logWrite _ _ _ _)
  | .logbookEntryDurable => h.logbookEntryDurable
  | .configStoreDurable => h.configStoreDurable
  | .logQuotaWindow => .next (startNext (foldl _ (fun _ _ hu => hu.onBerth _ _) _ h))
  | .eventDeliver => h.guard (h.onEv _)
  | .pendClear .. => .next (h.portWrite _ _ _)
  | .soundingDue .. => h.soundingDue _
  | .soundingDelayedStart .. => h.guard (h.startSounding _)
  | .shotQuietRequest .. => h.shotQuietRequest _ _
  | .shotFire .. => h.shotFire _ _ _ _
  | .driveOvercurrent .. => h.driveOvercurrent _ _
  | .captureOpen .. => h.captureOpen _
  | .captureClose .. => h.captureClose _
  | .flowQuietExpire .. => h.guard ((h.onPath _ _).raise 74)
  | .holdExpire .. => h.guard ((h.onPath _ _).raise 72)
  | .arrivalLearnDone => h.arrivalLearnDone
  | .leewayCalDone => h.leewayCalDone
  | .rtdSetDue => .ite (.ite (.next (h.onLog _)) (.next ((h.onLog _).bringOn .log))) (.next h)
  | .rtdConversionStart => h.rtdConversionStart
  | .rtdConversionDone .. => h.rtdConversionDone _
  | .rtdDischargeTimeout => h.rtdDischargeTimeout
  | .rtdSetStale .. => .next (h.onPath _ _)
  | .totalsPeriodicSave => h.guard (h.saveTotals _)
  | .powerfailSave => h.guard ((h.saveTotals _).onFw _)
  | .gaugeConversionEnd .. => h.gaugeConversionEnd _
  | .restWindowComplete => h.restWindowComplete
  | .gaugeTelemetry .. => h.gaugeTelemetry _ _
  | .fixAttempt .. => h.fixAttempt _ _
  | .learnAgeExpire => h.guard (h.learnDisq 9)
  | .nop .. => h.serve fun rq => h.openRead _ rq _
  | .version .. => h.serve fun rq => h.openRead _ rq _
  | .status .. => h.serve fun rq => h.openRead _ rq _
  | .reset .. => h.reset _
  | .routeSet .. => h.routeSet _
  | .routeGet .. => h.serve fun rq => h.openRead _ rq _
  | .logRead .. => h.logRead _
  | .charterRead .. => h.charterRead _
  | .charterStage .. => h.charterStage _
  | .charterCommit .. => h.charterCommit _
  | .charterDiscard .. => h.charterDiscard _
  | .seal .. => h.sealCommand _
  | .unseal .. => h.unsealCommand _
  | .pdPolicy .. => h.pdPolicy _
  | .wakePolicy .. => h.wakePolicy _
  | .convCtlStop .. => h.convCtl _ _ _
  | .convCtlRestart .. => h.convCtl _ _ _
  | .policyGet .. => h.policyGet _
  | .timeSet .. => h.timeSet _
  | .timeShift .. => h.timeShift _
  | .trimPolicy .. => h.trimPolicy _
  | .trimGet .. => h.trimGet _
  | .gaugeCfgWrite .. => h.gaugeCfgWrite _
  | .gaugeCfgRead .. => h.gaugeCfgRead _
  | .gaugeProfile .. => h.gaugeProfile _
  | .gaugeSave .. => h.gaugeSave _
  | .gaugeRestore .. => h.gaugeRestoreCommand _
  | .acqWrite .. => h.acqWrite _
  | .acqRead .. => h.pathRead _ _ _
  | .flowWrite .. => h.flowWrite _
  | .flowRead .. => h.pathRead _ _ _
  | .rtdWrite .. => h.rtdWrite _
  | .rtdRead .. => h.rtdRead _
  | .cardWrite .. => h.cardWrite _
  | .cardRead .. => h.pathRead _ _ _
  | .fluidWrite .. => h.fluidWrite _
  | .fluidRead .. => h.pathRead _ _ _
  | .pathPorts .. => h.pathPorts _
  | .arrivalLearn .. => h.arrivalLearn _
  | .leewayCal .. => h.leewayCal _
  | .calResult .. => h.calResult _
  | .totalsRead .. => h.totalsRead _
  | .totalsReset .. => h.totalsReset _
  | .w2w .. => h.w2w _
  | .fluidProps .. => h.fluidProps _
  | .fwBegin .. => h.fwBegin _
  | .fwData .. => h.fwData _
  | .fwVerify .. => h.fwVerify _
  | .fwActivate .. => h.fwActivate _
  | .fwInfo .. => h.fwInfo _
  | .probeCfg .. => h.probeCfg _
  | .probeRead .. => h.probeRead _
  | .probeWrite .. => h.probeWrite _
  | .prescalerCount .. => h.guard (h.ck32.onBin _ fun _ => by exact rfl)
  | .binPorRelease => h.guard ((h.onBin _ fun _ => by exact rfl).onDom _)
  | .vddioReturn => .next (h.onSpi _)
  | .pllcLock => h.guard (h.onDom _)
  | .dieTemp => .next (h.raise 95)
  | .flashEcc => .next (h.raise 94)

theorem step (h : Canon s) : Yields Canon (Machine.step s) := by
  unfold Machine.step
  split
  case h_1 => exact .next h
  case h_2 c rest _ => exact exec (s := { s with pending := rest }) h c

end Canon

end Sys2Proof.Machine

namespace Sys2Proof.Proofs

open Sys2Proof Sys2Proof.Machine

/-- Settles O4: every operation but a write leaves the memories, and a write keeps their form. -/
theorem stepsKeepTheMemoriesCanonical : Obligations.StepsKeepTheMemoriesCanonical := by
  intro s t ok hstep
  exact t.memOk_iff.2 (Canon.step (s.memOk_iff.1 ok) t hstep)

end Sys2Proof.Proofs
end

section
/-! PROOFS. Trim corrections (R121, R132, R133), and the measurement of the crystal (R134 to R137, R146). -/

namespace Sys2Proof.Machine

variable (s : State)

/-! ## A correction at an edge (R132, R133) -/

/-- A correction is due on the crystal alone, once the calendar runs (R121, R132). -/
theorem State.corrDue_runs (h : s.corrDue = true) : s.cal.started = true ∧ s.cal.onLrc = false := by
  simp only [State.corrDue, Bool.and_eq_true, Bool.not_eq_true'] at h
  exact ⟨h.1.1.1, h.1.1.2⟩

theorem State.edgeKind_corr (hc : s.cal.commit ≠ some .setr) (hd : s.corrDue = true) : s.edgeKind = .corr := by
  simp [State.edgeKind, hc, hd, (s.corrDue_runs hd).1]

theorem State.edgeKind_ne_corr (hd : s.corrDue = false) : s.edgeKind ≠ .corr := by
  simp only [State.edgeKind, hd, Bool.false_eq_true, if_false]
  repeat' split
  all_goals decide

/-- A negative TRIM takes the edge's count away, and a positive one makes it two (R133). -/
theorem State.edgeCounts_corr (hd : s.corrDue = true) : s.edgeCounts = if s.trim.cycleTrim.msb then 0 else 2 := by
  simp [State.edgeCounts, hd, (s.corrDue_runs hd).1]

/-- The edge of a correction in the trim engine: none is owed any more. -/
theorem State.trimEdge_corr (hd : s.corrDue = true) : Trim.edge (!s.cal.started) false s.corrDue s.cal.onLrc s.trim =
    { s.trim with raw := s.trim.raw + 1, cyclePos := (s.trim.cyclePos + 1) % trimCycle, corrOwed := false } := by
  obtain ⟨hs, hl⟩ := s.corrDue_runs hd
  simp [Trim.edge, hs, hl]

/-- The second ends with up to one second's counts left over, inside the cycle (R118). -/
theorem Cal.ticked_rest (c : Cal) (r : Nat) (hr : r < 32768) (h : c.lsec.toNat + 1 < cycleSeconds) :
    c.ticked r none = (c.lsec + 1, BitVec.ofNat 15 r) ∧ (shiftedTime c.lsec.toNat r none).2 = false := by
  have hn : ¬cycleSeconds * 32768 ≤ (c.lsec.toNat + 1) * 32768 + r := by generalize cycleSeconds = n at *; omega
  have hq : ((c.lsec.toNat + 1) * 32768 + r) / 32768 = (c.lsec.toNat + 1) * 32768 / 32768 := by omega
  have hm : ((c.lsec.toNat + 1) * 32768 + r) % 32768 = r := by omega
  rw [Cal.ticked, shiftedTime_none, if_neg hn]
  exact ⟨by rw [hq, lsec_succ, hm], rfl⟩

/-- Counts that end a second with neither a commit nor a shift pending. -/
theorem Cal.atEdge_second (c : Cal) (n : Nat) (hn : n ≤ 32768) (h : 32768 ≤ c.subsec.toNat + n) (hc : c.commit = none)
    (hs : c.shift = none) (hl : c.lsec.toNat + 1 < cycleSeconds) : c.atEdge false n =
      (c.passed false { c with lsec := c.lsec + 1, subsec := BitVec.ofNat 15 (c.subsec.toNat + n - 32768) }, false) := by
  have hb := c.subsec.isLt
  obtain ⟨ht, hw⟩ := c.ticked_rest (c.subsec.toNat + n - 32768) (by omega) hl
  have hcounts : c.counts n =
      ({ c with lsec := c.lsec + 1, subsec := BitVec.ofNat 15 (c.subsec.toNat + n - 32768) }, false) := by
    simp only [Cal.counts]
    rw [if_pos h, c.tick_none _ (by simp [hc]) hs, ht, hw, Bool.or_false]
  have same : ({ c with commit := if false then none else c.commit } : Cal) = c := rfl
  have calm : (c.commit == some .sett || c.shift.isSome) = false := by rw [hc, hs]; rfl
  simp only [Cal.atEdge, same, hcounts, calm, Bool.and_false]
  rfl

/-! ## The crystal fails and returns (R121, R137) -/

/-- The calendar on LRC, its flag set, and EV18. -/
def State.crystalLost : State :=
  ((s.onCal fun c => { c with xtalFail := true, onLrc := true }).binSet 0x011B 0x20).raise 18

theorem execXtalFail_runs (hl : s.cal.onLrc = false) (hh : s.bin.held = false) :
    execXtalFail s = .next (s.crystalLost.trimAbort 5) := by
  simp [execXtalFail, State.crystalLost, hl, hh]

theorem State.crystalLost_frame : s.crystalLost = { s with
    cal := { s.cal with xtalFail := true, onLrc := true }
    bin := { s.bin with setNow := (0x011B, 0x20) :: s.bin.setNow }
    ev := s.crystalLost.ev, dom := s.crystalLost.dom } := State.raise_frame _ 18

/-! ## A measurement (R134 to R136) -/

theorem execTrimMeasOpen_runs (ha : s.trim.active = true) (ho : s.trim.openRaw = none) (hr : s.trim.referenced = true) :
    execTrimMeasOpen s = .next (s.onTrim fun t => { t with openRaw := some t.raw, prog := 0 }) := by
  simp [execTrimMeasOpen, ha, ho, hr]

/-- The clamp changes the deviation exactly where it lies outside 13 bits (R135). -/
theorem clamped_iff (v : Int) : (clampInt (-4096) 4095 v != v) = decide (v < -4096 ∨ 4095 < v) := by
  rw [Bool.eq_iff_iff, bne_iff_ne, decide_eq_true_iff, clampInt]
  omega

/-- What the end of a measurement leaves in the trim engine (R135, R136). -/
theorem Trim.finish_eq (t : Trim) (n : Nat) :
    let v := t.result n
    let w := BitVec.ofInt 13 (clampInt (-4096) 4095 v)
    t.finish n = { t with
      count := BitVec.ofNat 32 n, calcd := w, clamped := decide (v < -4096 ∨ 4095 < v), valid := true
      trim := if t.auto then w else t.trim, run := false, active := t.cont
      openRaw := if t.cont then some t.raw else none, prog := 0 } := by
  intro v w
  rw [← clamped_iff]
  rfl

/-- The end of a measurement, TRIM marked as set in this cycle when TR_AUTO loads it (R136). -/
theorem execTrimMeasDone_runs {r : Nat} (hr : s.trim.openRaw = some r) (ha : s.trim.active = true)
    (hk : 2 ^ s.trim.kEff ≤ s.trim.prog.toNat) : execTrimMeasDone s = .next (({ s with
      bin := if s.trim.auto then { s.bin with setNow := (0x0130, 0xFF) :: s.bin.setNow } else s.bin
      trim := s.trim.finish (s.trim.raw - r) } : State).raise 25) := by
  simp only [execTrimMeasDone, hr, ha, decide_eq_true hk, Bool.and_self, if_true]
  cases s.trim.auto <;> rfl

theorem execTrimMeasDone_idle (h : s.trim.openRaw = none ∨ s.trim.active = false ∨ s.trim.prog.toNat < 2 ^ s.trim.kEff) :
    execTrimMeasDone s = .next s := by
  unfold execTrimMeasDone
  split
  · next r hr =>
    refine if_neg fun hc => ?_
    simp only [Bool.and_eq_true, decide_eq_true_eq] at hc
    obtain ⟨ha, hk⟩ := hc
    rcases h with h | h | h
    · simp [hr] at h
    · simp [ha] at h
    · omega
  · rfl

/-- A PPS edge that a measurement takes (R134). -/
theorem execPpsEdge_runs (hp : s.bin.evts[3].pps = true) (ha : s.trim.active = true) (hh : s.bin.held = false) :
    execPpsEdge s = match s.trim.lastPps with
      | some r => if s.trim.raw - r < 32752 ∨ 32784 < s.trim.raw - r then .next (s.trimAbort 4).trimResume
        else .next (s.onTrim fun t => { t with
          lastPps := some t.raw
          prog := if t.src && t.openRaw.isSome && t.prog.toNat < 2 ^ t.kEff then t.prog + 1 else t.prog })
      | none => .next (s.onTrim fun t => { t with lastPps := some t.raw }) :=
  if_pos (by simp [hp, ha, hh])

/-- A PPS interval outside its bounds aborts, and firmware that owes no measurement starts none (R134, R446). -/
theorem execPpsEdge_aborts {r : Nat} (hp : s.bin.evts[3].pps = true) (ha : s.trim.active = true) (hh : s.bin.held = false)
    (hl : s.trim.lastPps = some r) (hout : s.trim.raw - r < 32752 ∨ 32784 < s.trim.raw - r) :
    execPpsEdge s = .next (s.trimAbort 4).trimResume := by
  rw [execPpsEdge_runs s hp ha hh, hl]
  exact if_pos hout

/-- An abort that firmware does not answer with a new measurement (R137, R446). -/
theorem State.trimAbort_final (c : Nat) (ha : s.trim.active = true) (hr : s.fw.trimRestarts = false) : s.trimAbort c =
    (s.onTrim fun t => { t with run := false, active := false, openRaw := none, cause := BitVec.ofNat 3 c }).raise 26 := by
  unfold State.trimAbort
  rw [if_pos ha]
  simp [hr]

end Sys2Proof.Machine

namespace Sys2Proof.Proofs

open Sys2Proof Sys2Proof.Machine

theorem trimCorrectsTheCount : Claims.TrimCorrectsTheCount := by
  intro s
  refine ⟨fun hh hs hc hd => ?_, fun hd => ?_, fun h => if_pos h, fun h => if_neg h, fun h => if_pos (by simpa using h),
    fun hl hh => ?_, ?_⟩
  · intro edge cal cycle
    have run : exec .trimCorrection s = .next s.ck32 := congrArg _ (s.edgeOf_kind .corr hh (s.edgeKind_corr hc hd))
    have counts := s.edgeCounts_corr hd
    have trim := s.trimEdge_corr hd
    refine ⟨fun hm => ?_, fun hm hu => ?_, fun hm hu hcn hsn hl => ?_⟩
    · rw [hm, if_pos rfl] at counts
      rw [run, s.ck32_below hc (by rw [counts]; exact s.cal.subsec.isLt), counts, trim]
      simp only [Nat.add_zero, BitVec.ofNat_toNat, BitVec.setWidth_eq, Cal.passed, ← hs]
      rfl
    · rw [hm, if_neg Bool.false_ne_true] at counts
      have hn : BitVec.ofNat 15 (s.cal.subsec.toNat + 2) = s.cal.subsec + 2 :=
        BitVec.eq_of_toNat_eq (by rw [BitVec.toNat_ofNat, BitVec.toNat_add]; rfl)
      rw [run, s.ck32_below hc (by rw [counts]; exact hu), counts, trim, hn]
      simp only [Cal.passed, ← hs]
      rfl
    · rw [hm, if_neg Bool.false_ne_true] at counts
      have hk : (s.edgeKind == .load) = false := by simp [s.edgeKind_corr hc hd]
      refine ⟨s.ck32, run, ?_⟩
      rw [(congrArg State.cal s.ck32_parts.1 :)]
      simp only [State.atCk32, State.calNext, hk, counts, s.cal.atEdge_second 2 (by omega) hu hcn hsn hl]
      simp only [Cal.passed, ← hs]
      rfl
  · exact congrArg _ (s.edgeOf_other [.corr] (by simpa using s.edgeKind_ne_corr hd))
  · have run := execXtalFail_runs s hl hh
    have lost := s.crystalLost_frame
    have trim : s.crystalLost.trim = s.trim := (congrArg State.trim lost :)
    have ev18 : s.crystalLost.ev.raised.getLsbD 18 = true := State.raise_latched _ 18 (by omega)
    refine ⟨_, run, ?_, ?_, ?_, ?_, fun ha => ?_, fun ha => ?_⟩
    · rw [State.trimAbort_frame, lost]
    · rw [State.trimAbort_cal, lost]
    · rw [State.trimAbort_raised 5 (by omega), ev18]
    · rw [State.trimAbort_bin, lost]
    · have aborted := State.trimAbort_active (s := s.crystalLost) 5 (by rw [trim, ha])
      rw [trim] at aborted
      exact aborted
    · rw [State.trimAbort_idle 5 (by rw [trim, ha]), trim]
  · refine ⟨_, rfl, State.trimResume_frame, fun h => ?_⟩
    have idle := State.trimResume_idle (s := s.onCal fun c => { c with onLrc := false }) (.inl h)
    exact ⟨(congrArg State.trim idle :), (congrArg State.ev idle :)⟩

theorem trimIsMeasured : Claims.TrimIsMeasured := by
  intro s k ready
  refine ⟨execTrimMeasOpen_runs s, fun h => ?_, fun r hr ha hk => ?_, execTrimMeasDone_idle s,
    fun hp ha hh => ⟨fun hl => ?_, fun r hl h1 h2 => ?_, fun r hl hout hf hn => ?_⟩, fun h => if_neg ?_⟩
  · refine if_neg fun hc => ?_
    simp only [Bool.and_eq_true, Option.isNone_iff_eq_none] at hc
    obtain ⟨⟨ha, ho⟩, href⟩ := hc
    rcases h with h | h | h
    · simp [ha] at h
    · simp [ho] at h
    · exact absurd (href.symm.trans h) (by simp)
  · intro e v w
    rw [show exec .trimMeasDone s = _ from execTrimMeasDone_runs s hr ha hk, Trim.finish_eq]
    rfl
  · simp only [exec, execPpsEdge_runs s hp ha hh, hl]
    rfl
  · simp only [exec, execPpsEdge_runs s hp ha hh, hl]
    rw [if_neg (by omega)]
    rfl
  · rw [show exec .ppsEdge s = _ from execPpsEdge_aborts s hp ha hh hl hout, s.trimAbort_final 4 ha hn]
    exact congrArg _ (State.trimResume_idle (.inl (by rw [State.raise_frame]; exact hf)))
  · rcases h with h | h | h <;> simp [h]

/-- Settles O27: a correction is one edge with two counts or none; a measurement's end is the finish of its count. -/
theorem theTrimCorrectsAndMeasures : Obligations.TheTrimCorrectsAndMeasures :=
  ⟨trimCorrectsTheCount, trimIsMeasured⟩

end Sys2Proof.Proofs
end

section
/-! PROOFS. Domains that reach ON (R33, R76, R158, R159, R167, R168, R173, R402), the records that wait for MEM_B (R281), and the
clocks and alarms of the core die (R170 to R172, R301). -/

namespace Sys2Proof.Machine

variable (s : State)

/-! ## What stays ON while domains leave their low states (R159, R167) -/

/-- What is ON in `s` is ON in `t`, the held pads are the same, and the beacon detector has not latched. -/
structure StaysOn (s t : State) : Prop where
  on : ∀ x, s.isOn x = true → t.isOn x = true
  pads : t.dom.padHeld = s.dom.padHeld
  beacon : s.dom.beaconLatch = false → t.dom.beaconLatch = false

namespace StaysOn

variable {s t u : State}

/-- A change that leaves the domains. -/
theorem of_dom (h : t.dom = s.dom) : StaysOn s t :=
  ⟨fun x hx => (congrArg (fun e => (Domains.get e x).st == .on) h).trans hx, congrArg Domains.padHeld h,
    (congrArg Domains.beaconLatch h).trans⟩

theorem refl (s : State) : StaysOn s s := of_dom rfl

theorem trans (h : StaysOn s t) (k : StaysOn t u) : StaysOn s u :=
  ⟨fun x hx => k.on x (h.on x hx), k.pads.trans h.pads, fun hb => k.beacon (h.beacon hb)⟩

theorem ite {c : Prop} [Decidable c] {a b : State} (ha : StaysOn s a) (hb : StaysOn s b) : StaysOn s (if c then a else b) := by
  split
  · exact ha
  · exact hb

theorem when (h : StaysOn s t) (c : Bool) (f : State → State) (hf : StaysOn t (f t)) : StaysOn s (t.when c f) :=
  ite (h.trans hf) h

theorem foldl {α : Type} (f : State → α → State) (hf : ∀ t x, StaysOn t (f t x)) (xs : List α) (h : StaysOn s t) :
    StaysOn s (xs.foldl f t) := by
  induction xs generalizing t with
  | nil => exact h
  | cons x xs ih => exact ih (h.trans (hf t x))

theorem onPower (h : StaysOn s t) (f : Power → Power) : StaysOn s (t.onPower f) := h.trans (of_dom rfl)
theorem onEv (h : StaysOn s t) (f : Events → Events) : StaysOn s (t.onEv f) := h.trans (of_dom rfl)
theorem onBerths (h : StaysOn s t) (f : Berths → Berths) : StaysOn s (t.onBerths f) := h.trans (of_dom rfl)
theorem onBerth (h : StaysOn s t) (b : Fin 4) (f : Berth → Berth) : StaysOn s (t.onBerth b f) := h.trans (of_dom rfl)
theorem onLog (h : StaysOn s t) (f : Log → Log) : StaysOn s (t.onLog f) := h.trans (of_dom rfl)
theorem onGauge (h : StaysOn s t) (f : Gauge → Gauge) : StaysOn s (t.onGauge f) := h.trans (of_dom rfl)
theorem onFw (h : StaysOn s t) (f : Firmware → Firmware) : StaysOn s (t.onFw f) := h.trans (of_dom rfl)

/-- A change of the domains' page that leaves the domains' states. -/
theorem onDom (h : StaysOn s t) (f : Domains → Domains)
    (hget : ∀ v x, (f v).get x = v.get x := by exact fun _ x => by cases x <;> rfl)
    (hpads : ∀ v, (f v).padHeld = v.padHeld := by exact fun _ => rfl)
    (hb : ∀ v, v.beaconLatch = false → (f v).beaconLatch = false := by exact fun _ => id) : StaysOn s (t.onDom f) :=
  h.trans ⟨fun x hx => (congrArg (fun e : DomSt => e.st == .on) (hget t.dom x)).trans hx, hpads t.dom, hb t.dom⟩

/-- An exit of a low state takes no domain out of ON. -/
theorem startOn (h : StaysOn s t) (d : Domain) : StaysOn s (t.startOn d) := by
  refine h.trans ⟨fun x hx => ?_, t.startOn_keeps Domains.padHeld (fun _ d _ => by cases d <;> rfl) d,
    (t.startOn_keeps Domains.beaconLatch (fun _ d _ => by cases d <;> rfl) d).trans⟩
  rw [State.isOn_iff] at hx ⊢
  by_cases e : x = d
  · subst e
    simp [State.startOn, hx]
  · rw [t.startOn_other e, hx]

theorem bringOn (h : StaysOn s t) (d : Domain) : StaysOn s (t.bringOn d) := by
  cases d
  case log => exact ((h.startOn _).startOn _).startOn _
  case memB => exact (h.startOn _).startOn _
  all_goals exact h.startOn _

theorem need (h : StaysOn s t) (d : Domain) : StaysOn s (t.need d) := ite h (h.bringOn d)

theorem startWanted (h : StaysOn s t) : StaysOn s t.startWanted := foldl _ (fun t _ => ite ((refl t).startOn _) (refl t)) _ h

theorem wake (h : StaysOn s t) (k : Nat) (ds : List Domain) : StaysOn s (t.wake k ds) :=
  ite (foldl _ (fun t d => (refl t).bringOn d) _ (h.onDom _)) h

theorem raise (h : StaysOn s t) (e : Nat) : StaysOn s (t.raise e) := (h.onEv _).when _ _ ((refl _).wake 18 _)

theorem putRecord (h : StaysOn s t) (r : Rec) : StaysOn s (t.putRecord r) :=
  ite ((h.onBerth _ _).when _ _ ((refl _).raise _)) (((h.onBerths _).onBerth _ _).when _ _ ((refl _).raise _))

theorem flushRecords (h : StaysOn s t) : StaysOn s t.flushRecords :=
  ite (foldl _ (fun t r => (refl t).putRecord r) _ (h.onFw _)) (h.when _ _ ((refl t).need .memB))

theorem startSounding (h : StaysOn s t) (p : Path) : StaysOn s (t.startSounding p) :=
  ((h.onLog _).onLog _).when _ _ ((refl _).raise 70)

theorem startNext (h : StaysOn s t) : StaysOn s t.startNext := by
  refine ite (ite (h.startSounding .a) (ite (h.startSounding .b) ?_)) h
  split
  · exact h.onLog _
  · exact h

theorem takeZone (h : StaysOn s t) : StaysOn s t.takeZone := ite ((h.onPower _).when _ _ ((refl _).raise 11)) h

theorem raiseLate (h : StaysOn s t) : StaysOn s t.raiseLate :=
  foldl _ (fun t e => ite ((refl t).raise e) (refl t)) _ (h.onEv _)

theorem sysReset (h : StaysOn s t) : StaysOn s t.sysReset :=
  ite ((h.onDom _).raise 80) h

end StaysOn

/-! ## What reaching ON leaves unchanged -/

@[simp] theorem State.restoreHif_dom : s.restoreHif.dom = s.dom := by
  unfold State.restoreHif
  split <;> rfl

@[simp] theorem State.restoreHif_power : s.restoreHif.power = s.power := by
  unfold State.restoreHif
  split <;> rfl

/-- Firmware enables delivery (R303). -/
theorem State.restoreHif_routeOk : s.restoreHif.ev.routeOk = true := rfl

theorem State.sysReset_routeOk : s.sysReset.ev.routeOk = s.ev.routeOk := by
  unfold State.sysReset
  split
  · rw [State.raise_ev]
    rfl
  · rfl

/-- Late events are events: firmware is as before but for records that wait. -/
theorem State.raiseLate_started : s.raiseLate.fw.started = s.fw.started :=
  have late : Reported s s.raiseLate := Reported.trans (t := s.onEv fun x => { x with late := 0 })
    ⟨rfl, rfl, fun _ => rfl, fun _ => id⟩ (Reported.foldl _ (fun t e => .ite (.raise t e) (.refl t)) _ _)
  (congrArg Firmware.started late.fw :)

/-- What a domain does as it reaches ON takes none out of ON. -/
theorem StaysOn.reached (d : Domain) (origin : Low) (vdrv : Nat) : StaysOn s (s.reached d origin vdrv) := by
  have h := StaysOn.refl s
  cases d
  case cpu => exact h
  case memM => exact h
  case memB => exact (h.when _ _ (.of_dom rfl)).flushRecords
  case log => exact (h.onLog _).startNext
  case gauge => exact .ite ((h.onGauge _).raise 93) h
  case pwr =>
    exact (h.onDom _ (hb := by exact fun _ _ => rfl)).takeZone.trans (.of_dom (State.chargerGate_dom _))
  case hif => exact (h.raiseLate.when _ _ (.of_dom (State.restoreHif_dom _))).sysReset

/-- Exits that begin change the domains alone. -/
theorem State.startWanted_frame : s.startWanted = { s with dom := s.startWanted.dom } := by
  unfold State.startWanted
  generalize [Domain.cpu, .memM, .hif, .memB, .pwr, .gauge, .log] = xs
  induction xs generalizing s with
  | nil => rfl
  | cons x xs ih =>
    refine (ih _).trans ?_
    dsimp only [List.foldl_cons]
    split <;> rfl

theorem State.startWanted_ev : s.startWanted.ev = s.ev := (congrArg State.ev s.startWanted_frame :)
theorem State.startWanted_log : s.startWanted.log = s.log := (congrArg State.log s.startWanted_frame :)
theorem State.startWanted_fw : s.startWanted.fw = s.fw := (congrArg State.fw s.startWanted_frame :)

/-! ## Records that wait (R281) -/

/-- Records are written without firmware's other work. -/
theorem State.putRecords_fw (rs : List Rec) : (rs.foldl (fun s r => s.putRecord r) s).fw = s.fw := by
  induction rs generalizing s with
  | nil => rfl
  | cons r rs ih => exact (ih _).trans (s.putRecord_fw r)

/-- Records that can be written no longer wait. -/
theorem State.flushRecords_fw (h : s.ringsUp = true) : s.flushRecords.fw = { s.fw with recQ := [] } := by
  rw [State.flushRecords, if_pos h]
  exact State.putRecords_fw _ _

theorem State.need_frame (d : Domain) : s.need d = { s with dom := (s.need d).dom } := by
  apply State.ext_parts <;> simp

/-- Whether a domain leaves a low state does not depend on firmware. -/
theorem State.need_onFw (f : Firmware → Firmware) (d : Domain) : (s.onFw f).need d = (s.need d).onFw f := by
  unfold State.need
  rw [apply_ite (State.onFw f)]
  cases d <;> rfl

/-- A record that cannot be written waits, and firmware that runs brings MEM_B ON for it. -/
theorem State.record_waits (h : s.ringsUp = false) (b : Fin 4) (stamp : BitVec 64) (kind path flags : Byte) (p : List Byte) :
    s.record b stamp kind path flags p = (s.when (s.isOn .cpu && s.fw.started) (State.need .memB)).onFw fun f =>
      { f with recQ := f.recQ ++ [⟨b, stamp, kind, path, flags, p⟩] } := by
  refine (if_neg (Bool.eq_false_iff.1 h)).trans ?_
  cases s.isOn .cpu && s.fw.started
  · rfl
  · exact s.need_onFw _ .memB

/-! ## DOMAIN_ON_DONE (R158) -/

/-- Domain `d` reads ON, and no exit of it waits. -/
def State.turnedOn (d : Domain) : State := s.onDom fun x => x.set d { st := .on }

theorem State.turnedOn_same (d : Domain) : (s.turnedOn d).isOn d = true := by simp [State.isOn_iff, State.turnedOn]

theorem State.turnedOn_other {d x : Domain} (h : x ≠ d) : (s.turnedOn d).isOn x = s.isOn x :=
  congrArg (fun v : DomSt => v.st == .on) (Domains.get_set_other s.dom _ h)

theorem State.turnedOn_padHeld (d : Domain) : (s.turnedOn d).dom.padHeld = s.dom.padHeld := by cases d <;> rfl

/-- A domain other than the CPU that leaves a low state reaches ON; LOG does while XO16 runs (R171). -/
theorem execDomainOnDone_reaches {d : Domain} {low : Low} (vdrv : Nat) (h : (s.dom.get d).st = .leaving low) (hc : d ≠ .cpu)
    (hx : d ≠ .log ∨ s.dom.xo16Fail = false) :
    exec (.domainOnDone d vdrv) s = .next ((s.turnedOn d).reached d low vdrv).startWanted := by
  have hl : ¬(d = .log ∧ s.dom.xo16Fail = true) := fun ⟨e, f⟩ => by simp [e, f] at hx
  simp only [exec, execDomainOnDone, h]
  exact (if_neg hc).trans (if_neg hl)

/-- While XO16 has failed, LOG rests again in the state that it was to leave (R171). -/
theorem execDomainOnDone_xo16Fail {low : Low} (vdrv : Nat) (h : s.dom.log.st = .leaving low) (hx : s.dom.xo16Fail = true) :
    exec (.domainOnDone .log vdrv) s =
      .next { s with dom := { s.dom with log := { st := if low = .off then .off else .ret } } } := by
  have h' : (s.dom.get .log).st = .leaving low := h
  simp only [exec, execDomainOnDone, h']
  refine (if_neg nofun).trans ((if_pos ⟨trivial, hx⟩).trans ?_)
  cases low <;> rfl

theorem execDomainOnDone_none {d : Domain} (vdrv : Nat) (h : ∀ low, (s.dom.get d).st ≠ .leaving low) :
    exec (.domainOnDone d vdrv) s = .next s := by
  cases hst : (s.dom.get d).st with
  | leaving low => exact absurd hst (h low)
  | _ => simp only [exec, execDomainOnDone, hst]

/-- The pads stay as they were held, and with the domain what was ON before is ON (R167). -/
theorem State.reached_staysOn (d : Domain) (low : Low) (vdrv : Nat) :
    StaysOn (s.turnedOn d) ((s.turnedOn d).reached d low vdrv).startWanted :=
  (StaysOn.reached _ d low vdrv).startWanted

/-- GAUGE from OFF starts anew with EV93 (R402). -/
theorem State.reached_gauge (vdrv : Nat) : (s.reached .gauge .off vdrv).gauge = Gauge.fresh ∧
    (s.reached .gauge .off vdrv).ev.raised.getLsbD 93 = true :=
  ⟨State.raise_gauge _ 93, State.raise_latched _ 93 (by decide)⟩

/-- PWR clears the beacon detector (R76). -/
theorem State.reached_pwr (low : Low) (vdrv : Nat) : (s.reached .pwr low vdrv).dom.beaconLatch = false :=
  ((StaysOn.refl _).takeZone.trans (.of_dom (State.chargerGate_dom _))).beacon rfl

/-- LOG runs its pump below 4.5 V (R33). -/
theorem State.reached_log (low : Low) (vdrv : Nat) : (s.reached .log low vdrv).log.pump = decide (vdrv < 4500) :=
  (congrArg Log.pump (Slotted.startNext _).log :)

/-- HIF has its event controller restored by running firmware (R168, R303). -/
theorem State.reached_hif (low : Low) (vdrv : Nat) (h : s.fw.started = true) :
    (s.reached .hif low vdrv).ev.routeOk = true := by
  have e : s.reached .hif low vdrv = s.raiseLate.restoreHif.sysReset := by
    simp only [State.reached, h, State.when_true]
  rw [e, State.sysReset_routeOk, State.restoreHif_routeOk]

/-- MEM_B has its records written by running firmware (R281). -/
theorem State.reached_memB (low : Low) (vdrv : Nat) (hb : s.isOn .memB = true) (hc : s.isOn .cpu = true)
    (hf : s.fw.started = true) : (s.reached .memB low vdrv).fw.recQ = [] := by
  have e : s.reached .memB low vdrv = s.memUsed.flushRecords := by simp only [State.reached, hf, State.when_true]
  have up : s.memUsed.ringsUp = true := by
    show (s.isOn .memB && s.isOn .cpu && s.fw.started) = true
    rw [hb, hc, hf]
    rfl
  rw [e, State.flushRecords_fw _ up]

/-! ## CPU_RESET_RELEASE (R173), and PAD_HOLD_RELEASE (R167, R168) -/

theorem execPadHoldRelease_runs {d : Domain} {k : Nat} (hk : padBit d = some k) (hf : s.fw.started = true)
    (hon : s.isOn d = true) (hp : s.dom.padHeld.getLsbD k = true) :
    exec (.padHoldRelease d) s = .next (((s.when (d == .hif) State.restoreHif).onDom fun x =>
      { x with padHeld := x.padHeld &&& ~~~(1#4 <<< k) }).when (d == .pwr) fun s => s.onPower fun p =>
        { p with chswZ := p.chg == .off }) := by
  simp only [exec, execPadHoldRelease, hk]
  exact if_pos (by simp [hf, hon, hp])

theorem execPadHoldRelease_none {d : Domain} (h : padBit d = none ∨ s.fw.started = false ∨ s.isOn d = false) :
    exec (.padHoldRelease d) s = .next s := by
  simp only [exec, execPadHoldRelease]
  split
  case h_2 => rfl
  case h_1 k hk =>
    refine if_neg ?_
    rcases h with h | h | h
    · simp [h] at hk
    · simp [h]
    · simp [h]

end Sys2Proof.Machine

namespace Sys2Proof.Proofs

open Sys2Proof Sys2Proof.Machine

theorem domainsReachOn_claim : Claims.DomainsReachOn := by
  intro s d vdrv low
  refine ⟨fun h hc hx => ?_, execDomainOnDone_xo16Fail s vdrv, execDomainOnDone_none s vdrv, fun h hw => ?_, fun h => ?_,
    fun k hk hf hon hp => ?_, execPadHoldRelease_none s⟩
  · have stays := s.reached_staysOn d low vdrv
    refine ⟨_, execDomainOnDone_reaches s vdrv h hc hx, stays.on d (s.turnedOn_same d),
      stays.pads.trans (s.turnedOn_padHeld d), fun x hx hs => stays.on x ((s.turnedOn_other hx).trans hs), ?_⟩
    rw [State.startWanted_gauge, State.startWanted_ev, State.startWanted_log]
    refine ⟨?_, ?_, ?_, ?_, ?_⟩
    · rintro rfl rfl
      exact State.reached_gauge _ vdrv
    · rintro rfl rfl
      rfl
    · rintro rfl
      exact (StaysOn.refl _).startWanted.beacon (State.reached_pwr _ low vdrv)
    · rintro rfl
      exact State.reached_log _ low vdrv
    · rintro rfl hf
      exact State.reached_hif _ low vdrv hf
  · simp only [exec, execCpuResetRelease, h]
    refine congrArg Host.Outcome.next (State.startWanted_none _ fun x => ?_)
    by_cases e : x = .cpu
    · subst e
      rfl
    · refine Eq.trans ?_ (hw x e)
      cases x
      case cpu => exact absurd rfl e
      all_goals rfl
  · cases hst : s.dom.cpu.st with
    | leaving low => exact absurd hst (h low)
    | _ => simp only [exec, execCpuResetRelease, hst]
  · refine ⟨_, execPadHoldRelease_runs s hk hf hon hp, ?_⟩
    cases d <;> simp only [padBit, reduceCtorEq, Option.some.injEq] at hk
    case hif =>
      exact ⟨congrArg (fun x : Domains => x.padHeld &&& ~~~(1#4 <<< k)) s.restoreHif_dom, nofun, fun _ => s.restoreHif_power,
        fun e => absurd rfl e, fun _ => s.restoreHif_routeOk⟩
    case pwr => exact ⟨rfl, fun _ => rfl, fun e => absurd rfl e, fun _ => rfl, nofun⟩
    all_goals exact ⟨rfl, nofun, fun _ => rfl, fun _ => rfl, nofun⟩

theorem recordsWaitForTheirRing : Claims.RecordsWaitForTheirRing := by
  intro b s stamp kind path flags payload vdrv low t
  refine ⟨fun h => ?_, fun h hc hf => ?_⟩
  · have ht : t = (s.when (s.isOn .cpu && s.fw.started) (State.need .memB)).onFw fun f =>
        { f with recQ := f.recQ ++ [⟨b, stamp, kind, path, flags, payload⟩] } :=
      s.record_waits h b stamp kind path flags payload
    cases ho : s.isOn .cpu && s.fw.started
    · rw [ho, State.when_false] at ht
      rw [ht]
      refine ⟨rfl, rfl, fun hc hf => ?_, fun _ => rfl⟩
      simp [hc, hf] at ho
    · rw [ho, State.when_true] at ht
      rw [ht, s.need_frame]
      obtain ⟨hc, hf⟩ := Bool.and_eq_true_iff.1 ho
      exact ⟨rfl, rfl, fun _ _ => rfl, fun h => by simp [hc, hf] at h⟩
  · refine ⟨_, execDomainOnDone_reaches s (d := .memB) vdrv h nofun (.inl nofun), ?_, ?_⟩
    · exact (s.reached_staysOn .memB low vdrv).on _ (s.turnedOn_same .memB)
    · rw [State.startWanted_fw]
      exact State.reached_memB _ low vdrv (s.turnedOn_same .memB) hc hf

theorem clocksAndAlarms : Claims.ClocksAndAlarms := by
  intro s
  refine ⟨rfl, fun hc hr hx => if_pos (by simp [hc, hr, hx]), fun h => ?_, fun ht => ?_, fun ht => ?_, rfl, rfl⟩
  · have : ¬(s.isOn .cpu && s.dom.pllcReq && !s.dom.xo16Fail) = true := by
      rcases h with h | h | h <;> simp [h]
    exact if_neg this
  · let m := s.onDom fun d => { d with fwTimer := false }
    have keeps {α : Type} (g : Domains → α) (hg : ∀ x d v, g (x.set d v) = g x) := m.wake_keeps g hg 19 [.cpu]
    refine ⟨m.wake 19 [.cpu], if_pos ht, m.wake_frame 19 _, ?_, fun hw => ⟨?_, fun ho hp => ?_⟩, fun hw => ?_⟩
    · rw [keeps Domains.fwTimer fun _ d _ => by cases d <;> rfl]
      unfold Domains.latch
      split <;> rfl
    · have enabled : m.dom.wakeEn.getLsbD 19 = true := hw
      rw [keeps Domains.wakePend fun _ d _ => by cases d <;> rfl, Domains.latch, if_pos enabled]
      rfl
    · exact State.wake_cpu_leaves (s := m) hw ho hp
    · exact congrArg State.dom (m.wake_masked _ hw)
  · exact if_neg (Bool.eq_false_iff.1 ht)

/-- Settles O31: what a domain does as it reaches ON is said once by the domain, and `StaysOn` says what it leaves as it was. -/
theorem domainsReachOn : Obligations.DomainsReachOn := ⟨domainsReachOn_claim, recordsWaitForTheirRing, clocksAndAlarms⟩

end Sys2Proof.Proofs
end

section
/-! PROOFS. O6 and O43: each fails in a state that its hypotheses allow. -/

namespace Sys2Proof.Proofs

open Sys2Proof Sys2Proof.Machine

/-- The CPU on its way to RET, which R158 does not give it, while LOG is still on its way to OFF: both fall, as R159 asks. -/
def cpuRetiring : State :=
  { State.reset with
    dom := { cpu := { st := .entering .ret }, memM := { st := .on }, log := { st := .entering .off } }
    pending := [.domainEntryDone .cpu] }

theorem cpuRetiring_ok : cpuRetiring.dom.ok := ⟨fun _ => ⟨rfl, .inr ⟨rfl, rfl⟩⟩, nofun⟩

/-- Refutes O6: only an entry into OFF waits for LOG's, so the CPU reaches RET while LOG is still out of its low states. The
claim holds it of every state in which the domains are in order, and the order says nothing of the state the CPU falls to. -/
theorem not_stepsKeepTheDomainOrder : ¬ Obligations.StepsKeepTheDomainOrder := by
  intro h
  obtain ⟨-, cpuOnOrFalling⟩ := (h cpuRetiring _ cpuRetiring_ok rfl).1 rfl
  exact absurd cpuOnOrFalling (by decide)

/-- A locked B0 has rung with a NOP in its request mailbox. The list of MEM_B is not in rising order: a byte of the response
mailbox, 0x1109, stands after one of the first ring. -/
def lockedAndDisordered : State :=
  { State.reset with
    dom := { cpu := { st := .on }, memB := { st := .on }, ringOrder := [0] }
    fw := { Firmware.fresh with started := true }
    berths := {
      mem := [(0x1001, 0x01), (0x1002, 0x05), (0x1003, 0x02), (0x1006, 0x64), (0x1007, 0x76), (0x2000, 0x01), (0x1109, 0x09)]
      blk := Vector.replicate 4 { macLock := true } } }

/-- Refutes O43: a MAC_FAIL answer writes the first byte of MAC_CTR, 0, to 0x1109, which then still reads 9; the claim holds
it of every memory, in canonical form or not. -/
theorem not_requestsAreTakenAndChecked : ¬ Obligations.RequestsAreTakenAndChecked := by
  intro h
  obtain ⟨t, taken, -, -, -, -, -, -, -, checked, -⟩ := (h lockedAndDisordered 0).2 rfl rfl rfl rfl rfl
  obtain ⟨-, -, counter, -⟩ := (checked (by decide +kernel) (.inr rfl)).1 rfl
  obtain rfl := Host.Outcome.next.inj taken
  exact absurd (counter 0 (by decide)) (by decide +kernel)

end Sys2Proof.Proofs
end
